-- ==== Sys2Proof/Word.lean ====
section
/-! DEFINITION. The bit-vector names of the KX880: the 32-bit instruction word, the 64-bit register and the byte
(00_scope.md R2, R3; 02_instruction_words.md R10; 06_registers_and_scratchpad.md Table 6.1). -/

namespace Sys2Proof

/-- One byte of memory or of scratchpad. -/
abbrev Byte := BitVec 8

/-- One instruction word (R10). -/
abbrev Word := BitVec 32

/-- One 64-bit register of one lane, an address or a PC (Table 6.1). -/
abbrev Reg := BitVec 64

/-- A set of lanes of a group, bit `l` for lane `l` (Table 6.1, lane mask). -/
abbrev LaneSet := BitVec 32

end Sys2Proof
end

