-- ==== Sys2Proof/Machine/Bits.lean ====
section
/-! DEFINITION. Bit-field, byte-order and sign-extension helpers shared by the decoder and the meanings
(00_scope.md R2, R3: little-endian, bit ranges include both ends). -/

namespace Sys2Proof.Bits

/-- Field [lo+w-1 : lo] of a number (R3). -/
def fld (x lo w : Nat) : Nat := (x >>> lo) % 2 ^ w

/-- Bit `i` of a number. -/
def bit (x i : Nat) : Bool := x.testBit i

/-- The bytes of `x`, `n` of them, least significant first (R2). -/
def toBytes : Nat → Nat → List Byte
  | 0, _ => []
  | n + 1, x => BitVec.ofNat 8 x :: toBytes n (x / 256)

/-- The number whose little-endian bytes are given (R2). -/
def ofBytes : List Byte → Nat
  | [] => 0
  | b :: r => b.toNat + 256 * ofBytes r

/-- The four bytes of an instruction word, low byte first (R2). -/
def wordBytes (w : Word) : List Byte := toBytes 4 w.toNat

/-- Instruction words from bytes in address order; a trailing part of a word is dropped. -/
def wordsOf : List Byte → List Word
  | a :: b :: c :: d :: r => BitVec.ofNat 32 (ofBytes [a, b, c, d]) :: wordsOf r
  | _ => []

/-- Sign extension of a field of `w` bits to 64 bits. -/
def sx64 {w : Nat} (x : BitVec w) : BitVec 64 := x.signExtend 64

/-- The two's complement value of the low `w` bits of `x` (R159). -/
def sval (w x : Nat) : Int :=
  let y := x % 2 ^ w
  if y < 2 ^ (w - 1) then (y : Int) else (y : Int) - (2 ^ w : Nat)

/-- An integer reduced modulo 2^w (R159). -/
def wrap (w : Nat) (x : Int) : Nat := (x % (2 ^ w : Nat)).toNat

/-- Sub-element `s` of width `w` of a 64-bit register (R180). -/
def sube (w s : Nat) (x : BitVec 64) : Nat := fld x.toNat (w * s) w

/-- A 64-bit register from its sub-elements of width `w`, sub-element 0 first (R180). -/
def packNat (w : Nat) : List Nat → Nat
  | [] => 0
  | x :: r => x % 2 ^ w + 2 ^ w * packNat w r

/-- A 64-bit register from its sub-elements (R180). -/
def pack (w : Nat) (l : List Nat) : BitVec 64 := BitVec.ofNat 64 (packNat w l)

/-- The lanes of a set in ascending order. -/
def lanesOf (m : LaneSet) : List Nat := (List.range 32).filter fun l => m.toNat.testBit l

/-- Whether lane `l` is in the set. -/
def inSet (m : LaneSet) (l : Nat) : Bool := m.toNat.testBit l

/-- The set of the lanes that satisfy `p`. -/
def laneSet (p : Nat → Bool) : LaneSet :=
  BitVec.ofNat 32 ((List.range 32).foldl (fun a l => if p l then a + 2 ^ l else a) 0)

/-- The 32 lanes. -/
def lanes32 : List Nat := List.range 32

/-- The number of set bits among the low `n` bits. -/
def popc (n x : Nat) : Nat := ((List.range n).filter fun i => x.testBit i).length

/-- The index of the lowest set bit among the low `n` bits, or `n`. -/
def ctz (n x : Nat) : Nat := ((List.range n).find? fun i => x.testBit i).getD n

/-- The number of leading zero bits of a value of `w` bits. -/
def clz (w x : Nat) : Nat := if x % 2 ^ w = 0 then w else w - 1 - (x % 2 ^ w).log2

end Sys2Proof.Bits
end

