-- ==== Sys2Proof/Config.lean ====
section
/-! DEFINITION. What the KX880 fixes (00_scope.md Table 0.1 and the constants its rules state), and the free values: the
constants without a body that stand for what the manual leaves open. Each free value is applied to the counter
`State.tick`, which a step that takes a free value advances; nothing can be proved of its value. -/

namespace Sys2Proof.Config

/-- Cores of the device (Table 0.1). -/
abbrev cores : Nat := 192
/-- Issue ports of a core (Table 0.1). -/
abbrev ports : Nat := 4
/-- Group slots of an issue port (Table 0.1). -/
abbrev slots : Nat := 16
/-- Register blocks of a port's file (06_registers_and_scratchpad.md R140). -/
abbrev poolBlocks : Nat := 256
/-- Longest run in instructions (R352). -/
abbrev runLimit : Nat := 24
/-- Bytes of a core's scratchpad (R149). -/
abbrev spadBytes : Nat := 0x80000
/-- First address of the swizzle window (R46). -/
abbrev windowBase : Nat := 0x8000000000000000
/-- First address past the swizzle window (R46). -/
abbrev windowEnd : Nat := 0x8100000000000000
/-- End of HBM (Table 4.1). -/
abbrev hbmEnd : Nat := 0x8000000000
/-- First far-tier address (Table 4.1). -/
abbrev farBase : Nat := 0x20000000000
/-- End of the far tier (Table 4.1). -/
abbrev farEnd : Nat := 0x40000000000
/-- The page ownership table and the carve-out's first byte (Table 4.1, R83). -/
abbrev potBase : Nat := 0x7FF4000000
/-- The cleared bitmap (R94). -/
abbrev clearedBase : Nat := 0x7FFE000000
/-- Cycles without a path after which a remote request fails (R287). -/
abbrev pathLimit : Nat := 0x400000
/-- Cycles between probes of a blocked sub-group (R391). -/
abbrev probeCycles : Nat := 0x100000
/-- Reference cycles of one millisecond (R341, R412). -/
abbrev msCycles : Nat := 2400000
/-- Entries of the device error log (R418). -/
abbrev logEntries : Nat := 4096
/-- Search: largest size of the visited set (R246). -/
abbrev visitLimit : Nat := 8192

/-- A free choice between two outcomes that the manual both allows (R82, R112, R287): log entry 4. -/
opaque freeBit : Nat → Bool

/-- A free choice of a number below a bound the rule states (a replaced cache line, R88): log entry 4. -/
opaque freeNat : Nat → Nat

/-- A 64-bit value that the manual does not state (a trap register whose contents no rule gives), by the counter and an
index: log entry 4. -/
opaque freeReg : Nat → Nat → BitVec 64

/-- SHA-384 over the bytes of a meter-chain link or of a measured block (R412): the digest is a free value, log
entry 13. -/
opaque sha384 : List Byte → BitVec 384

/-- The identity public key derived from the SRAM physically unclonable function at a boot (R412, R414): a free value,
log entry 13. -/
opaque identityKey : Nat → List Byte

/-- Field `i` of the connection descriptor that a NETCONN finds at an address, by the counter: the manual gives the descriptor
no layout, so its fields are free values, log entry 23. -/
opaque connField : Nat → BitVec 64 → Nat → Nat

/-- The digest of the mask ROM (R412), which the manual does not state: log entry 13. -/
opaque romDigest : BitVec 384

/-- An ECDSA P-384 signature under an identity key (R412): a free value, log entry 13. -/
opaque sign : List Byte → List Byte → List Byte

/-- Byte `k` of the ciphertext and tag that AES-256-GCM gives a flit of a link's direction: link id, direction, key generation, 96-bit
IV, header and payload (R294 to R296): a free value, log entry 12. -/
opaque gcmByte : Nat → Bool → Nat → Nat → List Byte → List Byte → Nat → Byte

/-- Byte `k` of the tag that AES-256-GCM gives a network packet of a connection: connection id, PSN, header and payload (R300): a free
value, log entry 12. -/
opaque netTagByte : Nat → Nat → List Byte → List Byte → Nat → Byte

/-- The Ethernet, IP and UDP headers of a frame but for its UDP destination port, by connection id, the peer's address and PSN (R300). The
manual leaves their layout to those standards and states none of their other fields: a free value, log entry 23. -/
opaque frameHead : Nat → BitVec 128 → Nat → List Byte

end Sys2Proof.Config
end

