-- ==== Sys2Proof/Machine/Sparse.lean ====
section
/-! DEFINITION. Sparse contents by key, in one canonical form: keys strictly rising and no entry equal to zero, which is
what an unlisted key reads as. Memory (06, 04 Table 4.1), scratchpads and register files are held so; for `w = 8` the
pairs are `Host.Cell`. -/

namespace Sys2Proof.Machine

/-- A sparse content: listed pairs of key and value; an unlisted key reads as zero. -/
abbrev Sparse (w : Nat) := List (Nat × BitVec w)

/-- Memory: sparse bytes by address. -/
abbrev Memory := List Host.Cell

/-- The value at a key. -/
def sget {w : Nat} : Sparse w → Nat → BitVec w
  | [], _ => 0#w
  | (k, v) :: r, a => if k = a then v else sget r a

/-- The pairs that values written from key `a` on need: zeros are not listed. -/
def scells {w : Nat} : Nat → List (BitVec w) → Sparse w
  | _, [] => []
  | a, v :: r => if v = 0#w then scells (a + 1) r else (a, v) :: scells (a + 1) r

/-- Write values to consecutive keys from `a` on. -/
def sput {w : Nat} (m : Sparse w) (a : Nat) (vs : List (BitVec w)) : Sparse w :=
  m.filter (fun p => decide (p.1 < a)) ++ scells a vs ++ m.filter (fun p => decide (a + vs.length ≤ p.1))

/-- Write one value. -/
def sset {w : Nat} (m : Sparse w) (a : Nat) (v : BitVec w) : Sparse w := sput m a [v]

/-- Clear `n` keys from `a` on. -/
def sclear {w : Nat} (m : Sparse w) (a n : Nat) : Sparse w :=
  m.filter (fun p => decide (p.1 < a)) ++ m.filter (fun p => decide (a + n ≤ p.1))

/-- The values of `n` consecutive keys from `a` on. -/
def sread {w : Nat} (m : Sparse w) (a n : Nat) : List (BitVec w) :=
  let m' := m.filter fun p => decide (a ≤ p.1) && decide (p.1 < a + n)
  (List.range n).map fun i => sget m' (a + i)

/-- The canonical form: keys strictly rising, no listed zero. -/
def sparseWf {w : Nat} : Sparse w → Bool
  | [] => true
  | (_, v) :: [] => decide (v ≠ 0#w)
  | (k, v) :: (k', v') :: r => decide (v ≠ 0#w) && decide (k < k') && sparseWf ((k', v') :: r)

/-- The canonical form of memory. -/
def Memory.wf (m : Memory) : Bool := sparseWf m

end Sys2Proof.Machine
end

