-- ==== Sys2Proof/Syntax.lean ====
section
/-! DEFINITION. The syntax of Garxia instructions and of the KX880's steps: one constructor of `Instr` per row of
spec/opcode_table.json. Instruction rows carry the fields of their word format (02_instruction_words.md Tables 2.3 to
2.14, 2.17); rows that are steps of an engine, of the scheduler, of a link or of the host carry the names of the units
they concern and the data they bring in from outside the device. -/

namespace Sys2Proof

/-- Fields of a prefix word (Table 2.13, Table 2.14); `rsv` are the reserved bits [14:0] of R30. -/
structure FmtP where
  rb  : Bool
  nw  : Bool
  rnd : BitVec 3
  sat : Bool
  sub : BitVec 2
  nf  : Bool
  rsv : BitVec 15
deriving DecidableEq, Repr

/-- Fields of format S (Table 2.4). -/
structure FmtS where
  rb : Bool
  nw : Bool
  d  : BitVec 6
  a  : BitVec 7
  b  : BitVec 7
deriving DecidableEq, Repr

/-- Fields of format B (Table 2.11a) but for COND, which the constructor fixes. -/
structure FmtB where
  rb  : Bool
  nw  : Bool
  k   : BitVec 3
  off : BitVec 18
deriving DecidableEq, Repr

/-- One slot of a pair (R38): OP, D, A, B, T. -/
structure PairSlot where
  op : BitVec 6
  d  : BitVec 6
  a  : BitVec 7
  b  : BitVec 7
  t  : Bool
deriving DecidableEq, Repr

/-- Fields of format D, a pair (Table 2.17, R38). -/
structure FmtD where
  rb : Bool
  nw : Bool
  x  : PairSlot
  y  : PairSlot
deriving DecidableEq, Repr

/-- Fields of format M (Table 2.7) but for FN, which the constructor fixes. -/
structure FmtM where
  rb : Bool
  nw : Bool
  d  : BitVec 9
  a  : BitVec 10
  g  : BitVec 3
  b  : BitVec 10
  c  : BitVec 10
  ty : BitVec 4
deriving DecidableEq, Repr

/-- Fields of format W: format M and word 2 (Table 2.10). -/
structure FmtW where
  m     : FmtM
  scope : BitVec 3
  ord   : BitVec 2
  promo : Bool
  hint  : BitVec 2
  aux   : BitVec 4
  imm   : BitVec 20
deriving DecidableEq, Repr

/-- Fields of format WL: format W and a 64-bit literal (R23). -/
structure FmtWL where
  w   : FmtW
  lit : BitVec 64
deriving DecidableEq, Repr

/-- What an atomic does (Table 4.12); AINC has its two forms of AUX[0]. -/
inductive AtomOp
  | add | minS | minN | maxS | maxN | and | or | xor | xch | cas | fadd | incStop | incWrap
deriving DecidableEq, Repr

/-- What a conversation operation asks for (13_conversations.md Table 13.10). -/
inductive ConvKind
  | join | accept | send | choose | recv | poll | deleg | leave | state
deriving DecidableEq, Repr

/-- A conversation operation as a peer's group sends it to its home (R326, R332): what it asks for, the physical address of the
object's offset 0, its window base, the role, the kind, the payload words, the identity word of the group, the role register's
EPOCH, CDELEG's target and the requester's mode. -/
structure ConvReq where
  kind   : ConvKind
  pa     : Nat
  base   : BitVec 64
  role   : Nat
  mkind  : Nat
  pay    : List (BitVec 64)
  who    : BitVec 64
  epoch  : Nat
  target : BitVec 64
  priv   : Bool
deriving DecidableEq, Repr

/-- A remote request as a peer sends it to this device (12_fabric_and_network.md R285). `priv`: its requester is in privileged mode
(R84); `rel`: of a release write, the core that performs it, and `promo`: of an acquire with PROMO, the core that issues it (R275). -/
inductive FabricReq
  /-- a load of `len` bytes at device physical address `pa` -/
  | load (pa len : Nat) (priv : Bool) (promo : Option Nat)
  /-- a store of bytes at `pa` -/
  | store (pa : Nat) (bytes : List Byte) (priv : Bool) (rel : Option Nat)
  /-- an atomic of `w` bytes at `pa` with operands `b` and `c` (R104) -/
  | atomic (op : AtomOp) (pa w : Nat) (b c : BitVec 64) (priv : Bool) (rel promo : Option Nat)
  /-- MARM of the group `who` on the line of `pa` (R107) -/
  | arm (pa : Nat) (who : BitVec 64) (priv : Bool)
  /-- MWAIT of the group `who` for `w` bytes at `pa` to differ from `x` (R108) -/
  | watch (pa w : Nat) (x : BitVec 64) (who : BitVec 64) (priv : Bool)
  /-- the monitor of the group `who` is taken off -/
  | disarm (who : BitVec 64)
  /-- a promotion request to a core of this device (R275) -/
  | promote (core : Nat)
  /-- a conversation operation (R332) -/
  | conv (op : ConvReq)
  /-- the withdrawal of the conversation operation of this number (R333) -/
  | withdraw (seq : BitVec 32)
  /-- a wait-for probe of the party `ident`, blocked since a cycle, that reaches the party `who` (R334, R391) -/
  | probe (ident : BitVec 64) (since hops : Nat) (who : BitVec 64)
deriving DecidableEq, Repr

/-- A link flit as the receiver sees it (Table 12.3): the fields of its header, its payload as it decrypts, and the device that it
travels to. `auth` says whether its tag verifies under the slot `ks` names (notes/assumptions/12.md). -/
structure Flit where
  ks   : Bool
  icl  : BitVec 31
  seq  : BitVec 24
  ty   : BitVec 8
  payload : List Byte
  dest : Nat
  auth : Bool
deriving DecidableEq, Repr

/-- A data packet of a network connection as the target receives it (Table 12.5), with the port that it arrives at and the address that it
comes from. `auth`: the packet's tag verifies where one is required (R300); `ecn`: it was ECN-marked (R304). -/
structure NetPkt where
  port  : Nat
  addr  : BitVec 128
  dconn : BitVec 16
  psn   : BitVec 24
  realm : BitVec 16
  world : BitVec 4
  imm   : BitVec 32
  tva   : BitVec 64
  tbar  : BitVec 64
  mlen  : BitVec 32
  data  : List Byte
  ecn   : Bool
  auth  : Bool
deriving DecidableEq, Repr

/-- What the sender finds in the frame of an answer (R300): the connection it names, the port that it arrives at, the address that it comes
from, and whether its tag verifies, where one is required. -/
structure NetSrc where
  conn : Nat
  port : Nat
  addr : BitVec 128
  auth : Bool
deriving DecidableEq, Repr

/-- A retired Plate column named by the configuration image (R227). -/
structure RetiredCol where
  core : Nat
  bank : Bool
  col  : Nat
deriving DecidableEq, Repr

/-- The signed configuration image of module flash (R414, Table 16.8 stages 2 and 3). `signed`: its ECDSA P-384
signature verifies against the key digest in mask ROM. -/
structure ConfigImage where
  signed   : Bool
  cores    : BitVec 192
  retired  : List RetiredCol
  slices   : BitVec 32
  links    : BitVec 15
  netPorts : BitVec 8
  identity : BitVec 64
deriving DecidableEq, Repr

/-- What the boot meets outside the device's logic (Table 16.8 stages 4 and 6): which links and ports train, and which
physical pages, given as (first page index, count) ranges, the Root Engine sets SYSTEM for world 0. -/
structure Training where
  links    : BitVec 15
  netPorts : BitVec 8
  pcie     : Bool
  sysPages : List (Nat × Nat)
deriving DecidableEq, Repr

/-- Where the host reads (Table 16.1): a physical address of the CXL.mem window, or an offset among the control registers of BAR0 or the
spawn ports of BAR2. -/
inductive HostAddr
  | cxlMem (pa : Nat) | bar0 (offset : Nat) | bar2 (offset : Nat)
deriving DecidableEq, Repr

/-- What a host thread that takes a line of host memory for writing stores in it, and from which address on. -/
structure HostStore where
  addr  : BitVec 64
  bytes : List (BitVec 8)
deriving DecidableEq, Repr

/-- TDISP requests other than LOCK_INTERFACE_REQUEST that move an interface (R413). -/
inductive TdispReq
  | startInterface | stopInterface
deriving DecidableEq, Repr

/-- One constructor per row of spec/opcode_table.json: the instructions first, then the steps. -/
inductive Instr
  /-- PFX (R30): Prefix word that modifies the rounding, saturation, subnormal handling or flag updates of the one instruction that follows it. -/
  | pfx (f : FmtP)
  /-- VADD_S32_SHORT (R35): Short form of VADD.S32; executes as VINT VADD with TY 2 and guard k0. -/
  | vaddS32Short (f : FmtS)
  /-- VSUB_S32_SHORT (R35): Short form of VSUB.S32; executes as VINT VSUB with TY 2 and guard k0. -/
  | vsubS32Short (f : FmtS)
  /-- VAND_B64_SHORT (R35): Short form of VAND.B64; executes as VINT VAND with TY 15 and guard k0. -/
  | vandB64Short (f : FmtS)
  /-- VXOR_B64_SHORT (R35): Short form of VXOR.B64; executes as VINT VXOR with TY 15 and guard k0. -/
  | vxorB64Short (f : FmtS)
  /-- FADD_F32_SHORT (R35): Short form of FADD.F32; executes as VFLT FADD with TY 10. -/
  | faddF32Short (f : FmtS)
  /-- FSUB_F32_SHORT (R35): Short form of FSUB.F32; executes as VFLT FSUB with TY 10. -/
  | fsubF32Short (f : FmtS)
  /-- FMUL_F32_SHORT (R35): Short form of FMUL.F32; executes as VFLT FMUL with TY 10. -/
  | fmulF32Short (f : FmtS)
  /-- FMAX_F32_SHORT (R35): Short form of FMAX.F32; executes as VFLT FMAX with TY 10. -/
  | fmaxF32Short (f : FmtS)
  /-- FADD_F16_SHORT (R35): Short form of FADD.F16; executes as VFLT FADD with TY 8. -/
  | faddF16Short (f : FmtS)
  /-- FMUL_F16_SHORT (R35): Short form of FMUL.F16; executes as VFLT FMUL with TY 8. -/
  | fmulF16Short (f : FmtS)
  /-- FADD_BF16_SHORT (R35): Short form of FADD.BF16; executes as VFLT FADD with TY 9. -/
  | faddBf16Short (f : FmtS)
  /-- FMUL_BF16_SHORT (R35): Short form of FMUL.BF16; executes as VFLT FMUL with TY 9. -/
  | fmulBf16Short (f : FmtS)
  /-- VMOV_SHORT (R35): Short form of VMOV; executes as VINT VMOV with TY 15. -/
  | vmovShort (f : FmtS)
  /-- XBFLY_SHORT (R36): Short butterfly of whole 64-bit registers: lane l receives A of lane l XOR m, for m from 0 to 15. -/
  | xbflyShort (f : FmtS)
  /-- VSHL_B64_SHORT (R35): Short form of VSHL.B64; executes as VINT VSHL with TY 15. -/
  | vshlB64Short (f : FmtS)
  /-- NOP (R37): Takes one issue cycle and has no operand, result or effect. -/
  | nop (f : FmtS)
  /-- BR (R356): Short branch: active lanes whose bit in kK is 1 move their PC to PC + 4 x OFF; the others fall through. -/
  | br (f : FmtB)
  /-- BRN (R356): Short branch: active lanes whose bit in kK is 0 move their PC to PC + 4 x OFF; the others fall through. -/
  | brn (f : FmtB)
  /-- PAIR (R41): Paired issue of two VINT or VFLT slots in one cycle, each reading sources as they stood before the pair and delivering X then Y into the latches. -/
  | pair (f : FmtD)
  /-- VADD (R184): Adds sub-elements of A and B, wrapping or saturating under SAT. -/
  | vadd (f : FmtM)
  /-- VSUB (R184): Subtracts sub-elements of B from A, wrapping or saturating under SAT. -/
  | vsub (f : FmtM)
  /-- VMUL (R184): Multiplies sub-elements, keeping the low part or saturating. -/
  | vmul (f : FmtM)
  /-- VMULH (R184): Writes the high half floor(a x b / 2^w) of each product. -/
  | vmulh (f : FmtM)
  /-- VMAD (R184): Computes a x b + c as one exact sum, then wraps or saturates. -/
  | vmad (f : FmtM)
  /-- VMIN (R184): Writes the smaller of a and b in each sub-element. -/
  | vmin (f : FmtM)
  /-- VMAX (R184): Writes the larger of a and b in each sub-element. -/
  | vmax (f : FmtM)
  /-- VABS (R184): Writes the absolute value of each sub-element. -/
  | vabs (f : FmtM)
  /-- VNEG (R184): Writes the negation of each sub-element. -/
  | vneg (f : FmtM)
  /-- VAND (R184): Bitwise AND of A and B. -/
  | vand (f : FmtM)
  /-- VOR (R184): Bitwise OR of A and B. -/
  | vor (f : FmtM)
  /-- VXOR (R184): Bitwise XOR of A and B. -/
  | vxor (f : FmtM)
  /-- VNOT (R184): Bitwise NOT of A. -/
  | vnot (f : FmtM)
  /-- VSHL (R184): Shifts each sub-element left by B mod w. -/
  | vshl (f : FmtM)
  /-- VSHR (R184): Shifts each sub-element right by B mod w, filling with zeros. -/
  | vshr (f : FmtM)
  /-- VSAR (R184): Shifts each sub-element right by B mod w, filling with copies of its top bit. -/
  | vsar (f : FmtM)
  /-- VROT (R184): Rotates each sub-element left by B mod w. -/
  | vrot (f : FmtM)
  /-- VCLZ (R184): Counts the leading zero bits of each sub-element. -/
  | vclz (f : FmtM)
  /-- VPOPC (R184): Counts the set bits of each sub-element. -/
  | vpopc (f : FmtM)
  /-- VCMP (R186): Integer compare that writes either a lane mask or an all-ones/zero vector result. -/
  | vcmp (f : FmtM)
  /-- VSEL (R184): Selects a where c is nonzero, else b, for each sub-element. -/
  | vsel (f : FmtM)
  /-- VMOV (R183): Copies the whole 64 bits of A into the destination. -/
  | vmov (f : FmtM)
  /-- VSHF (R187): Permutes sub-elements within each lane from A and C by the indices in B. -/
  | vshf (f : FmtM)
  /-- FADD (R189): Floating-point add, rounded once under the mode as issued. -/
  | fadd (f : FmtM)
  /-- FSUB (R189): Floating-point subtract, rounded once. -/
  | fsub (f : FmtM)
  /-- FMUL (R189): Floating-point multiply, rounded once. -/
  | fmul (f : FmtM)
  /-- FFMA (R189): Fused multiply-add a x b + c with one rounding. -/
  | ffma (f : FmtM)
  /-- FFMS (R189): Fused multiply-subtract a x b - c with one rounding. -/
  | ffms (f : FmtM)
  /-- FMIN (R191): Returns the smaller operand unrounded, with the NaN and signed-zero rules of R191. -/
  | fmin (f : FmtM)
  /-- FMAX (R191): Returns the larger operand unrounded, with the NaN and signed-zero rules of R191. -/
  | fmax (f : FmtM)
  /-- FABS (R190): Clears the sign bit of each sub-element, raising no flag. -/
  | fabs (f : FmtM)
  /-- FNEG (R190): Inverts the sign bit of each sub-element, raising no flag. -/
  | fneg (f : FmtM)
  /-- FCMP (R192): Floating-point compare in mask or vector form, including the UN and OR conditions. -/
  | fcmp (f : FmtM)
  /-- FCLASS (R193): Writes the class number of each sub-element. -/
  | fclass (f : FmtM)
  /-- FROUND (R194): Rounds each sub-element to an integral value under the mode as issued. -/
  | fround (f : FmtM)
  /-- FSCALE (R194): Multiplies a by 2^n, where n is B read as an integer, with one rounding. -/
  | fscale (f : FmtM)
  /-- FDIV (R196): Correctly rounded division on the special-function unit. -/
  | fdiv (f : FmtM)
  /-- FSQRT (R196): Correctly rounded square root. -/
  | fsqrt (f : FmtM)
  /-- FRCP (R196): Reciprocal, with fixed nearest rounding for F32. -/
  | frcp (f : FmtM)
  /-- FRSQ (R196): Reciprocal square root. -/
  | frsq (f : FmtM)
  /-- FEXP2 (R196): Computes 2^a. -/
  | fexp2 (f : FmtM)
  /-- FLOG2 (R196): Computes log2 a. -/
  | flog2 (f : FmtM)
  /-- FSIN (R196): Computes sin(pi x a). -/
  | fsin (f : FmtM)
  /-- FCOS (R196): Computes cos(pi x a). -/
  | fcos (f : FmtM)
  /-- FTANH (R196): Computes tanh a. -/
  | ftanh (f : FmtM)
  /-- FSIGM (R196): Computes the logistic function 1 / (1 + e^-a). -/
  | fsigm (f : FmtM)
  /-- FACT (R200): Evaluates the group's selected activation table piecewise-linearly, raising TABLE_BOUND when no bank is selected or the bank is not READY. -/
  | fact (f : FmtM)
  /-- CVT (R173): Converts elements between two of the types with codes 0 to 13, widening or narrowing into part H. -/
  | cvt (f : FmtM)
  /-- CVTQ (R174): Converts F16, BF16 or F32 values to GQ4 codebook indices. -/
  | cvtq (f : FmtM)
  /-- CVTB (R175): Encodes 32-lane PBF blocks into a mantissa register and an exponent register. -/
  | cvtb (f : FmtM)
  /-- DQ (R176): Decodes GQ4 or PBF data to F32, F16 or BF16. -/
  | dq (f : FmtM)
  /-- VHAD (R177): Applies a 32-lane Hadamard rotation to each position, in exact or orthonormal mode. -/
  | vhad (f : FmtM)
  /-- VDITH_SET (R178): Sets FMODE.DPH to A[5:0]. -/
  | vdithSet (f : FmtM)
  /-- VDITH_ADV (R178): Advances FMODE.DPH by 17 modulo 64. -/
  | vdithAdv (f : FmtM)
  /-- XGET (R206): Gathers, for each element, the element of A indexed by B. -/
  | xget (f : FmtM)
  /-- XPUT (R208): Scatters elements of A to the places indexed by B over the merge source C. -/
  | xput (f : FmtM)
  /-- XSHFL (R206): Copies all of A from the lane that each lane's B names. -/
  | xshfl (f : FmtM)
  /-- XBFLY (R206): Each lane receives sub-element s of A from lane l XOR (B mod 32). -/
  | xbfly (f : FmtM)
  /-- XROT (R206): Rotates the elements of A across the group by a uniform B. -/
  | xrot (f : FmtM)
  /-- XBCAST (R206): Broadcasts element B of A to every active lane. -/
  | xbcast (f : FmtM)
  /-- XRED (R209): Reduces each position over the 32 lanes in fixed tree order. -/
  | xred (f : FmtM)
  /-- XSCAN (R210): Computes inclusive or exclusive prefix combinations from lane 0 upwards. -/
  | xscan (f : FmtM)
  /-- XBALLOT (R211): Writes a mask of the active lanes whose chosen sub-element is nonzero. -/
  | xballot (f : FmtM)
  /-- GMOV (R153): Copies a group-uniform value into a g register. -/
  | gmov (f : FmtM)
  /-- GADD (R153): Group-uniform add modulo 2^64. -/
  | gadd (f : FmtM)
  /-- GSUB (R153): Group-uniform subtract modulo 2^64. -/
  | gsub (f : FmtM)
  /-- GMUL (R153): Group-uniform multiply keeping the low 64 bits. -/
  | gmul (f : FmtM)
  /-- GAND (R153): Group-uniform AND. -/
  | gand (f : FmtM)
  /-- GOR (R153): Group-uniform OR. -/
  | gor (f : FmtM)
  /-- GXOR (R153): Group-uniform XOR. -/
  | gxor (f : FmtM)
  /-- GSHL (R153): Group-uniform shift left by B mod 64. -/
  | gshl (f : FmtM)
  /-- GSHR (R153): Group-uniform logical shift right. -/
  | gshr (f : FmtM)
  /-- GSAR (R153): Group-uniform arithmetic shift right. -/
  | gsar (f : FmtM)
  /-- GCMP (R153): Group-uniform compare that writes 1 or 0 by the condition in C. -/
  | gcmp (f : FmtM)
  /-- GSEL (R153): Group-uniform select of A or B by C. -/
  | gsel (f : FmtM)
  /-- VTOG (R154): Copies one lane's value of A into a g register. -/
  | vtog (f : FmtM)
  /-- GTOV (R154): Writes a group-uniform value into v_d of every active lane. -/
  | gtov (f : FmtM)
  /-- KSET (R155): Sets a mask register from the low 32 bits of A. -/
  | kset (f : FmtM)
  /-- KAND (R155): AND of two mask registers. -/
  | kand (f : FmtM)
  /-- KOR (R155): OR of two mask registers. -/
  | kor (f : FmtM)
  /-- KXOR (R155): XOR of two mask registers. -/
  | kxor (f : FmtM)
  /-- KNOT (R155): NOT of a mask register. -/
  | knot (f : FmtM)
  /-- KMOV (R155): Copies a mask register. -/
  | kmov (f : FmtM)
  /-- KPOP (R155): Counts the set bits of a mask into a g register. -/
  | kpop (f : FmtM)
  /-- KFIRST (R155): Writes the index of the lowest set bit of a mask, or 32. -/
  | kfirst (f : FmtM)
  /-- VLDI (R156): Writes a 64-bit literal into v_d of every active lane. -/
  | vldi (f : FmtWL)
  /-- GLDI (R156): Writes a 64-bit literal into a g register. -/
  | gldi (f : FmtWL)
  /-- LD (R100): Loads one to four registers per lane from device memory, with the checks of Table 4.11. -/
  | ld (f : FmtW)
  /-- ST (R100): Stores one to four registers per lane to device memory. -/
  | st (f : FmtW)
  /-- LDS (R151): Loads from the team's scratchpad, parking on absent chunks. -/
  | lds (f : FmtW)
  /-- STS (R151): Stores into the team's scratchpad. -/
  | sts (f : FmtW)
  /-- PFTCH (R101): Asks that the blocks holding each lane's bytes be brought into the LLC, dropping failing lanes silently. -/
  | pftch (f : FmtW)
  /-- CFLUSH (R102): Removes a line from the L1 and, at .sys, writes it back and optionally invalidates it in the LLC. -/
  | cflush (f : FmtW)
  /-- AADD (R104): Atomic add at the owning slice, returning the old value. -/
  | aadd (f : FmtW)
  /-- AMIN (R104): Atomic minimum. -/
  | amin (f : FmtW)
  /-- AMAX (R104): Atomic maximum. -/
  | amax (f : FmtW)
  /-- AAND (R104): Atomic AND. -/
  | aand (f : FmtW)
  /-- AOR (R104): Atomic OR. -/
  | aor (f : FmtW)
  /-- AXOR (R104): Atomic XOR. -/
  | axor (f : FmtW)
  /-- AXCH (R104): Atomic exchange. -/
  | axch (f : FmtW)
  /-- ACAS (R104): Atomic compare-and-swap. -/
  | acas (f : FmtW)
  /-- AFADD (R105): Atomic floating add, rounded to nearest even. -/
  | afadd (f : FmtW)
  /-- AINC (R104): Atomic bounded or wrapping increment against B. -/
  | ainc (f : FmtW)
  /-- FENCE (R282): Completes every earlier access of the sub-group's lanes at its scope before any later one. -/
  | fence (f : FmtW)
  /-- MARM (R107): Sets the group's monitor on a 128-byte line. -/
  | marm (f : FmtW)
  /-- MWAIT (R108): Compares a word with B and arms the monitor indivisibly, parking until a wake event when they are equal. -/
  | mwait (f : FmtW)
  /-- TBAR (R367): Arrives at the team barrier, releasing at its scope and parking until every group has arrived. -/
  | tbar (f : FmtW)
  /-- RBAR (R367): Arrives at the role barrier of the issuer's role. -/
  | rbar (f : FmtW)
  /-- LDP (R67): Loads a 16-byte pointer slot and swizzles its long name into a window address. -/
  | ldp (f : FmtW)
  /-- STP (R67): Unswizzles a pointer into a long name and stores it into a 16-byte slot. -/
  | stp (f : FmtW)
  /-- PADD (R67): Pointer add modulo 2^64 that never traps. -/
  | padd (f : FmtW)
  /-- PSUB (R68): Pointer difference modulo 2^64. -/
  | psub (f : FmtW)
  /-- PEQ (R69): Writes a mask of the lanes whose two pointers are equal. -/
  | peq (f : FmtW)
  /-- PBASE (R70): Returns the base of the window range that holds a pointer. -/
  | pbase (f : FmtW)
  /-- PSIZE (R70): Returns the size of the object behind a pointer. -/
  | psize (f : FmtW)
  /-- PNAME (R70): Writes the 128-bit long name of a pointer into v_d and v_d+1. -/
  | pname (f : FmtW)
  /-- PSWZ (R71): Swizzles a name held in registers into a direct pointer. -/
  | pswz (f : FmtW)
  /-- PHOLD (R72): Adds one to the hold count of the object behind each active lane's pointer. -/
  | phold (f : FmtW)
  /-- PDROP (R72): Subtracts one from the hold count, stopping at zero. -/
  | pdrop (f : FmtW)
  /-- KICK (R117): Submits the held ring slot to the request engine with a release at .sys, or returns QFULL. -/
  | kick (f : FmtW)
  /-- QRING (R116): Claims a general, reserve or discard ring slot and returns its offset. -/
  | qring (f : FmtW)
  /-- CBINIT (R134): Initialises a chunk barrier with its tile and chunk count. -/
  | cbinit (f : FmtW)
  /-- CBEXP (R124): Adds an expected byte count to a barrier and arms it, flipping the phase when the count is already met. -/
  | cbexp (f : FmtW)
  /-- CBARR (R134): Releases the group's earlier stores and arrives n bytes on a barrier. -/
  | cbarr (f : FmtW)
  /-- CBWAIT (R134): Parks until the barrier is unarmed or reaches the given phase, then acquires its counted bytes. -/
  | cbwait (f : FmtW)
  /-- CBWAITM (R134): Parks until the masked chunks of the barrier's tile are present, then acquires them. -/
  | cbwaitm (f : FmtW)
  /-- CBTEST (R134): Reads a barrier's low word, optionally with an acquire. -/
  | cbtest (f : FmtW)
  /-- CBERR (R134): Reads a barrier and clears its ERROR, OVERRUN and CAUSE. -/
  | cberr (f : FmtW)
  /-- ENGR (R218): Queues the engraving of a weight tile from scratchpad into the Plate's back bank. -/
  | engr (f : FmtW)
  /-- MLOOP (R220): Queues a sequence of Plate pull steps into the accumulator rows. -/
  | mloop (f : FmtW)
  /-- MDRAIN (R225): Queues a conversion of accumulator rows into scratchpad, registering as a chunk writer at issue. -/
  | mdrain (f : FmtW)
  /-- MCLR (R224): Queues the clearing of accumulator rows to +0 and VALID. -/
  | mclr (f : FmtW)
  /-- MSTAT (R235): Reads the Plate status word, optionally waiting for the queue and clearing sticky bits. -/
  | mstat (f : FmtW)
  /-- SRCH (R255): Submits a SEARCH packet to the core's search port, or returns QFULL. -/
  | srch (f : FmtW)
  /-- SCANCEL (R256): Marks the context's queries with a given TAG for cancellation and returns the number marked. -/
  | scancel (f : FmtW)
  /-- NWRI (R308): Submits a NET packet to the core's network port, or returns QFULL. -/
  | nwri (f : FmtW)
  /-- NPOLL (R309): Takes one entry from a notify ring, optionally parking until one arrives. -/
  | npoll (f : FmtW)
  /-- FERRQ (R310): Moves the oldest error-queue record into scratchpad and returns the record count. -/
  | ferrq (f : FmtW)
  /-- CJOIN (R325): Takes a free role of a conversation, validating the image on first use. -/
  | cjoin (f : FmtW)
  /-- CSEND (R326): Sends a message for evaluation by the Bellwether and parks until the answer. -/
  | csend (f : FmtW)
  /-- CCHOOSE (R326): Takes a choice transition that notifies the roles in its NOTIFY mask. -/
  | cchoose (f : FmtW)
  /-- CRECV (R327): Takes the oldest message of the role's mailbox, parking while it is empty. -/
  | crecv (f : FmtW)
  /-- CPOLL (R327): Takes the oldest message of the role's mailbox, or returns 0. -/
  | cpoll (f : FmtW)
  /-- CDELEG (R328): Hands a role to a target identity, making the role DELEGATING. -/
  | cdeleg (f : FmtW)
  /-- CACCEPT (R325): Accepts a role delegated to the issuer. -/
  | caccept (f : FmtW)
  /-- CLEAVE (R329): Frees a held role and clears the role register. -/
  | cleave (f : FmtW)
  /-- CSTATE (R330): Reads a conversation's status word from the Bellwether. -/
  | cstate (f : FmtW)
  /-- CSTATE_SELF (R330): Returns the issuing group's identity word. -/
  | cstateSelf (f : FmtW)
  /-- BRA (R358): Unconditional branch of the active lanes. -/
  | bra (f : FmtW)
  /-- BRC (R358): Branches the active lanes by whether A is zero. -/
  | brc (f : FmtW)
  /-- CALL (R358): Writes the return PC to v_d and branches. -/
  | call (f : FmtW)
  /-- RET (R358): Branches each active lane to the address in A. -/
  | ret (f : FmtW)
  /-- JMPI (R358): Branches each active lane to A plus an addend. -/
  | jmpi (f : FmtW)
  /-- EXIT (R358): Moves the active lanes to EXITED. -/
  | exit (f : FmtW)
  /-- SPAWN (R359): Copies a spawn record from scratchpad into the context's launch queue, or returns QFULL. -/
  | spawn (f : FmtW)
  /-- YIELD (R360): Parks the sub-group for the group's next n turns. -/
  | yield (f : FmtW)
  /-- IDEM (R361): Starts a new idempotent region at the next instruction. -/
  | idem (f : FmtW)
  /-- JENR (R364): Enrols the masked active lanes in a rejoin register. -/
  | jenr (f : FmtM)
  /-- JWAIT (R364): Arrives at a rejoin register, parking until every enrolled lane has arrived. -/
  | jwait (f : FmtM)
  /-- JSTRK (R364): Removes the active lanes from a rejoin register and releases it if it becomes empty. -/
  | jstrk (f : FmtM)
  /-- JCLR (R364): Clears a rejoin register and releases its parked lanes. -/
  | jclr (f : FmtM)
  /-- GROW (R143): Enlarges the group's register budget, parking in the port's queue when blocks are short. -/
  | grow (f : FmtM)
  /-- SHRK (R143): Reduces the register budget, returns blocks to the pool and grants waiting GROWs. -/
  | shrk (f : FmtM)
  /-- ATLOAD (R202): Starts loading an activation table image from scratchpad into a bank. -/
  | atload (f : FmtM)
  /-- ATSEL (R203): Selects activation bank 0, bank 1 or none for the group. -/
  | atsel (f : FmtM)
  /-- MODE (R171): Writes FMODE.RM and FMODE.SUBN from the group's next run. -/
  | mode (f : FmtM)
  /-- MODER (R171): Reads FMODE into a g register. -/
  | moder (f : FmtM)
  /-- TRAP (R393): Raises SOFTWARE_TRAP for the active lanes. -/
  | trap (f : FmtW)
  /-- BKPT (R393): Raises BREAKPOINT for the active lanes. -/
  | bkpt (f : FmtW)
  /-- ECALL (R393): Posts a call entry to the fault queue and traps the sub-group for a service. -/
  | ecall (f : FmtW)
  /-- TRET_RETRY (R394): Returns the handler's active lanes to READY at TPC. -/
  | tretRetry (f : FmtW)
  /-- TRET_SKIP (R394): Returns the handler's active lanes to resume past the instruction at TPC. -/
  | tretSkip (f : FmtW)
  /-- TRET_EXIT (R394): Returns the handler's active lanes as EXITED. -/
  | tretExit (f : FmtW)
  /-- TRET_SAVE (R387): Marks the handler's active lanes as saved, freeing the group once every lane is marked. -/
  | tretSave (f : FmtW)
  /-- CSRD (R395): Reads a control register into a vector or g register. -/
  | csrd (f : FmtW)
  /-- CSWR (R395): Writes a control register, with the access codes of Table 6.2. -/
  | cswr (f : FmtW)
  /-- TLBINV_PAGE (R397): Invalidates the leaf holding an address in one ASID in every TLB and Swizzle Unit cache. -/
  | tlbinvPage (f : FmtW)
  /-- TLBINV_ASID (R397): Invalidates every TLB entry of one ASID. -/
  | tlbinvAsid (f : FmtW)
  /-- TLBINV_ALL (R397): Invalidates every TLB entry of the device. -/
  | tlbinvAll (f : FmtW)
  /-- POTSET (R398): Writes a page ownership entry and parks until earlier accesses finish and the page's LLC lines are flushed. -/
  | potset (f : FmtW)
  /-- HALT (R399): Marks a named resident group for a halt at its next turn boundary. -/
  | halt (f : FmtW)
  /-- TSTATE_RD (R396): Reads one item of the group's hidden state. -/
  | tstateRd (f : FmtW)
  /-- TSTATE_WR (R396): Writes one item of the group's hidden state. -/
  | tstateWr (f : FmtW)
  /-- LRESUME_REPLAY (R400): Releases at .sys, signals waiting engines of the ASID, and makes the named REPLAYING lanes READY at their restart PC. -/
  | lresumeReplay (f : FmtW)
  /-- LRESUME_RETRY (R400): Makes the named TRAPPED lanes READY at TPC, after the release and engine signal. -/
  | lresumeRetry (f : FmtW)
  /-- LRESUME_SKIP (R400): Makes the named TRAPPED lanes READY past the instruction at TPC. -/
  | lresumeSkip (f : FmtW)
  /-- LRESUME_KILL (R400): Moves the named TRAPPED and REPLAYING lanes to EXITED, writing one error record for each. -/
  | lresumeKill (f : FmtW)
  /-- LRESUME_RUN (R400): Takes the named group out of HALTED. -/
  | lresumeRun (f : FmtW)
  /-- RESERVED_MAJOR (R28): An issued first word with a reserved major, an unlisted minor or a LEN that differs from its major's raises ILLEGAL_INSTRUCTION for the sub-group. -/
  | reservedMajor (w0 : Word) (rest : List Word)
  /-- BARREL_TURN (R348): A port's rotation reaches a slot, chooses the lowest-PC qualifying sub-group and runs one run, or spends an empty cycle. -/
  | barrelTurn (core : Nat) (port : Nat)
  /-- RUN_FETCH (R350): The port fetches a run into the run buffer, stopping at a word whose execute check fails. -/
  | runFetch (core : Nat) (port : Nat) (slot : Nat)
  /-- RESULT_ARRIVAL (R347): A long-latency result arrives and makes LATE lanes READY or ends a port stall. -/
  | resultArrival (core : Nat) (port : Nat) (slot : Nat) (idx : Nat)
  /-- YIELD_COUNT_EXPIRY (R360): After n turns of the group, the lanes parked at YIELD become READY. -/
  | yieldCountExpiry (core : Nat) (port : Nat) (slot : Nat)
  /-- TEAM_END (R345): After its last group exits and its accesses and engine work complete, the team frees its allocation and decrements JOIN. -/
  | teamEnd (team : Nat)
  /-- RECORD_ACCEPT (R340): The scheduler gives the head record a grid sequence number and resolves its ENTRY, discarding it on a failure. -/
  | recordAccept (queue : Nat)
  /-- SAVE_REQUEST (R385): Once a team's engine work is finished, SAVE_REQUEST is sent to its groups and their waits are withdrawn. -/
  | saveRequest (team : Nat)
  /-- TEAM_SAVED (R387): When every group is saved or exited and the team's accesses are complete, the team's allocation is freed. -/
  | teamSaved (team : Nat)
  /-- FENCE_COMPLETE (R282): Every access that the fence orders has completed at its scope, and later accesses may proceed. -/
  | fenceComplete (core : Nat) (port : Nat) (slot : Nat)
  /-- TLBINV_COMPLETE (R397): Every walk in flight has finished without installing its result, and the parked TLBINV completes. -/
  | tlbinvComplete (core : Nat) (port : Nat) (slot : Nat)
  /-- POTSET_COMPLETE (R85): The old-world accesses to the page have finished and its LLC lines are written back, so POTSET completes. -/
  | potsetComplete (core : Nat) (port : Nat) (slot : Nat)
  /-- RING_SLOT_READ (R118): The request engine reads a SUBMITTED ring slot into its internal queue when there is room, freeing the slot. -/
  | ringSlotRead (core : Nat)
  /-- SHARED_QUEUE_SLOT_READ (R120): The engine acquires the packet at RDIDX once its KIND is nonzero, zeroes the header and advances RDIDX. -/
  | sharedQueueSlotRead (queue : Nat)
  /-- COPY (R111): The request engine validates and starts a COPY packet. -/
  | copy (core : Nat)
  /-- COPY3D (R112): The request engine validates and starts a strided three-dimensional copy. -/
  | copy3d (core : Nat)
  /-- FILL (R111): The request engine validates and starts a pattern fill. -/
  | fill (core : Nat)
  /-- SPAWN_PACKET (R339): The engine reads a spawn record named by a queue packet and enqueues it in the bound launch queue. -/
  | spawnPacket (core : Nat)
  /-- PIECE_ARRIVAL (R113): A piece of at most 512 bytes is written, counted on the barrier and the chunk's writer count updated. -/
  | pieceArrival (core : Nat) (idx : Nat) (start : Nat) (len : Nat)
  /-- ENGRAVE_START (R218): Once every earlier ENGR has swapped, the engrave reads its image and starts writing the back bank. -/
  | engraveStart (core : Nat)
  /-- ENGRAVE_COMPLETE (R215): After 1,024 cycles the back bank holds the tile and its spare columns. -/
  | engraveComplete (core : Nat)
  /-- BANK_SWAP (R215): When the engrave is complete and the MLOOPs queued before it have finished, the banks swap. -/
  | bankSwap (core : Nat)
  /-- MLOOP_STEP (R221): The sequencer pulls four activation rows through the front bank and adds the rounded column results into the accumulator rows. -/
  | mloopStep (core : Nat) (mismatch : Option Nat)
  /-- MDRAIN_EXECUTE (R225): The sequencer converts accumulator rows into scratchpad and counts the bytes on the barrier. -/
  | mdrainExecute (core : Nat)
  /-- MCLR_EXECUTE (R224): The sequencer sets the named accumulator rows to +0 and VALID. -/
  | mclrExecute (core : Nat)
  /-- ATLOAD_COMPLETE (R201): The table's last byte is written, the bank becomes READY, and the loader and any selector parked on it wake. -/
  | atloadComplete (core : Nat) (bank : Nat)
  /-- SEARCH_PORT_FORWARD (R255): The core's search port forwards a packet to the owner Sheepdog. -/
  | searchPortForward (core : Nat)
  /-- SEARCH_ARRIVAL (R237): A query reaches its owner Sheepdog and enters the admission queue. -/
  | searchArrival (dog : Nat)
  /-- SEARCH_ACCEPT (R243): A query takes a context, resolves GRAPH, reads the header and the query vector, and issues its first distance. -/
  | searchAccept (dog : Nat)
  /-- NEIGHBOUR_LIST_REPLY (R247): A neighbour list read from its stack reaches the owner, which sends distance requests for the new ids. -/
  | neighbourListReply (dog : Nat) (query : Nat)
  /-- DISTANCE_REQUEST (R247): A Sheepdog computes the distance of a node whose vector its stack holds and returns it. -/
  | distanceRequest (dog : Nat) (query : Nat)
  /-- DISTANCE_ANSWER (R246): The owner merges a distance in list order and, when the expansion is complete, starts the next one or ends the query. -/
  | distanceAnswer (dog : Nat) (query : Nat)
  /-- SCANCEL_MARK_ARRIVAL (R256): A SCANCEL mark reaches a Sheepdog, which marks the matching queries and answers. -/
  | scancelMarkArrival (dog : Nat)
  /-- SCANCEL_ANSWER (R256): A Sheepdog's answer reaches SCANCEL, which completes after all eight have answered. -/
  | scancelAnswer (dog : Nat) (core : Nat) (port : Nat) (slot : Nat)
  /-- BELLWETHER_OPERATION (R318): The Bellwether evaluates a conversation operation against the shared state and answers it. -/
  | bellwetherOperation (idx : Nat)
  /-- HELD_OPERATION_ACCEPT (R318): Mailbox space appears and a held send is accepted exactly as evaluated. -/
  | heldOperationAccept (idx : Nat)
  /-- NET_PACKET (R306): The network port reads a NET packet's source and sends the NWRI as data packets on its connection. -/
  | netPacket (core : Nat)
  /-- FAULT_QUEUE_POST (R379): The device claims a fault-queue slot, writes the entry and publishes its valid word, merging under R380, once the ring has space. -/
  | faultQueuePost
  /-- TEAM_PLACEMENT (R342): The scheduler places the chosen queue's next team whole on the first core that fits, and the groups start. -/
  | teamPlacement
  /-- QUEUE_AGING (R341): Each full 1 ms without a placement raises a queue's level, then makes it PINNED. -/
  | queueAging (queue : Nat)
  /-- SLICE_EXPIRY (R406): A context's time slice elapses while another context of its world cannot be placed, producing a pre-emption request. -/
  | sliceExpiry (ctx : Nat)
  /-- PREEMPT_T1_EXPIRY (R384): The drain deadline expires; stage 2 assigns save records, writes their headers and drains the teams' engine work. -/
  | preemptT1Expiry (ctx : Nat)
  /-- PREEMPT_T2_EXPIRY (R384): The save deadline expires and the context goes to forced reset. -/
  | preemptT2Expiry (ctx : Nat)
  /-- PROBE_TIMER (R391): Every 2^20 cycles that a sub-group stays blocked, it sends a wait-for probe. -/
  | probeTimer (core : Nat) (port : Nat) (slot : Nat) (lane : Nat)
  /-- PROBE_HOP (R391): A probe reaches a blocked unit, which drops it, forwards it along its edges, or raises DEADLOCK when the probe has returned to its origin. -/
  | probeHop (idx : Nat)
  /-- PAGE_WALK_COMPLETE (R81): A page walk ends with a translation or a cause for every joined access, and the next queued miss starts. -/
  | pageWalkComplete (asid : BitVec 16) (va : BitVec 64)
  /-- MWAIT_TIMEOUT (R109): A parked MWAIT's timeout expires and it rereads the word. -/
  | mwaitTimeout (core : Nat) (port : Nat) (slot : Nat)
  /-- SCRUB_TICK (R95): Each second, the scrubber computes its shortfall and moves its escalation level one step. -/
  | scrubTick (tier : Nat)
  /-- SCRUB_LINE (R95): The scrubber reads a 64-byte line, writes corrections back and logs uncorrectable lines. -/
  | scrubLine (tier : Nat)
  /-- BELLWETHER_WITHDRAWAL (R333): A withdrawal reaches the Bellwether and drops an operation that is still unanswered. -/
  | bellwetherWithdrawal (idx : Nat)
  /-- INCOMING_FABRIC_REQUEST (R285): The home device checks and performs a remote request in source order, or refuses it. -/
  | incomingFabricRequest (src : Nat) (world : Nat) (seq : BitVec 32) (req : FabricReq)
  /-- REMOTE_RESPONSE (R287): A remote request's response returns and completes or fails the access. -/
  | remoteResponse (idx : Nat)
  /-- REMOTE_PATH_LIMIT (R287): 2^22 cycles pass without a path to the home, failing the waiting requests and waits. -/
  | remotePathLimit (idx : Nat)
  /-- LINK_DOWN (R292): A link fails or its peer resets, and traffic for the peer switches to a detour. -/
  | linkDown (peer : Nat) (reset : Bool)
  /-- LINK_UP (R293): A direct link returns and traffic drains back to it. -/
  | linkUp (peer : Nat)
  /-- DATA (R297): A DATA flit is authenticated and accepted in order, or discarded with a NAK. -/
  | data (peer : Nat) (flit : Flit)
  /-- ACK (R297): A cumulative ACK frees acknowledged flits from the retry buffer. -/
  | ack (peer : Nat) (flit : Flit)
  /-- NAK (R297): A NAK makes the sender resend from the named SEQ. -/
  | nak (peer : Nat) (flit : Flit)
  /-- KEYSWITCH (R296): The receiver accepts a KEYSWITCH in sequence, erases the old slot and loads the next key generation. -/
  | keyswitch (peer : Nat) (flit : Flit)
  /-- IDLE (R297): An IDLE flit is authenticated or discarded. -/
  | idle (peer : Nat) (flit : Flit)
  /-- REKEY_SWITCH (R296): A key slot's invocation count reaches its limit, so the sender switches slot and sends a KEYSWITCH. -/
  | rekeySwitch (peer : Nat)
  /-- LINK_AUTH_FAILURE_LIMIT (R299): Eight consecutive authentication failures of one SEQ take the link down and erase its keys. -/
  | linkAuthFailureLimit (peer : Nat)
  /-- NWRI_MIDDLE (R301): The target checks a middle data packet, writes it and counts it on TBAR, or NAKs it. -/
  | nwriMiddle (pkt : NetPkt)
  /-- NWRI_LAST (R302): The target checks, writes and counts the last packet, then deposits the notify entry. -/
  | nwriLast (pkt : NetPkt)
  /-- NET_ACK (R304): An ACK at the sender adjusts cwnd and counts acknowledged bytes on the local barrier. -/
  | netAck (frame : NetSrc) (psn : BitVec 24) (ece : Bool)
  /-- NET_NAK (R305): A NAK resends from its PSN, or, when it carries a cause, fails the NWRI. -/
  | netNak (frame : NetSrc) (psn : BitVec 24) (cause : BitVec 8)
  /-- RNR (R301): The target reports a full notify ring, and the sender waits before it resends. -/
  | rnr (frame : NetSrc) (psn : BitVec 24)
  /-- RNR_RETRY_TIMER (R301): 10 microseconds after an RNR, the sender resends. -/
  | rnrRetryTimer (conn : Nat)
  /-- NET_SILENCE_TIMEOUT (R304): 100 microseconds of silence trigger a go-back-N resend, and a seventh consecutive silence fails the connection. -/
  | netSilenceTimeout (conn : Nat)
  /-- NET_PORT_DOWN (R304): A network port goes down and its connections fail. -/
  | netPortDown (port : Nat)
  /-- CXL_CACHE_SNOOP (R107): A host snoop invalidates a host-memory line and wakes its monitor. The host thread that takes
  the line then stores bytes in it (log entry 55). -/
  | cxlCacheSnoop (addr : HostStore)
  /-- HOST_CXL_MEM_READ (R402): A host read of device memory is checked against page ownership and returns data, or all ones. Its reads of the
  registers of a BAR (Table 16.1) are carried by this row too (log entry 55). -/
  | hostCxlMemRead (pa : HostAddr) (len : Nat) (iface : Option Nat)
  /-- HOST_CXL_MEM_WRITE (R402): A host write to device memory is checked against page ownership and performed, or dropped and logged. -/
  | hostCxlMemWrite (pa : Nat) (bytes : List (BitVec 8)) (iface : Option Nat)
  /-- SPAWN_PORT_RECORD (R338): A naturally aligned 64-byte host store to a spawn port enqueues a record, or is dropped and counted in DROPPED. -/
  | spawnPortRecord (port : Nat) (offset : Nat) (bytes : List (BitVec 8))
  /-- CQBASE_WRITE (R404): Writes the command ring base and resets the ring indices and the completion phase when no command is in progress. -/
  | cqbaseWrite (value : BitVec 64)
  /-- CPLBASE_WRITE (R404): Sets the completion ring base, unless a command is in progress. -/
  | cplbaseWrite (value : BitVec 64)
  /-- CQTAIL (R404): Doorbell write that makes the commands up to the new tail pending. -/
  | cqtail (value : BitVec 64)
  /-- CPLHEAD_WRITE (R404): The driver reports consumed completions, allowing further commands to begin. -/
  | cplheadWrite (value : BitVec 64)
  /-- IGNORED_REGISTER_WRITE (R7): A write to a register with no behaviour of its own is ignored. -/
  | ignoredRegisterWrite (bar : Nat) (offset : Nat) (value : BitVec 64)
  /-- CTXNEW (R405): Checks a context descriptor and creates the context. -/
  | ctxnew
  /-- CTXEND (R389): Force-resets a context and removes it. -/
  | ctxend
  /-- CORESET (R403): Clears idle cores and assigns them to a world. -/
  | coreset
  /-- WAYSET (R88): Sets a world's LLC way mask in one slice, writing back the lines of ways that change hands. -/
  | wayset
  /-- LQBIND (R338): Binds a launch queue to a context and, optionally, to a spawn port. -/
  | lqbind
  /-- SHQREG (R120): Registers a shared user-mode queue. -/
  | shqreg
  /-- FLTQREG (R377): Registers a world's fault queue. -/
  | fltqreg
  /-- ERRQREG (R290): Registers a context's error queue. -/
  | errqreg
  /-- PREEMPT (R384): Starts pre-emption of a context and completes once it is saved or reset. -/
  | preempt
  /-- RESUME (R388): Rereads the descriptor and resumes a pre-empted context, placing its saved teams first. -/
  | resume
  /-- WINRESET (R59): Resets a quiescent context's swizzle window. -/
  | winreset
  /-- SCRUBSET (R95): Sets a tier's scrub pass target. -/
  | scrubset
  /-- FABSET (R284): Sets the device's fabric number and group size, then brings the links up. -/
  | fabset
  /-- NETCONN (R301): Sets up a network connection and its key. -/
  | netconn
  /-- RINGREG (R303): Registers a notify ring of a context. -/
  | ringreg
  /-- WORLDNEW (R409): Creates a world, drawing entropy for its keys, and zeroes its meters. -/
  | worldnew (failedDraws : Nat)
  /-- WORLDFREE (R410): Erases a world's keys, frees its pages and closes its meter chain. -/
  | worldfree
  /-- MODESET (R408): Records the requested mode and completes, after which the full reset begins. -/
  | modeset
  /-- MODESET_RESET (R407): Full reset that clears all on-chip state and keys, zeroes memory and reboots in the recorded mode. -/
  | modesetReset (train : Training)
  /-- LOGREAD (R418): Copies the oldest device error-log entries to the host and removes them. -/
  | logread
  /-- RESERVED_OPC (R403): A command with a reserved opcode completes BAD_PARAM with no effect. -/
  | reservedOpc
  /-- BOOT (R414): After power-good or a reset, the Root Engine runs the boot stages and starts the firmware team. -/
  | boot (train : Training)
  /-- CLOCK_STEP (R415): Each 1 ms, the arithmetic clock steps down by 100 MHz under heat or the power cap, or back up once both clear. -/
  | clockStep (temp : Nat) (power : Nat)
  /-- THERMAL_SHUTDOWN (R415): At 105 degrees C the device stops all issue, logs the event and resets. -/
  | thermalShutdown (sensor : Nat) (temp : Nat)
  /-- METER_CHAIN_EXTEND (R412): Every 1 ms, the Root Engine extends each live world's meter hash chain. -/
  | meterChainExtend
  /-- MEASUREMENTS (R412): An SPDM measurement request returns the signed chain link and meters of a world. -/
  | measurements (block : Nat)
  /-- LOCK_INTERFACE_REQUEST (R413): Locks a world's TDISP interface, or returns an error when it is not in CONFIG_UNLOCKED. -/
  | lockInterfaceRequest (world : Nat) (requester : BitVec 64)
  /-- PLDM_MONITOR_READ (R417): The management controller reads temperatures, power and BOOTSTAT. -/
  | pldmMonitorRead
  /-- POWER_CAP_SET (R415): The management controller sets a power cap from 1,200 W to 2,200 W. -/
  | powerCapSet (watts : Nat)
  /-- FIRMWARE_UPDATE_IMAGE_WRITE (R417): The management controller writes a new configuration image, which takes effect at the next boot. -/
  | firmwareUpdateImageWrite (image : ConfigImage)
  /-- PLDM_LOG_READ (R418): The management controller reads and removes device error-log entries. -/
  | pldmLogRead (count : Nat)
  /-- TDISP_INTERFACE_REQUEST (R413): A TDISP request other than LOCK_INTERFACE_REQUEST moves a world's interface between CONFIG_LOCKED, RUN and CONFIG_UNLOCKED. -/
  | tdispInterfaceRequest (world : Nat) (req : TdispReq)
deriving DecidableEq, Repr

end Sys2Proof
end

