-- ==== Sys2Proof/Machine/State.lean ====
section
/-! DEFINITION. The state of the KX880 as plain data: every register, table, queue and engine state that the chapters
name (INVENTORY.md, State, lists them with the rule of each), what a step may stop with, and the state after reset. -/

namespace Sys2Proof.Machine

/-! ## Faults and refusals -/

/-- Why the machine stops with a fault. -/
inductive Fault
  /-- Raised by a step whose operands name a unit that the device does not have (Table 0.1: a core above 191, a slot
  that holds no group, a context number that was never given out). Safe: the hardware has no such step. -/
  | noSuchUnit
  /-- Raised by an instruction that is asked for while no port is issuing (`State.turn` is none). Safe: on the device an
  instruction is only ever issued by a port whose turn it is (R349). -/
  | noIssuingRun
deriving DecidableEq, Repr

/-- Why the machine has no meaning for an instruction. -/
inductive Refusal
  /-- The instruction has no meaning in this model yet; raised by its arm of `exec`. Safe: nothing is claimed of it. -/
  | notModelled (mnemonic : String)
deriving DecidableEq, Repr

/-! ## Lanes and groups -/

/-- Where CBWAIT takes the phase that it waits for: a g register, which each look at the barrier reads anew (R134), or a constant. -/
inductive PhaseSrc
  | reg (g : Nat)
  | const (b : Bool)
deriving DecidableEq, Repr

/-- What a parked lane waits for (Table 14.4 "an instruction that parks", Table 15.9). -/
inductive Wait
  /-- CBWAIT on the barrier at this scratchpad offset, or, with its memory location (`locKey`), at this device virtual
  address: until its phase is that of `phase`, or, without one, until it is not armed (R134) -/
  | barrier (addr : Nat) (loc : Option Nat) (phase : Option PhaseSrc)
  /-- CBWAITM on the barrier at this scratchpad offset, for the chunks of `mask` from `first` on (R134) -/
  | barrierMask (addr mask first : Nat)
  /-- absent chunks of the scratchpad (R128, R202, R359) -/
  | chunks
  /-- a parked MWAIT (R108) -/
  | monitor
  /-- JWAIT on j register `j` (R364) -/
  | rejoin (j : Nat)
  /-- TBAR at a scope code (R367) -/
  | tbar (scope : Nat)
  /-- RBAR at a scope code (R367) -/
  | rbar (scope : Nat)
  /-- YIELD, with the turns still to end, its own turn included (R360) -/
  | turns (n : Nat)
  /-- a parked GROW (R143) -/
  | grow
  /-- a full Plate queue (R216) -/
  | plateQueue
  /-- MSTAT with WAIT: the sequencer entries queued before place `place` (R232) -/
  | plateIdle (place : Nat)
  /-- NPOLL with WAIT on ring `r` (R309) -/
  | ring (r : Nat)
  /-- SCANCEL waiting for answers (R256) -/
  | scancel
  /-- ATLOAD (R202) -/
  | bank (b : Nat)
  /-- ATSEL of a LOADING bank (R201, R203) -/
  | select (b : Nat)
  /-- the answer of a Bellwether (R326) -/
  | conv
  /-- CRECV waiting for a message (R327) to a role of the conversation at a location (`locKey` of object offset 0), with its
  window base -/
  | mailbox (loc role base : Nat)
  /-- TLBINV waiting for the walks in flight (R397) -/
  | tlbinv
  /-- POTSET of the page of this number, PA ÷ 64 KiB, waiting for R85 (R398) -/
  | potset (page : Nat)
  /-- an atomic or conversation request to a peer that waits for a path or is in doubt: a park (R287) -/
  | remote
  /-- a load-class access to a peer that waits for a path or is in doubt; it is no park of Table 14.4, so its run's latches and count stay -/
  | path
deriving DecidableEq, Repr

/-- A lane's state (Table 14.4). LATE is READY with an awaited register (`Group.awaits`, R347); HALTED is the group's
`halted` flag, under which the lane keeps the state it held (R383). -/
inductive LaneState
  | ready
  | parked (w : Wait)
  /-- TRAPPED; `delivered`: the trap has been delivered to the handler or posted (R374, R376) -/
  | trapped (delivered : Bool)
  /-- REPLAYING: restarts at the PC of the PC table (R376) -/
  | replaying
  | exited
deriving DecidableEq, Repr

/-- One lane of a group: its entry of the PC table (R346) and its trap registers (Table 6.2). -/
structure Lane where
  pc      : BitVec 64
  st      : LaneState
  /-- the PC is to be moved past the instruction it names when the lane next issues (TRET.skip, R394; LRESUME.skip) -/
  skip    : Bool
  /-- the lane returns from a parked MWAIT: the next issue reads and completes (R108, R109) -/
  ret     : Bool
  /-- of the run that the lane left, while the load it issued there waits for a peer: the instructions issued, which count on when the
  load is made, and the latches, L1 first (R147, R352) -/
  kept    : Option (Nat × List (BitVec 64))
  /-- what an update of the barrier that the lane waited on showed it: 0xFF that its condition holds, or the cause to raise (R125,
  R134); 0 nothing. The next issue completes with it -/
  seen    : BitVec 8
  /-- the barrier address of the wait that has seen it, read once when the wait issued (R134) -/
  seenAt  : BitVec 64
  /-- marked by TRET.save (R387) -/
  saved   : Bool
  /-- entered the handler with SAVE_REQUEST and RESTORE clear (R394) -/
  bySave  : Bool
  /-- cycle at which the lane's blocking began (R391) -/
  since   : Nat
  tcause  : BitVec 8
  tpc     : BitVec 64
  taddr   : BitVec 64
  tinfo   : BitVec 64
  tregion : BitVec 64
deriving DecidableEq, Repr

/-- A register, or a fence, that awaits a long-latency result (R347, R282). -/
inductive AwaitReg
  | v (r : Nat)
  | g (r : Nat)
  | k (r : Nat)
  /-- completion of a FENCE at this scope code -/
  | fence (scope : Nat)
deriving DecidableEq, Repr

/-- One awaited result: the register and the lanes that await it. -/
structure Await where
  reg   : AwaitReg
  lanes : LaneSet
deriving DecidableEq, Repr

/-- A CSRD of FFLAGS whose wait for the flags of earlier instructions is not over (R169): the register that it writes, the flags that later
instructions have delivered meanwhile, the step at which it issued and the count of later instructions, by which each flag's delivery is
free, and whether its run has ended, after which no later flag comes in time. -/
structure FlagWait where
  reg  : Nat
  late : BitVec 32
  seed : Nat
  next : Nat
  shut : Bool
deriving DecidableEq, Repr

/-- A group's monitor (R107): the space of its line (0 local, 1 host, 2 + n peer n), the line's address there, the virtual
address that it was armed by, whether a write has reached it, and the cycle at which a parked MWAIT's timeout expires (0 for
none). -/
structure Monitor where
  armed    : Bool
  va       : Nat
  space    : Nat
  line     : Nat
  written  : Bool
  deadline : Nat
deriving DecidableEq, Repr

/-- A run held in the run buffer (R350): its first PC, its words, and the cause met at the word after them, if any. -/
structure FetchedRun where
  start : BitVec 64
  words : List Word
  fail  : Option (BitVec 8)
deriving DecidableEq, Repr

/-- A pending Plate error (R229). -/
structure PlateErr where
  cause : BitVec 8
  pc    : BitVec 64
  step  : Nat
deriving DecidableEq, Repr

/-- A resident group (Table 6.1, Table 6.2, R346, R350). -/
structure Group where
  gid        : BitVec 64
  /-- the team it belongs to (the model's own number) -/
  team       : Nat
  budget     : Nat
  /-- the budget of the group's next run (R142) -/
  budgetNext : Option Nat
  /-- vector registers, key 32 × register + lane -/
  v          : Sparse 64
  /-- g0–g63 -/
  g          : Sparse 64
  /-- k1–k7 by number; k0 is not stored, it reads all ones (R137) -/
  k          : Sparse 32
  /-- j0–j7 -/
  j          : Sparse 32
  /-- cv0–cv7 -/
  cv         : Sparse 64
  fmode      : BitVec 32
  /-- RM and SUBN of the group's next run, as FMODE bits (R170) -/
  fmodeNext  : Option (BitVec 32)
  fflags     : BitVec 32
  /-- CSRDs of FFLAGS that wait for flags (R169) -/
  csrd       : List FlagWait
  tmask      : BitVec 32
  trapv      : BitVec 64
  mon        : Monitor
  /-- activation bank selected by ATSEL (R203) -/
  actSel     : Option Nat
  plateErr   : Option PlateErr
  /-- a debugger halt has been taken (R383) -/
  halted     : Bool
  /-- a halt is marked for the next boundary (R399) -/
  haltReq    : Bool
  /-- a SAVE_REQUEST is pending: the save record's address (R382, R386) -/
  saveReq    : Option (BitVec 64)
  /-- ERROR_QUEUE_NONEMPTY is pending (R289) -/
  errReq     : Bool
  buf        : List FetchedRun
  awaits     : List Await
  lanes      : List Lane
deriving DecidableEq, Repr

/-! ## Ports, runs and cores -/

/-- The run that a port is issuing (R349, R351): the slot, the sub-group, the PC at which it began, the PC of the next instruction, the
count of instructions issued (R352), the latches L1–L4 (key 32 × (n − 1) + lane) with the count filled (R42), and a prefix word
that has issued and waits for its instruction (R33). -/
structure Run where
  slot   : Nat
  sub    : LaneSet
  start  : BitVec 64
  pc     : BitVec 64
  count  : Nat
  latch  : Sparse 64
  filled : Nat
  pfx    : Option FmtP
deriving DecidableEq, Repr

/-- A GROW parked in a port's queue (R143). -/
structure GrowWait where
  slot   : Nat
  lanes  : LaneSet
  target : Nat
deriving DecidableEq, Repr

/-- One issue port (R349, R350, R143). -/
structure Port where
  /-- slot the rotation reaches next -/
  rot   : Nat
  /-- free blocks of the port's register file -/
  pool  : Nat
  waitq : List GrowWait
  run   : Option Run
  /-- slot whose turn has begun and is not yet counted as over (R360) -/
  turn  : Option Nat
deriving DecidableEq, Repr

/-- Who submitted a packet or a Plate operation: the team (none for a shared queue), the context, the world, the GID
(0 for a queue), the PC (0 for a queue), the group's slot, and the PEER byte of R129 for a queue packet. -/
structure Origin where
  team  : Option Nat
  ctx   : Nat
  world : Nat
  gid   : BitVec 64
  pc    : BitVec 64
  port  : Nat
  slot  : Nat
  peer  : BitVec 8
deriving DecidableEq, Repr

/-- A 64-byte request packet with its submitter, the shared queue that carried it, and its place in the core's order of
issue (R127, R231). -/
structure Packet where
  bytes : List Byte
  org   : Origin
  queue : Option Nat
  place : Nat
  /-- waits on a fault (`State.waitIdx`), R339 -/
  stall : Option Nat
  /-- a SEARCH packet that a SCANCEL has marked (R256) -/
  cancel : Bool
deriving DecidableEq, Repr

/-- A writer in flight on scratchpad chunks (R127): its place in the order of issue and the absolute chunk numbers of the
core's scratchpad that it still holds. -/
structure Writer where
  place  : Nat
  chunks : List Nat
deriving DecidableEq, Repr

/-- A started copy or fill (R113): the packet, the byte ranges (start, length) of its linear order not yet moved, and the
fault its engine waits on (R130; `State.waitIdx`). -/
structure Copying where
  pkt   : Packet
  todo  : List (Nat × Nat)
  stall : Option Nat
deriving DecidableEq, Repr

/-- A barrier update that waits because the barrier's page was absent (R129): bytes to count, or an error to mark, the
submitter and its core, whether a Sheepdog makes it, and the fault it waits on. -/
structure BarWait where
  va     : Nat
  bytes  : Nat
  err    : Option (BitVec 8)
  org    : Origin
  core   : Nat
  search : Bool
  stall  : Nat
deriving DecidableEq, Repr

/-- State of an activation bank (Table 8.9). -/
inductive BankState
  | empty | loading | ready
deriving DecidableEq, Repr

/-- An activation bank (R199, R201); `loader` is the (port, slot, lanes) that wait for the load, `off` the absolute
scratchpad offset of the image being copied. -/
structure ActBank where
  st     : BankState
  bytes  : Sparse 8
  loader : Option (Nat × Nat × LaneSet)
  off    : Nat
deriving DecidableEq, Repr

/-- Format latched by a cell bank (R215). -/
inductive CellFmt
  | empty | gq4 | s8
deriving DecidableEq, Repr

/-- A Plate cell bank (R215, R217): cells (key 256 × column + k), block scales q (key 4 × column + block), column scale
ss. -/
structure CellBank where
  fmt  : CellFmt
  cell : Sparse 8
  q    : Sparse 8
  ss   : Sparse 32
  /-- retired columns, each written into the spare of its position in the list (R226, R227) -/
  retired : List Nat
deriving DecidableEq, Repr

/-- What a Plate operation is (R216). -/
inductive PlateKind
  /-- an engrave of a tile at this absolute scratchpad offset; `gq4`: its format -/
  | engr (gq4 : Bool) (off : Nat)
  /-- an MLOOP: b code, bases, increments, row increment, first row, steps -/
  | mloop (bcode mbase xbase minc xinc rinc row0 steps : Nat)
  /-- a drain: type code, rounding code, saturate, absolute destination, barrier offset in the team, first row, count -/
  | mdrain (ty rnd : Nat) (sat : Bool) (dst bar first count : Nat)
  /-- a clear of rows -/
  | mclr (first count : Nat)
deriving DecidableEq, Repr

/-- How far an engrave has come (R218, Table 9.1). -/
inductive EngrStage
  | waiting
  /-- until the arithmetic clock's count `State.arith` reaches `done` -/
  | engraving (done : Nat)
  | complete
deriving DecidableEq, Repr

/-- A sequencer entry (R216): the operation, its submitter, the base of its team's allocation, its place in the core's
order of issue, the engrave's stage and the MLOOP's next step. -/
structure PlateOp where
  kind  : PlateKind
  org   : Origin
  place : Nat
  stage : EngrStage
  step  : Nat
deriving DecidableEq, Repr

/-- An issuer parked on a full sequencer queue (R216): its port, slot and lanes, and the operation that enters when an
entry frees. -/
structure PlateWait where
  port  : Nat
  slot  : Nat
  lanes : LaneSet
  op    : PlateOp
deriving DecidableEq, Repr

/-- A core's Plate (R215, R216, R224, R235, R167). -/
structure Plate where
  /-- physical bank at the front -/
  front   : Bool
  bank0   : CellBank
  bank1   : CellBank
  seq     : List PlateOp
  /-- issuers parked on a full queue, in the order they parked -/
  waiters : List PlateWait
  /-- accumulator rows, key 256 × row + column, F32 -/
  acc     : Sparse 32
  /-- rows without VALID -/
  invalid : BitVec 64
  /-- status word bits FLUSH, NV, OF, UF, NX at [26:22] -/
  sticky  : BitVec 64
  /-- drain converter's dither generator -/
  gen     : BitVec 32
deriving DecidableEq, Repr

/-- A line of the L1 (R86): its 128-byte line address and its bytes. -/
structure L1Line where
  line  : Nat
  bytes : Sparse 8
deriving DecidableEq, Repr

/-- A core (R149, R118, R255, R308, R201, R215). -/
structure Core where
  world   : Option Nat
  enabled : Bool
  ports   : List Port
  spad    : Sparse 8
  writers : List Writer
  /-- next place in the core's order of issue -/
  order   : Nat
  /-- the request engine's internal queue of at most 32 packets (R118) -/
  queue   : List Packet
  /-- packets started and not finished -/
  active  : List Copying
  /-- team served last by the request engine's round robin (R118) -/
  rrTeam  : Nat
  search  : List Packet
  net     : List Packet
  bank0   : ActBank
  bank1   : ActBank
  plate   : Plate
  l1      : List L1Line
deriving DecidableEq, Repr

/-- State of a ring slot (R115). A SUBMITTED slot keeps its KICK's order number and submitter. -/
inductive RingSlot
  | free
  | held (group : Nat)
  | submitted (place : Nat) (org : Origin)
deriving DecidableEq, Repr

/-- A resident team (R342, R345, R148). `groups`: (group index, slot key) of its resident groups. -/
structure Team where
  tid      : Nat
  core     : Nat
  ctx      : Nat
  record   : List Byte
  seq      : Nat
  index    : Nat
  /-- absolute scratchpad base of the allocation -/
  base     : Nat
  /-- allocation size in 4 KiB units -/
  scr      : Nat
  service  : Bool
  firmware : Bool
  ngroups  : Nat
  groups   : List (Nat × Nat)
  ring     : List RingSlot
  /-- save record given in stage 2 (R386), and whether the SAVE_REQUEST has been sent to its groups -/
  saveRec  : Option Nat
  saveSent : Bool
  /-- (group index, budget, exited mask, role registers) of the groups that are saved -/
  savedGrp : List (Nat × Nat × LaneSet × Sparse 64)
deriving DecidableEq, Repr

/-! ## Contexts and the scheduler -/

/-- A realm binding (Table 3.2). -/
structure Binding where
  realm   : Nat
  log2n   : Nat
  valid   : Bool
  dirBase : Nat
deriving DecidableEq, Repr

/-- A registered ring (error queue R290, fault queue R377, notify ring R303): its descriptor's address and log2 of its
entries. -/
structure RingReg where
  desc : Nat
  n    : Nat
deriving DecidableEq, Repr

/-- Stage of a context's pre-emption (Table 15.7). -/
inductive PreStage
  | none | drain | save | saved
deriving DecidableEq, Repr

/-- A context (Table 16.5, R47, R55, R289, R303, R384). -/
structure Context where
  num      : Nat
  asid     : Nat
  desc     : Nat
  proot    : Nat
  wroot    : Nat
  rotBase  : Nat
  rotLog2  : Nat
  world    : Nat
  priv     : Bool
  lq       : Nat
  hpc      : BitVec 64
  saveBase : Nat
  saveSz   : Nat
  saveN    : Nat
  /-- deadlines and slice in cycles -/
  t1       : Nat
  t2       : Nat
  slice    : Nat
  wtPool   : Nat
  wtPoolSz : Nat
  realms   : List Binding
  /-- window cursor (R47) -/
  cursor   : Nat
  /-- next free address of the window-table pool (R55) -/
  wtNext   : Nat
  errq     : Option RingReg
  /-- LOST is to be set in the next record (R289) -/
  errLost  : Bool
  rings    : List (Nat × RingReg)
  stage    : PreStage
  /-- cycle at which the stage's deadline passes -/
  deadline : Nat
  /-- cycle at which the first halted group stopped the deadline (R383) -/
  stopped  : Option Nat
  /-- a command-queue PREEMPT waits for this context -/
  waiting  : Bool
  /-- cycle of creation or of the last resume (R406) -/
  resumed  : Nat
  /-- save records in use: (record number, team restored and not yet out of the handler) -/
  recs     : List (Nat × Bool)
  /-- saved teams: (record number, team) -/
  savedTeams : List (Nat × Team)
deriving DecidableEq, Repr

/-- A record in a launch queue: its bytes, for SPAWN the PC and GID of the SPAWN (R340), and the PEER of its error record. -/
structure LaunchRec where
  bytes : List Byte
  pc    : BitVec 64
  who   : Option (BitVec 64)
  peer  : BitVec 8
deriving DecidableEq, Repr

/-- A launch queue (R338, R341): its context, its records, the accepted head's sequence number and entry address, the
next team to be placed, since when it waits, the steps its level has been raised, and PINNED. -/
structure LaunchQueue where
  ctx      : Option Nat
  recs     : List LaunchRec
  accepted : Option (Nat × BitVec 64)
  nextTeam : Nat
  since    : Nat
  raised   : Nat
  pinned   : Bool
deriving DecidableEq, Repr

/-- A spawn port (Table 14.3): the launch queue it is bound to and DROPPED. -/
structure SpawnPort where
  /-- the ASID of the context that the port is bound to -/
  asid    : Option Nat
  queue   : Option Nat
  dropped : BitVec 32
deriving DecidableEq, Repr

/-- A registered shared queue (R120, SHQREG): its descriptor, entries, core, owner and launch queue, and the fault its
engine waits on when the descriptor or the ring cannot be reached. -/
structure SharedQueue where
  desc  : Nat
  n     : Nat
  core  : Nat
  ctx   : Nat
  lq    : Nat
  stall : Option Nat
deriving DecidableEq, Repr

/-! ## Postings, remote requests, conversations -/

/-- A posting that has not reached a fault queue yet (R379): the world, the context, and the fields of Table 15.4 but
for FLAGS valid and SEQ. -/
structure Posting where
  world  : Nat
  ctx    : Nat
  va     : BitVec 64
  priv   : Bool
  port   : Nat
  slot   : Nat
  core   : Nat
  access : Nat
  cause  : BitVec 8
  gid    : BitVec 64
  lanes  : LaneSet
  /-- a service's precise trap that meets no handler: its context ends by forced reset (R376) -/
  svc    : Bool
  tpc    : BitVec 64
  /-- the engine's wait that this posting is for -/
  wait   : Option Nat
deriving DecidableEq, Repr

/-- A posted fault-queue entry that a later fault may merge into (R380). -/
structure Posted where
  world : Nat
  index : Nat
  cause : BitVec 8
  asid  : Nat
  gid   : BitVec 64
  page  : Nat
deriving DecidableEq, Repr

/-- What a remote request does (R285, R287). -/
inductive RemoteKind
  /-- lanes parked at a load-class access, which issues again when a path exists -/
  | load
  /-- a store of the pieces of one block (R90): the block's size, its pieces at the home's physical addresses, the virtual address of
  its first byte, for its record, and whether it is a release (R275) -/
  | store (width : Nat) (pieces : List (Nat × List Byte)) (va : BitVec 64) (rel : Bool)
  /-- lanes parked at an atomic or conversation access, which issues again when a path exists -/
  | atomic
  /-- lanes parked at an acquire with PROMO: a promotion request to core `core`, of this device or of the request's peer (R275) -/
  | promo (core : Nat)
  /-- a promotion request to a peer's core that this device's slice makes for an acquire of another peer: that peer and the number of
  its request (R275) -/
  | homePromo (core src : Nat) (seq : BitVec 32)
  /-- an engine's update of a barrier at a virtual address: bytes to count, or an error to mark -/
  | update (bar : Nat) (bytes : Nat) (err : Option (BitVec 8)) (search : Bool)
  /-- the started packet at this place of its core's order waits for a path -/
  | copy (place : Nat)
deriving DecidableEq, Repr

/-- An outstanding remote request (R287): the peer, the submitter's group, whether it is in doubt, the cycle since which no
path has existed, and whether its turn has come: its lanes then issue their access again, ahead of later requests. -/
structure Remote where
  kind  : RemoteKind
  peer  : Nat
  core  : Nat
  org   : Origin
  lanes : LaneSet
  va    : BitVec 64
  doubt : Bool
  since : Nat
  ready : Bool
  /-- the access came from privileged mode (R84) -/
  priv  : Bool
  /-- its end-to-end number has been taken and its bytes counted (R285, R293) -/
  sent  : Bool
  /-- the size of its block (R90); 0 where an earlier request of the same instruction asks for the block -/
  block : Nat
deriving DecidableEq, Repr

/-- A conversation operation on its way to, or held at, a Bellwether (R318, R326). `space` and `pa` locate the object's
offset 0; `dreg` is the cv or g register the answer writes, `areg` the descriptor register. -/
structure ConvOp where
  kind  : ConvKind
  core  : Nat
  org   : Origin
  lanes : LaneSet
  space : Nat
  pa    : Nat
  base  : BitVec 64
  role  : Nat
  mkind : Nat
  count : Nat
  pay   : List (BitVec 64)
  who   : BitVec 64
  epoch : Nat
  /-- CDELEG's target; of a held operation, the transition that it was evaluated by (R318) -/
  target : BitVec 64
  dreg  : Nat
  areg  : Nat
  /-- held for mailbox space: accepted in principle (R318) -/
  held  : Bool
  /-- a withdrawal has been sent behind it (R333) -/
  withdrawn : Bool
  /-- the group has been discarded: the answer is dropped (R389) -/
  orphan : Bool
  /-- a CRECV that found nothing: its lanes are parked at the mailbox until an entry or the close wakes it (R327) -/
  parked : Bool
  /-- of a peer's operation: the device it came from and its end-to-end number, which its response carries (R332) -/
  src    : Option (Nat × BitVec 32)
  /-- it has parked at a mailbox: its next evaluation is another access (R327) -/
  again  : Bool
deriving DecidableEq, Repr

/-- A wait-for probe on its way (R391): its origin, where that is on this device (slot key and lanes), its identity word, start of
blocking, world and hops, the set of lanes that it reaches next, by slot key, and the parties on peers that it reaches next, by identity
word (R334). -/
structure Probe where
  origin : Option (Nat × LaneSet)
  ident  : BitVec 64
  since  : Nat
  world  : Nat
  hops   : Nat
  at_    : List (Nat × LaneSet)
  far    : List Nat
deriving DecidableEq, Repr

/-! ## Search -/

/-- Where a query stands (R246, R247). -/
inductive QueryStage
  /-- waiting in the admission queue -/
  | admitted
  /-- accepted: the entry node's distance is awaited -/
  | entry
  /-- the neighbour list of `u` is awaited -/
  | list (u : Nat)
  /-- distances of the ids `ids` are awaited in list order; those answered stand in `got` -/
  | dists (ids : List Nat) (got : List (Nat × BitVec 32))
deriving DecidableEq, Repr

/-- A query (R241 to R248). -/
structure Query where
  pkt     : Packet
  core    : Nat
  stage   : QueryStage
  cancel  : Bool
  /-- graph base (window address) and header fields -/
  base    : Nat
  nodes   : Nat
  dim     : Nat
  fmt     : Nat
  deg     : Nat
  nodeSz  : Nat
  parts   : List Nat
  qvec    : List Byte
  /-- visited ids, candidates (distance, id) best first, expanded ids, expansions, SKIPPED -/
  visited : List Nat
  cand    : List (BitVec 32 × Nat)
  expanded : List Nat
  nexp    : Nat
  skipped : Bool
  /-- what has been read of the neighbour list that is awaited: its first sector (R251) -/
  head    : List Byte
  /-- waits on a fault (`State.waitIdx`) -/
  stall   : Option Nat
deriving DecidableEq, Repr

/-- A SCANCEL mark travelling to a Sheepdog (R256): the context, the tag, the waiting group and lanes. -/
structure Mark where
  ctx   : Nat
  tag   : BitVec 64
  core  : Nat
  port  : Nat
  slot  : Nat
  lanes : LaneSet
deriving DecidableEq, Repr

/-- A SCANCEL that waits for answers: the group, its register and lanes, how many answers are out and the count. -/
structure Cancel where
  core  : Nat
  port  : Nat
  slot  : Nat
  dreg  : Nat
  lanes : LaneSet
  /-- Sheepdogs whose mark has been taken, with the number they marked, answer not yet arrived -/
  ready : List (Nat × Nat)
  left  : Nat
  count : Nat
deriving DecidableEq, Repr

/-- A Sheepdog (R237). -/
structure Dog where
  /-- queries forwarded and not yet arrived -/
  inbound : List Query
  admission : List Query
  active  : List Query
  marks   : List Mark
deriving DecidableEq, Repr

/-! ## Fabric and network -/

/-- One direction's keys as the sender or the receiver holds them (R295, R296): generation and invocation counter of
both slots, the current slot. -/
structure Keys where
  gen0 : Nat
  gen1 : Nat
  ctr0 : Nat
  ctr1 : Nat
  live0 : Bool
  live1 : Bool
  cur  : Bool
deriving DecidableEq, Repr

/-- A sequenced flit in the retry buffer (R297): its SEQ, whether it is a KEYSWITCH, and its payload. -/
structure Unacked where
  seq : BitVec 24
  ks  : Bool
  payload : List Byte
deriving DecidableEq, Repr

/-- A fabric link to a peer (R292 to R299). -/
structure Link where
  up      : Bool
  /-- the peer is in reset -/
  reset   : Bool
  txSeq   : BitVec 24
  rxSeq   : BitVec 24
  tx      : Keys
  rx      : Keys
  retry   : List Unacked
  /-- a NAK has been sent for rxSeq: later flits are discarded until it arrives -/
  nakSent : Bool
  /-- failures in a row of the expected SEQ (R299) -/
  fails   : Nat
  /-- SEQ of the KEYSWITCH not yet covered by an ACK (R296) -/
  switchAt : Option (BitVec 24)
  /-- the current slot has been changed, and the KEYSWITCH is the next sequenced flit (R296) -/
  ksOwed  : Bool
  /-- payloads that wait for room in the retry buffer (R297) -/
  sendq   : List (List Byte)
  /-- cycle at which the last path to the peer was lost -/
  lostAt  : Nat
  /-- the 256 bytes of the last flit sent (Table 12.3) -/
  wire    : List Byte
deriving DecidableEq, Repr

/-- A peer device as this device meets it: its memory, page ownership table and cleared bitmap included, its links to
the other devices, its uncorrectable sectors, and its 64-byte lines whose integrity tag mismatches. -/
structure Peer where
  num   : Nat
  mem   : Memory
  links : BitVec 16
  bad   : List Nat
  tags  : List Nat
deriving DecidableEq, Repr

/-- A peer group's monitor on a line of this device's memory (R107): its device, world and identity word, the line, whether a write has
reached it, and, of a parked MWAIT, the request's number and the bytes that it reads on return. -/
structure PeerMon where
  src     : Nat
  world   : Nat
  who     : BitVec 64
  line    : Nat
  written : Bool
  wait    : Option (BitVec 32 × Nat × Nat)
deriving DecidableEq, Repr

/-- A kept response to an incoming request (R293). -/
structure Kept where
  src   : Nat
  world : Nat
  seq   : BitVec 32
  data  : List Byte
  cause : BitVec 8
deriving DecidableEq, Repr

/-- An NWRI on its way (R302, R305): its packet, the first PSN, its length, the bytes acknowledged, and the bytes that it carries. -/
structure Nwri where
  pkt   : Packet
  core  : Nat
  psn0  : BitVec 24
  total : Nat
  acked : Nat
  data  : List Byte
deriving DecidableEq, Repr

/-- A network connection (R301, R304). -/
structure Conn where
  id     : Nat
  ctx    : Nat
  world  : Nat
  realm  : Nat
  port   : Nat
  peerId : Nat
  peerAddr : BitVec 128
  ring   : Nat
  keyed  : Bool
  psn    : BitVec 24
  /-- the next PSN that has not been sent yet -/
  nxt    : BitVec 24
  /-- next PSN expected from the peer, and the bytes received of the incoming NWRI in progress -/
  rxPsn  : BitVec 24
  rxGot  : Nat
  cwnd   : Nat
  credit : Nat
  /-- PSN that must be acknowledged before a second decrease (R304) -/
  holdDec : Option (BitVec 24)
  silences : Nat
  lastAct : Nat
  /-- cycle at which an RNR wait ends (R301) -/
  rnrUntil : Option Nat
  failed : Bool
  ece    : Bool
  sends  : List Nwri
  /-- the packets last sent, each its UDP destination port, transport header, payload and tag (R300) -/
  wire   : List (List Byte)
deriving DecidableEq, Repr

/-! ## Caches, tables, log -/

/-- A TLB entry (R80): the TLB that holds it (`tlbUnits`), ASID, first VA covered, log2 of the page size, and the leaf PTE. -/
structure TlbEntry where
  unit : Nat
  asid : Nat
  va   : Nat
  size : Nat
  pte  : BitVec 128
deriving DecidableEq, Repr

/-- A page walk (R81): the compute die whose walker makes it, ASID and 64 KiB-aligned VA, its context, the TLBs that wait
for it, and, once a walker has it, the leaf that it has found; a miss that waits for a walker has none. `install`: no TLBINV has been issued since it began (R397). -/
structure PageWalk where
  die  : Nat
  asid : Nat
  va   : Nat
  ctx  : Nat
  units : List Nat
  leaf : Option (BitVec 128 × Nat)
  install : Bool
deriving DecidableEq, Repr

/-- An LLC line's tag (R87, R88): world, line address, sectors held, sectors modified, and its place in replacement (Table 4.6):
0 .stream, first to be evicted; 1 default; 2 .keep, last. -/
structure LlcLine where
  world   : Nat
  line    : Nat
  sectors : BitVec 8
  dirty   : BitVec 8
  place   : Nat
deriving DecidableEq, Repr

/-- A scrubber (R95): next line, start cycle of the pass, pass target in cycles, level, cycle of the last shortfall. -/
structure Scrubber where
  next   : Nat
  start  : Nat
  target : Nat
  level  : Nat
  tick   : Nat
deriving DecidableEq, Repr

/-- A device error-log entry (Table 16.9). -/
structure LogEntry where
  time   : BitVec 64
  cls    : BitVec 8
  world  : BitVec 8
  unit   : BitVec 16
  seq    : BitVec 32
  detail : List Byte
deriving DecidableEq, Repr

/-- State of a world's TDISP interface (R413). -/
inductive Tdisp
  | unlocked | locked | run
deriving DecidableEq, Repr

/-- A world (R409 to R413): live, keys loaded, meters, chain link number and digest, the meters sampled in it, TDISP
interface and the requester recorded. -/
structure World where
  live    : Bool
  keys    : Bool
  meters  : List (BitVec 64)
  linkNo  : Nat
  hash    : BitVec 384
  sampled : List (BitVec 64)
  tdisp   : Tdisp
  owner   : BitVec 64
  faultq  : Option RingReg
  /-- way masks by slice -/
  ways    : List (BitVec 16)
deriving DecidableEq, Repr

/-- The command and completion rings (Table 16.2, R404). -/
structure HostIf where
  cqBase  : BitVec 64
  cplBase : BitVec 64
  tail    : BitVec 64
  cqHead  : BitVec 64
  cplHead : BitVec 64
  phase   : Bool
  /-- the command in progress: TAG and context of a PREEMPT that completes later (R403) -/
  busy    : Option (BitVec 32 × Nat)
deriving DecidableEq, Repr

/-- What happens next, as the outside world and the manual's freedom of order decide it (the model's own). -/
inductive Next
  /-- the port issues the next instruction of its run, or takes its turn when it has none -/
  | issue (core port : Nat)
  /-- a step of the opcode table -/
  | event (i : Instr)
  /-- reference cycles pass -/
  | elapse (n : Nat)
deriving DecidableEq, Repr

/-- The machine. -/
structure State where
  /-- what happens next; the model's own (notes/assumptions/2.md) -/
  agenda  : List Next
  /-- the (core, port) whose instruction is being issued; the model's own -/
  turn    : Option (Nat × Nat)
  /-- counter of free values; the model's own (notes/assumptions/4.md) -/
  tick    : Nat
  /-- CYCLE (Table 6.2) -/
  cycle   : BitVec 64
  /-- device memory by physical address, page ownership table and cleared bitmap in it -/
  mem     : Memory
  hostMem : Memory
  /-- 16-byte sectors (PA ÷ 16) with an uncorrectable error, and with a correctable one (R92) -/
  eccBad  : List Nat
  eccSoft : List Nat
  /-- 64-byte lines (PA ÷ 64) whose integrity tag mismatches (R93) -/
  tagBad  : List Nat
  tlb     : List TlbEntry
  /-- walks in flight and misses that wait for a walker, in arrival order (R81) -/
  walks   : List PageWalk
  llc     : List LlcLine
  /-- by line key: who made the last release write to a 128-byte line, 256 × device + core + 1 (R275) -/
  release : Sparse 16
  scrubH  : Scrubber
  scrubF  : Scrubber
  cores   : List Core
  /-- resident groups by slot key (core × 64 + port × 16 + slot) -/
  groups  : List (Nat × Group)
  teams   : List Team
  /-- next team number; the model's own -/
  nextTid : Nat
  ctxs    : List Context
  nextCtx : Nat
  queues  : List LaunchQueue
  sports  : List SpawnPort
  shared  : List (Option SharedQueue)
  /-- next grid sequence number (R340) -/
  gridSeq : Nat
  /-- core after which the placement search starts, queue that received the last placement (R341, R342) -/
  lastCore : Option Nat
  lastQueue : Option Nat
  posts   : List Posting
  posted  : List Posted
  barWaits : List BarWait
  /-- next number of an engine's wait on a fault, and the fault queue index of each wait that has been posted -/
  nextWait : Nat
  waitIdx  : List (Nat × Nat)
  /-- the 64 KiB pages that waits are for, as page numbers, by the number of the wait (R400) -/
  waitPage : List (Nat × Nat)
  /-- by 64-byte block of local memory: who published it last, 0 a core or an engine, 0xF0 the host, n + 1 peer n (R129) -/
  pubs     : Sparse 8
  /-- waits whose engine an LRESUME has signalled and which has not retried yet (R400) -/
  signalled : List Nat
  remotes : List Remote
  convs   : List ConvOp
  probes  : List Probe
  cancels : List Cancel
  dogs    : List Dog
  fabNum  : Option Nat
  fabN    : Nat
  links   : List Link
  peers   : List Peer
  /-- end-to-end sequence numbers by destination and world (key 16 × peer + world), R293 -/
  txE2e   : Sparse 32
  rxE2e   : Sparse 32
  kept    : List Kept
  peerMons : List PeerMon
  netUp   : BitVec 8
  /-- UDP destination port of network packets (R300) -/
  udpPort : BitVec 16
  conns   : List Conn
  worlds  : List World
  /-- firmware converter's dither generator (R167) -/
  fwGen   : BitVec 32
  worldNews : Nat
  /-- NoC payload counters by flow (R410): key ((source × 64 + destination) × 16 + world) -/
  noc     : Sparse 64
  entropyFailed : Bool
  host    : HostIf
  /-- BOOTSTAT (Table 16.2) -/
  stage   : Nat
  ready   : Bool
  conf    : Bool
  recovery : Bool
  /-- mode recorded for the next reset (R407) -/
  confReq : Bool
  resetReq : Bool
  image   : Option ConfigImage
  /-- link ports that trained at boot, of those the image enables (R414, R292) -/
  trained : BitVec 15
  flash   : ConfigImage
  boots   : Nat
  clockMHz : Nat
  /-- arithmetic-clock cycles since reset, × 2,400: a reference cycle adds the clock in MHz (R416) -/
  arith   : Nat
  temp    : Nat
  power   : Nat
  cap     : Nat
  /-- the PCIe link has not trained, or the boot has stopped: the host reaches nothing (R414) -/
  unreachable : Bool
  /-- cycles of the last clock step and of the last extension of the meter chains (R415, R412) -/
  clockAt : Nat
  chainAt : Nat
  log     : List LogEntry
  logSeq  : BitVec 32
  /-- last data the device gave to the outside: host reads, SPDM and PLDM answers -/
  reply   : List Byte
deriving DecidableEq, Repr

/-! ## Reset -/

/-- A lane that has not been placed. -/
def Lane.fresh : Lane :=
  { pc := 0, st := .ready, skip := false, ret := false, kept := none, seen := 0, seenAt := 0, saved := false, bySave := false, since := 0, tcause := 0, tpc := 0,
    taddr := 0, tinfo := 0, tregion := 0 }

/-- A monitor that is not armed. -/
def Monitor.off : Monitor := { armed := false, va := 0, space := 0, line := 0, written := false, deadline := 0 }

/-- A port after reset: all 256 blocks free (R140). -/
def Port.fresh : Port := { rot := 0, pool := 256, waitq := [], run := none, turn := none }

/-- A cell bank after reset (Table 9.1). -/
def CellBank.fresh : CellBank := { fmt := .empty, cell := [], q := [], ss := [], retired := [] }

/-- A Plate after reset (Table 9.1, R224); the generator's value before a world assignment is log entry 6. -/
def Plate.fresh : Plate :=
  { front := false, bank0 := CellBank.fresh, bank1 := CellBank.fresh, seq := [], waiters := [], acc := [], invalid := 0,
    sticky := 0, gen := 0x6A09E667 }

/-- An activation bank after reset (R201). -/
def ActBank.fresh : ActBank := { st := .empty, bytes := [], loader := none, off := 0 }

/-- A core after reset. -/
def Core.fresh : Core :=
  { world := none, enabled := false, ports := List.replicate 4 Port.fresh, spad := [], writers := [], order := 0,
    queue := [], active := [], rrTeam := 0, search := [], net := [], bank0 := ActBank.fresh, bank1 := ActBank.fresh,
    plate := Plate.fresh, l1 := [] }

/-- A launch queue after reset. -/
def LaunchQueue.fresh : LaunchQueue :=
  { ctx := none, recs := [], accepted := none, nextTeam := 0, since := 0, raised := 0, pinned := false }

/-- Keys of a direction before bring-up (R296). -/
def Keys.fresh : Keys :=
  { gen0 := 0, gen1 := 1, ctr0 := 0, ctr1 := 0, live0 := false, live1 := false, cur := false }

/-- A link after reset: down. -/
def Link.fresh : Link :=
  { up := false, reset := false, txSeq := 0, rxSeq := 0, tx := Keys.fresh, rx := Keys.fresh, retry := [], nakSent := false,
    fails := 0, switchAt := none, ksOwed := false, sendq := [], lostAt := 0, wire := [] }

/-- A world after reset. -/
def World.fresh : World :=
  { live := false, keys := false, meters := List.replicate 16 0, linkNo := 0, hash := 0, sampled := List.replicate 16 0,
    tdisp := .unlocked, owner := 0, faultq := none, ways := List.replicate 32 0 }

/-- World 1 outside confidential mode holds all 16 ways of every slice (R88). -/
def World.fresh1 : World := { World.fresh with live := true, ways := List.replicate 32 0xFFFF }

/-- The configuration image assumed in flash: signed, everything enabled, no retired column (log entry 6). -/
def ConfigImage.plain : ConfigImage :=
  { signed := true, cores := BitVec.allOnes 192, retired := [], slices := BitVec.allOnes 32, links := BitVec.allOnes 15,
    netPorts := BitVec.allOnes 8, identity := 0 }

/-- Scrubbers with their default pass targets of 24 and 72 hours (R95), in reference cycles. -/
def Scrubber.fresh (hours : Nat) : Scrubber := { next := 0, start := 0, target := hours * 3600 * 2400000000, level := 0, tick := 0 }

/-- The machine right after device reset, before the boot stages of R414. -/
def State.reset : State :=
  { agenda := [], turn := none, tick := 0, cycle := 0, mem := [], hostMem := [], eccBad := [], eccSoft := [], tagBad := [],
    tlb := [], walks := [], llc := [], release := [], scrubH := Scrubber.fresh 24, scrubF := Scrubber.fresh 72,
    cores := List.replicate 192 Core.fresh, groups := [], teams := [], nextTid := 0, ctxs := [], nextCtx := 0,
    queues := List.replicate 64 LaunchQueue.fresh, sports := List.replicate 64 { asid := none, queue := none, dropped := 0 },
    shared := List.replicate 64 none, gridSeq := 0, lastCore := none, lastQueue := none, posts := [], posted := [],
    barWaits := [], nextWait := 0, waitIdx := [], waitPage := [], pubs := [], signalled := [], remotes := [], convs := [], probes := [], cancels := [],
    dogs := List.replicate 8 { inbound := [], admission := [], active := [], marks := [] },
    fabNum := none, fabN := 0, links := List.replicate 16 Link.fresh, peers := [], txE2e := [], rxE2e := [], kept := [], peerMons := [],
    netUp := 0, udpPort := 0, conns := [],
    worlds := { World.fresh with live := true } :: World.fresh1 :: List.replicate 14 World.fresh,
    fwGen := 0xBB67AE85, worldNews := 0, noc := [], entropyFailed := false,
    host := { cqBase := 0, cplBase := 0, tail := 0, cqHead := 0, cplHead := 0, phase := true, busy := none },
    stage := 0, ready := false, conf := false, recovery := false, confReq := false, resetReq := false, image := none, trained := 0,
    flash := ConfigImage.plain, boots := 0, clockMHz := 2400, arith := 0, temp := 0, power := 0, cap := 2200, unreachable := true, clockAt := 0, chainAt := 0, log := [],
    logSeq := 0, reply := [] }

end Sys2Proof.Machine
end

