-- ==== Sys2Proof/Machine/Ops.lean ====
section
/-! DEFINITION. The named operations over registers, lanes, groups, cores and contexts, and taking an exception: `Trap` and
`Replay` of 02_instruction_words.md R42 as 15_traps_and_preemption.md R374, R376 and R379 lay them down, entry into the
handler (R374) and the return from it (R394). -/

namespace Sys2Proof.Machine

open Sys2Proof.Bits

/-! ## Cause codes (Table 15.1) -/

abbrev cIllegalInstruction : BitVec 8 := 0x01
abbrev cIllegalOperand : BitVec 8 := 0x02
abbrev cIllegalPrefix : BitVec 8 := 0x03
abbrev cIllegalPair : BitVec 8 := 0x04
abbrev cLatchEmpty : BitVec 8 := 0x05
abbrev cPrivileged : BitVec 8 := 0x06
abbrev cRunTooLong : BitVec 8 := 0x07
abbrev cMisaligned : BitVec 8 := 0x08
abbrev cPageNotPresent : BitVec 8 := 0x10
abbrev cPageProtection : BitVec 8 := 0x11
abbrev cOwnership : BitVec 8 := 0x12
abbrev cObjectDeparted : BitVec 8 := 0x13
abbrev cNameUnresolved : BitVec 8 := 0x14
abbrev cObjectBounds : BitVec 8 := 0x15
abbrev cNameRights : BitVec 8 := 0x16
abbrev cWindowExhausted : BitVec 8 := 0x17
abbrev cDataUncorrectable : BitVec 8 := 0x18
abbrev cRemoteLoadFailed : BitVec 8 := 0x19
abbrev cScratchRange : BitVec 8 := 0x1A
abbrev cIntegrity : BitVec 8 := 0x1B
abbrev cCopyAborted : BitVec 8 := 0x20
abbrev cBarrierOverrun : BitVec 8 := 0x21
abbrev cBarrierState : BitVec 8 := 0x22
abbrev cPlateUncorrectable : BitVec 8 := 0x28
abbrev cPlateFormat : BitVec 8 := 0x29
abbrev cTableBound : BitVec 8 := 0x2A
abbrev cConvOutOfTurn : BitVec 8 := 0x30
abbrev cConvNotHolder : BitVec 8 := 0x31
abbrev cConvProtocol : BitVec 8 := 0x32
abbrev cConvClosed : BitVec 8 := 0x33
abbrev cDeadlock : BitVec 8 := 0x3C
abbrev cSoftwareTrap : BitVec 8 := 0x40
abbrev cBreakpoint : BitVec 8 := 0x41
abbrev cSaveRequest : BitVec 8 := 0x48
abbrev cErrorQueueNonempty : BitVec 8 := 0x49

/-- Replayable causes (Table 15.1). -/
def replayable (c : BitVec 8) : Bool := c == cPageNotPresent || c == cObjectDeparted

/-! ## Finding and changing units -/

/-- Key of a group slot. -/
def slotKey (core port slot : Nat) : Nat := core * 64 + port * 16 + slot

/-- The core, port and slot of a slot key. -/
def keyCore (k : Nat) : Nat := k / 64
def keyPort (k : Nat) : Nat := k / 16 % 4
def keySlot (k : Nat) : Nat := k % 16

/-- The group of a slot key in a list of resident groups. -/
def findGroup : List (Nat × Group) → Nat → Option Group
  | [], _ => none
  | (k, g) :: r, key => if k = key then some g else findGroup r key

/-- Replace the group of a slot key. -/
def putGroup : List (Nat × Group) → Nat → Group → List (Nat × Group)
  | [], _, _ => []
  | (k, g) :: r, key, g' => if k = key then (k, g') :: r else (k, g) :: putGroup r key g'

/-- The resident group of a slot key. -/
def State.group? (s : State) (key : Nat) : Option Group := findGroup s.groups key

/-- Replace a resident group. -/
def State.setGroup (s : State) (key : Nat) (g : Group) : State := { s with groups := putGroup s.groups key g }

/-- Change every resident group. -/
def State.mapGroups (s : State) (f : Nat → Group → Group) : State :=
  { s with groups := s.groups.map fun p => (p.1, f p.1 p.2) }

/-- The core of a number, a fresh one where there is none. -/
def State.core (s : State) (c : Nat) : Core := s.cores.getD c Core.fresh

/-- Replace a core. -/
def State.setCore (s : State) (c : Nat) (x : Core) : State := { s with cores := s.cores.set c x }

/-- An issue port of a core. -/
def Core.port (c : Core) (p : Nat) : Port := c.ports.getD p Port.fresh

/-- Replace a port. -/
def Core.setPort (c : Core) (p : Nat) (x : Port) : Core := { c with ports := c.ports.set p x }

/-- Replace a port of a core of the device. -/
def State.setPort (s : State) (c p : Nat) (x : Port) : State := s.setCore c ((s.core c).setPort p x)

/-- The team of a number. -/
def State.team? (s : State) (tid : Nat) : Option Team := s.teams.find? fun t => t.tid == tid

/-- Replace a team. -/
def State.setTeam (s : State) (t : Team) : State :=
  { s with teams := s.teams.map fun x => if x.tid == t.tid then t else x }

/-- The context of a number. -/
def State.ctx? (s : State) (n : Nat) : Option Context := s.ctxs.find? fun c => c.num == n

/-- Replace a context. -/
def State.setCtx (s : State) (c : Context) : State :=
  { s with ctxs := s.ctxs.map fun x => if x.num == c.num then c else x }

/-- A world's record. -/
def State.world (s : State) (w : Nat) : World := s.worlds.getD w World.fresh

/-- Replace a world's record. -/
def State.setWorld (s : State) (w : Nat) (x : World) : State := { s with worlds := s.worlds.set w x }

/-- Add to a meter of a world (R411); meters only rise, modulo 2^64. -/
def State.meter (s : State) (w idx n : Nat) : State :=
  let x := s.world w
  s.setWorld w { x with meters := x.meters.set idx (x.meters.getD idx 0 + BitVec.ofNat 64 n) }

/-- Take a free bit: the value is Config's, the counter advances. -/
def State.freeBit (s : State) : Bool × State := (Config.freeBit s.tick, { s with tick := s.tick + 1 })

/-- Take a free number below `n`. -/
def State.freeBelow (s : State) (n : Nat) : Nat × State := (Config.freeNat s.tick % n, { s with tick := s.tick + 1 })

/-- Reference cycles pass: CYCLE advances, and so does every world's core-cycle meter, by its assigned cores (R1, R411). -/
def State.elapse (s : State) (n : Nat) : State :=
  let s1 := { s with cycle := s.cycle + BitVec.ofNat 64 n, arith := s.arith + n * s.clockMHz }
  (List.range 16).foldl (fun a w =>
    let k := (s.cores.filter fun c => c.world == some w).length
    if k = 0 then a else a.meter w 7 (n * k)) s1

/-! ## Registers of a group (Table 6.1) -/

/-- Vector register `r` of lane `l`. -/
def Group.vget (g : Group) (r l : Nat) : BitVec 64 := sget g.v (32 * r + l)

/-- Write vector register `r` in the lanes of `m`. -/
def Group.vset (g : Group) (r : Nat) (m : LaneSet) (f : Nat → BitVec 64) : Group :=
  { g with v := sput g.v (32 * r) (lanes32.map fun l => if inSet m l then f l else g.vget r l) }

/-- Uniform register `n`. -/
def Group.gget (g : Group) (n : Nat) : BitVec 64 := sget g.g n

/-- Write uniform register `n`. -/
def Group.gset (g : Group) (n : Nat) (x : BitVec 64) : Group :=
  { g with g := sset g.g n x, csrd := g.csrd.filter fun w => w.reg != n }

/-- The wait of a CSRD of FFLAGS that writes register `n` is over: the flags that came in time are in its result (R169). -/
def Group.settle (g : Group) (n : Nat) : Group :=
  match g.csrd.find? fun w => w.reg == n with
  | some w => g.gset n (g.gget n ||| w.late.setWidth 64)
  | none => g

/-- Lane mask `n`; k0 reads all ones (R137). -/
def Group.kget (g : Group) (n : Nat) : LaneSet := if n = 0 then BitVec.allOnes 32 else sget g.k n

/-- Write lane mask `n`; a write to k0 is ignored (R137). -/
def Group.kset (g : Group) (n : Nat) (x : LaneSet) : Group := if n = 0 then g else { g with k := sset g.k n x }

/-- Rejoin mask `n`. -/
def Group.jget (g : Group) (n : Nat) : LaneSet := sget g.j n

/-- Write rejoin mask `n`. -/
def Group.jset (g : Group) (n : Nat) (x : LaneSet) : Group := { g with j := sset g.j n x }

/-- Role register `n`. -/
def Group.cvget (g : Group) (n : Nat) : BitVec 64 := sget g.cv n

/-- Write role register `n`. -/
def Group.cvset (g : Group) (n : Nat) (x : BitVec 64) : Group := { g with cv := sset g.cv n x }

/-- Discard the vector registers at or above `8 × b` (R143). -/
def Group.cutV (g : Group) (b : Nat) : Group := { g with v := g.v.filter fun p => decide (p.1 < 256 * b) }

/-! ## Lanes (R346) -/

/-- Lane `l` of a group. -/
def Group.lane (g : Group) (l : Nat) : Lane := g.lanes.getD l Lane.fresh

/-- Change every lane. -/
def Group.mapLanes (g : Group) (f : Nat → Lane → Lane) : Group :=
  { g with lanes := lanes32.map fun l => f l (g.lane l) }

/-- Change the lanes of a set. -/
def Group.onLanes (g : Group) (m : LaneSet) (f : Nat → Lane → Lane) : Group :=
  g.mapLanes fun l x => if inSet m l then f l x else x

/-- The lanes whose state satisfies a predicate. -/
def Group.lanesIn (g : Group) (p : Lane → Bool) : LaneSet := laneSet fun l => p (g.lane l)

/-- READY (or LATE) lanes. -/
def Group.readyLanes (g : Group) : LaneSet := g.lanesIn fun x => x.st == .ready

/-- EXITED lanes. -/
def Group.exitedLanes (g : Group) : LaneSet := g.lanesIn fun x => x.st == .exited

/-- Every lane has exited (R344). -/
def Group.allExited (g : Group) : Bool := g.exitedLanes == BitVec.allOnes 32

/-- Lanes parked for a reason become READY at the PC `f` gives them (R346). -/
def Group.wake (g : Group) (p : Wait → Bool) (f : Lane → BitVec 64) : Group :=
  g.mapLanes fun _ x =>
    match x.st with
    | .parked w => if p w then { x with st := .ready, pc := f x } else x
    | _ => x

/-- Lanes are parked at an MWAIT of the group. -/
def Group.waitsMonitor (g : Group) : Bool := lanes32.any fun l => (g.lane l).st == .parked .monitor

/-- A wait for a peer (R287). -/
def Wait.isRemote (w : Wait) : Bool := w == .remote || w == .path

/-- A lane is parked on a peer. -/
def Lane.waitsPeer (x : Lane) : Bool :=
  match x.st with
  | .parked w => w.isRemote
  | _ => false

/-- The barrier address that a barrier wait was made with. -/
def Wait.barAt (w : Wait) : Nat :=
  match w with
  | .barrier a _ _ => a
  | .barrierMask a _ _ => a
  | _ => 0

/-- The phase that a CBWAIT of a group waits for as it looks at its barrier. -/
def Group.phaseBit (g : Group) (p : PhaseSrc) : Bool :=
  match p with
  | .reg n => (g.gget n).getLsbD 0
  | .const b => b

/-- Parked lanes to which an update shows something become READY with it (R125). -/
def Group.show (g : Group) (f : Wait → BitVec 8) : Group :=
  g.mapLanes fun _ x =>
    match x.st with
    | .parked w => if f w = 0 then x else { x with st := .ready, seen := f w, seenAt := BitVec.ofNat 64 w.barAt }
    | _ => x

/-- A wake event ends the group's parked MWAIT (R109): its lanes are READY at it, marked to read and complete, and the
monitor is no longer armed. -/
def Group.returnMonitor (g : Group) : Group :=
  { g.mapLanes (fun _ x => if x.st = .parked .monitor then { x with st := .ready, ret := true } else x) with
    mon := { g.mon with armed := false } }

/-- The lanes whose J bits are still to come are released when the register is zero (R364): every lane PARKED on j_d
becomes READY at its JWAIT's PC + 8. -/
def Group.release (g : Group) (d : Nat) : Group :=
  if g.jget d = 0 then g.wake (fun w => w == .rejoin d) (fun x => x.pc + 8) else g

/-- Lanes that reach EXITED lose their bit in every j register, and each register is released (R371). -/
def Group.exitLanes (g : Group) (m : LaneSet) : Group :=
  let g1 := g.onLanes m fun _ x => { x with st := .exited, skip := false, ret := false, kept := none, seen := 0, saved := false }
  (List.range 8).foldl (fun a d => (a.jset d (a.jget d &&& ~~~ m)).release d) g1

/-! ## GID fields (Table 14.1) -/

def gidSeq (x : BitVec 64) : Nat := fld x.toNat 40 24
def gidTeam (x : BitVec 64) : Nat := fld x.toNat 24 16
def gidGroup (x : BitVec 64) : Nat := fld x.toNat 19 5
def gidRole (x : BitVec 64) : Nat := fld x.toNat 17 2

/-- The GID of a group. -/
def mkGid (seq team group role : Nat) : BitVec 64 :=
  BitVec.ofNat 64 (seq % 2 ^ 24 * 2 ^ 40 + team % 2 ^ 16 * 2 ^ 24 + group % 32 * 2 ^ 19 + role % 4 * 2 ^ 17)

/-- A party's identity word (R321): its GID with bits [3:0] replaced by the device's fabric number. -/
def identWord (s : State) (gid : BitVec 64) : BitVec 64 :=
  gid ||| BitVec.ofNat 64 (s.fabNum.getD 0 % 16)

/-! ## The device error log (R418) -/

/-- One entry of the log, as bytes (Table 16.9). -/
def LogEntry.bytes (e : LogEntry) : List Byte :=
  let d := (e.detail ++ List.replicate 48 0#8).take 48
  toBytes 8 e.time.toNat ++ [e.cls, e.world] ++ toBytes 2 e.unit.toNat ++ toBytes 4 e.seq.toNat ++ d

/-- An entry arrives at the log. A full log first discards its two oldest entries and takes a class 0xFF entry whose
count is 2 (R418). -/
def State.logAdd (s : State) (cls : BitVec 8) (world : BitVec 8) (unit : BitVec 16) (detail : List Byte) : State :=
  let mk (c : BitVec 8) (w : BitVec 8) (u : BitVec 16) (q : BitVec 32) (d : List Byte) : LogEntry :=
    { time := s.cycle, cls := c, world := w, unit := u, seq := q, detail := d }
  if s.log.length < Config.logEntries then
    { s with log := s.log ++ [mk cls world unit s.logSeq detail], logSeq := s.logSeq + 1 }
  else
    { s with log := s.log.drop 2 ++ [mk 0xFF 0xFF 0xFFFF s.logSeq (toBytes 4 2), mk cls world unit (s.logSeq + 1) detail],
             logSeq := s.logSeq + 2 }

/-! ## Taking an exception -/

/-- One lane's precise trap: cause, TADDR, TINFO (Table 15.1), and the access code of R457. -/
structure LTrap where
  lane   : Nat
  cause  : BitVec 8
  addr   : BitVec 64
  info   : BitVec 64
  access : Nat
deriving DecidableEq, Repr

/-- One lane's replayable fault: cause, faulting address, access code. -/
structure LReplay where
  lane   : Nat
  cause  : BitVec 8
  va     : BitVec 64
  access : Nat
deriving DecidableEq, Repr

/-- The same trap for every lane of a set. -/
def trapSet (m : LaneSet) (cause : BitVec 8) (addr info : BitVec 64) (access : Nat) : List LTrap :=
  (lanesOf m).map fun l => { lane := l, cause := cause, addr := addr, info := info, access := access }

/-- The lanes of a list of traps. -/
def trapLanes (ts : List LTrap) : LaneSet := laneSet fun l => ts.any fun t => t.lane == l

/-- The lanes of a list of replays. -/
def replayLanes (rs : List LReplay) : LaneSet := laneSet fun l => rs.any fun r => r.lane == l

/-- Privileged mode (R372): handler mode or a service team. -/
def privileged (t : Team) (g : Group) : Bool := t.service || decide (g.tmask ≠ 0)

/-- Whether a lane's precise trap goes to the group's handler: TRAPV ≠ 0 and the lane not already in TMASK (R374, R376). -/
def toHandler (g : Group) (l : Nat) : Bool := decide (g.trapv ≠ 0) && !inSet g.tmask l

/-- `Trap` of R42 on a group: each lane records TCAUSE, TPC, TADDR and TINFO and goes TRAPPED at PCI. A trap that goes to
no handler counts as delivered: it is posted (R376). -/
def Group.takeTraps (g : Group) (pci : BitVec 64) (now : Nat) (ts : List LTrap) : Group :=
  g.mapLanes fun l x =>
    match ts.find? fun t => t.lane == l with
    | none => x
    | some t =>
      { x with st := .trapped (!toHandler g l), pc := pci, tcause := t.cause, tpc := pci, taddr := t.addr, tinfo := t.info,
               skip := false, ret := false, kept := none, seen := 0, since := now }

/-- `Replay` of R42 on a group: the lanes go REPLAYING, with the restart PC in the PC table: TREGION in user mode, the
faulting instruction's PC in handler mode (R376). -/
def Group.takeReplays (g : Group) (pci : BitVec 64) (now : Nat) (rs : List LReplay) : Group :=
  g.mapLanes fun l x =>
    match rs.find? fun r => r.lane == l with
    | none => x
    | some _ =>
      { x with st := .replaying, pc := if g.tmask ≠ 0 then pci else x.tregion, skip := false, ret := false, kept := none, seen := 0, since := now }

/-- The postings of faults met by one instruction, from (lane, cause, VA, access) in lane order: lanes with the same cause
whose addresses agree above bit `sh` make one entry, whose VA is that of the lowest of them (R42, R376, R380; log
entry 21). -/
def mkPosts (sh : Nat) (base : Posting) (fs : List (Nat × BitVec 8 × BitVec 64 × Nat)) : List Posting :=
  let key := fun (p : Nat × BitVec 8 × BitVec 64 × Nat) => (p.2.1, p.2.2.1 >>> sh)
  ((fs.map key).eraseDups).map fun k =>
    let mine := fs.filter fun p => key p == k
    let f := mine.headD (0, 0, 0, 0)
    { base with va := f.2.2.1, cause := f.2.1, access := f.2.2.2, lanes := laneSet fun i => mine.any fun p => p.1 == i }

/-- What a group's faults come to (R42, R374, R376, R379): the group with its lanes TRAPPED or REPLAYING, and the
postings for the fault queue, one per address of a precise trap and one per 64 KiB page of a replayable cause. In service mode a replayable cause is delivered as a precise trap with the same code, and a
trap that meets TRAPV = 0 ends the service's context. -/
def takeFaults (g : Group) (t : Team) (world key : Nat) (pci : BitVec 64) (now : Nat) (ts : List LTrap)
    (rs : List LReplay) : Group × List Posting :=
  let ts' := if t.service then ts ++ rs.map (fun r => { lane := r.lane, cause := r.cause, addr := r.va, info := 0,
                                                        access := r.access }) else ts
  let rs' := if t.service then [] else rs
  let base : Posting :=
    { world := world, ctx := t.ctx, va := 0, priv := decide (g.tmask ≠ 0), port := keyPort key, slot := keySlot key,
      core := keyCore key, access := 0, cause := 0, gid := g.gid, lanes := 0,
      svc := t.service && decide (g.trapv = 0), tpc := pci, wait := none }
  let lost := ts'.filter fun x => !toHandler g x.lane
  let posts := mkPosts 0 base (lost.map fun x => (x.lane, x.cause, x.addr, x.access)) ++
    mkPosts 16 { base with svc := false } (rs'.map fun x => (x.lane, x.cause, x.va, x.access))
  ((g.takeTraps pci now ts').takeReplays pci now rs', posts)

/-- Entry of lanes into the handler (R374): each gets its bit in TMASK, its PC is TRAPV and it is READY. -/
def Group.enterHandler (g : Group) (m : LaneSet) : Group :=
  { g.onLanes m (fun _ x => { x with st := .ready, pc := g.trapv, skip := false, ret := false, kept := none, seen := 0 }) with
    tmask := g.tmask ||| m }

/-- Entry for an asynchronous cause (R374 step 3): the lanes also take TCAUSE, TADDR and TINFO, and TPC is the PC at which
each would resume, which `resume` gives. -/
def Group.enterAsync (g : Group) (m : LaneSet) (cause : BitVec 8) (addr : BitVec 64) (info : Nat → BitVec 64)
    (resume : Lane → BitVec 64) : Group :=
  (g.onLanes m fun l x =>
    { x with tcause := cause, tpc := resume x, taddr := addr, tinfo := info l,
             bySave := decide (cause = cSaveRequest) && !(info l).getLsbD 8, saved := false }).enterHandler m

/-- Return from the handler (R394): TRET clears the TMASK bits of the lanes of `m`, which must stand in TMASK, and applies
the action 0 .retry, 1 .skip, 2 .exit or 3 .save to each. -/
def Group.leaveHandler (g : Group) (m : LaneSet) (action : Nat) : Group :=
  let g1 := { g with tmask := g.tmask &&& ~~~ m }
  match action with
  | 0 => g1.onLanes m fun _ x => { x with st := .ready, pc := x.tpc, skip := false }
  | 1 => g1.onLanes m fun _ x => { x with st := .ready, pc := x.tpc, skip := true }
  | 2 => g1.exitLanes m
  | _ => g1.onLanes m fun _ x => { x with st := .trapped true, saved := true, skip := false }

end Sys2Proof.Machine
end

