-- ==== Sys2Proof/Machine/Link.lean ====
section
/-! DEFINITION. Fabric links: paths to peers and detours (12_fabric_and_network.md R292), key slots and invocation counters
(R295, R296), and the flits that a link sends (R297). -/

namespace Sys2Proof.Machine

open Sys2Proof.Bits

/-! ## Key slots (R295, R296) -/

/-- Generation, invocation counter and liveness of a slot. -/
def Keys.gen (k : Keys) (slot : Bool) : Nat := if slot then k.gen1 else k.gen0
def Keys.ctr (k : Keys) (slot : Bool) : Nat := if slot then k.ctr1 else k.ctr0
def Keys.live (k : Keys) (slot : Bool) : Bool := if slot then k.live1 else k.live0

/-- Set a slot's counter. -/
def Keys.setCtr (k : Keys) (slot : Bool) (n : Nat) : Keys := if slot then { k with ctr1 := n } else { k with ctr0 := n }

/-- Erase a slot and load the next generation, the one after the other slot's, into it. -/
def Keys.reload (k : Keys) (slot : Bool) : Keys :=
  let g := k.gen (!slot) + 1
  if slot then { k with gen1 := g, ctr1 := 0, live1 := true } else { k with gen0 := g, ctr0 := 0, live0 := true }

/-- `n` flits are encrypted under the current slot. -/
def Keys.use (k : Keys) (n : Nat) : Keys := k.setCtr k.cur (k.ctr k.cur + n)

/-- A direction's keys at bring-up: slot 0 holds generation 0, slot 1 generation 1. -/
def Keys.bringUp : Keys := { gen0 := 0, gen1 := 1, ctr0 := 0, ctr1 := 0, live0 := true, live1 := true, cur := false }

/-- Invocations after which the sender changes slot. -/
def rekeyLimit : Nat := 2 ^ 32 - 2 ^ 16

/-! ## Paths (R287, R292) -/

/-- The peer of a number. -/
def State.peer? (s : State) (n : Nat) : Option Peer := s.peers.find? fun p => p.num == n

/-- A link of this device to a peer, and a state with one replaced. -/
def State.link (s : State) (p : Nat) : Link := s.links.getD p Link.fresh
def State.setLink (s : State) (p : Nat) (l : Link) : State := { s with links := s.links.set p l }

/-- A link is up: neither untrained nor taken down by 8 failures of one SEQ (R292, R299). -/
def Link.isUp (l : Link) : Bool := l.up && decide (l.fails < 8)

/-- The link that traffic for peer `p` leaves by: the direct one, or that to the lowest-numbered device whose links to both
are up; none while the peer is in reset or no path exists. -/
def State.route (s : State) (p : Nat) : Option Nat :=
  if (s.link p).reset then none
  else if (s.link p).isUp then some p
  else (List.range s.fabN).find? fun m =>
    m != p && some m != s.fabNum && (s.link m).isUp && (((s.peer? m).map Peer.links).getD 0).getLsbD p

/-- Whether a path to peer `p` exists. -/
def State.pathTo (s : State) (p : Nat) : Bool := (s.route p).isSome

/-- No path to a peer has existed for the limit (R287). -/
def State.pathLost (s : State) (p : Nat) : Bool :=
  !s.pathTo p && decide ((s.link p).lostAt + Config.pathLimit ≤ s.cycle.toNat)

/-- Requests to peer `p` get no response for now: the link they leave by waits for a flit that did not arrive or did not
authenticate, and discards every later one (R287, R297). -/
def State.inDoubt (s : State) (p : Nat) : Bool := ((s.route p).map fun m => (s.link m).nakSent).getD false

/-! ## Flits sent (R294 to R297) -/

/-- Flits that the retry buffer holds at most (R297). -/
abbrev retryLimit : Nat := 1024

/-- A number as `n` big-endian bytes (R294). -/
def beBytes (n x : Nat) : List Byte := (toBytes n x).reverse

/-- TYPE of a flit (Table 12.3). -/
abbrev tyData : Nat := 1
abbrev tyAck : Nat := 2
abbrev tyNak : Nat := 3
abbrev tyKeyswitch : Nat := 4
abbrev tyIdle : Nat := 5

/-- The header of a flit: ICL, KS, SEQ and TYPE (Table 12.3). -/
def flitHeader (ctr : Nat) (ks : Bool) (seq : BitVec 24) (ty : Nat) : List Byte :=
  beBytes 8 (ctr % 2 ^ 31 * 2 ^ 33 + (if ks then 2 ^ 32 else 0) + seq.toNat * 2 ^ 8 + ty)

/-- The 96-bit IV of a flit: LINKID, DIR and the invocation counter (R295). -/
def flitIv (id : Nat) (dir : Bool) (ctr : Nat) : Nat := id * 2 ^ 80 + (if dir then 2 ^ 79 else 0) + ctr % 2 ^ 64

/-- The link id (R284), and DIR of this device's direction of the link: 1 when it is the higher-numbered device (R295). -/
def State.linkDir (s : State) (peer : Nat) : Nat × Bool :=
  let d := s.fabNum.getD 0
  (256 * min d peer + max d peer, decide (peer < d))

/-- The 256 bytes of a flit: its header, 232 bytes of ciphertext and the tag (Table 12.3). -/
def flitBytes (id : Nat × Bool) (gen ctr : Nat) (ks : Bool) (seq : BitVec 24) (ty : Nat) (payload : List Byte) : List Byte :=
  let h := flitHeader ctr ks seq ty
  let p := (payload ++ List.replicate 232 0).take 232
  h ++ (List.range 248).map (Config.gcmByte id.1 id.2 gen (flitIv id.1 id.2 ctr) h p)

/-- The current slot is to be changed: it has used its invocations, and no earlier change is unfinished (R296). -/
def Link.spent (l : Link) : Bool := decide (rekeyLimit ≤ l.tx.ctr l.tx.cur) && l.switchAt.isNone && !l.ksOwed

/-- A slot that is used up gives way to the other one, which is current from now on; the next sequenced flit is a KEYSWITCH (R296). -/
def Link.turnSlot (l : Link) : Link := if l.spent then { l with tx := { l.tx with cur := !l.tx.cur }, ksOwed := true } else l

/-- A flit is encrypted under the next invocation of the slot that is current then, and sent. -/
def Link.emit (l0 : Link) (id : Nat × Bool) (ty : Nat) (seq : BitVec 24) (payload : List Byte) : Link :=
  let l := l0.turnSlot
  { l with tx := l.tx.use 1, wire := flitBytes id (l.tx.gen l.tx.cur) (l.tx.ctr l.tx.cur) l.tx.cur seq ty payload }

/-- A sequenced flit is sent under the next SEQ and held in the retry buffer. -/
def Link.sequence (l : Link) (id : Nat × Bool) (ks : Bool) (payload : List Byte) : Link :=
  let l1 := l.emit id (if ks then tyKeyswitch else tyData) l.txSeq payload
  { l1 with txSeq := l.txSeq + 1, retry := l.retry ++ [{ seq := l.txSeq, ks := ks, payload := payload }] }

/-- The KEYSWITCH of a changed slot is sent (R296). -/
def Link.sendSwitch (l : Link) (id : Nat × Bool) : Link :=
  { ({ l with ksOwed := false } : Link).sequence id true [] with switchAt := some l.txSeq }

/-- The retry buffer has room for a flit (R297). -/
def Link.room (l : Link) : Bool := decide (l.retry.length < retryLimit)

/-- A KEYSWITCH that is owed is sent where there is room for it. -/
def Link.settleSwitch (l : Link) (id : Nat × Bool) : Link := if l.turnSlot.ksOwed && l.room then l.turnSlot.sendSwitch id else l.turnSlot

/-- An ACK covers the KEYSWITCH: the old slot is erased and takes the next generation (R296). -/
def Link.switched (l : Link) : Link := { l with tx := l.tx.reload (!l.tx.cur), switchAt := none }

/-- Payloads leave as DATA flits, in order and after a KEYSWITCH that is owed, while the retry buffer has room; the others wait (R297). -/
def Link.sendAll (id : Nat × Bool) : List (List Byte) → Link → Link
  | [], l => l
  | p :: r, l =>
    let l1 := l.settleSwitch id
    if l1.ksOwed || !l1.room then { l1 with sendq := p :: r } else Link.sendAll id r (l1.sequence id false p)

/-- What waits for room in the retry buffer is sent as far as it goes. -/
def Link.pump (l : Link) (id : Nat × Bool) : Link := Link.sendAll id l.sendq (({ l with sendq := [] } : Link).settleSwitch id)

/-- A DATA flit is sent, behind those that wait for room. -/
def Link.sendData (l : Link) (id : Nat × Bool) (payload : List Byte) : Link :=
  ({ l with sendq := l.sendq ++ [payload] } : Link).pump id

/-- Resent flits go out again in order, each under a new invocation (R295, R297). -/
def Link.resend (l : Link) (id : Nat × Bool) (us : List Unacked) : Link :=
  us.foldl (fun a u => a.emit id (if u.ks then tyKeyswitch else tyData) u.seq u.payload) l

/-- A flit of payload travels towards peer `p`. -/
def State.sendTo (s : State) (p : Nat) (payload : List Byte := []) : State :=
  match s.route p with
  | none => s
  | some m => s.setLink m ((s.link m).sendData (s.linkDir m) payload)

/-- Key of a source or destination and a world in the end-to-end sequences (R293). -/
def e2eKey (peer world : Nat) : Nat := 16 * peer + world

/-- A request of one block of a world travels to peer `p` as one DATA flit, and takes the next end-to-end number (R293). -/
def State.sendReq (s : State) (p world : Nat) : State :=
  if s.pathTo p then
    { s.sendTo p with txE2e := sset s.txE2e (e2eKey p world) (sget s.txE2e (e2eKey p world) + 1) }
  else s

/-- A request of a peer has been answered: the response leaves, and is kept with the last 4,096 of its source and world (R293). -/
def State.respond (s : State) (src world : Nat) (seq : BitVec 32) (data : List Byte) (cause : BitVec 8) : State :=
  let mine (x : Kept) : Bool := x.src == src && x.world == world
  let kept := if 4096 ≤ (s.kept.filter mine).length then s.kept.eraseP mine else s.kept
  let s1 : State := { s with reply := if cause = 0 then data else cause :: data,
                             kept := kept ++ [{ src := src, world := world, seq := seq, data := data, cause := cause }] }
  s1.sendTo src s1.reply

end Sys2Proof.Machine
end

