-- ==== Sys2Proof/Machine/Mem.lean ====
section
/-! DEFINITION. Memory as an access meets it: the physical spaces, page ownership, cleared pages and errors, page tables
and the window, the order of access checks, caches and meters, monitors and the context's error queue
(04_memory_tiers.md, 03_names_and_swizzling.md R46 to R55, 12_fabric_and_network.md R285 to R290). -/

namespace Sys2Proof.Machine

open Sys2Proof.Bits

/-! ## Spaces -/

/-- Local device memory, host memory, and the memory of peer `n`. -/
abbrev spLocal : Nat := 0
abbrev spHost : Nat := 1
abbrev spPeer (n : Nat) : Nat := 2 + n

/-- One number for a byte of a space. -/
def locKey (space pa : Nat) : Nat := space * 2 ^ 60 + pa

/-- The bytes of a space. -/
def State.bytesOf (s : State) (space : Nat) : Memory :=
  match space with
  | 0 => s.mem
  | 1 => s.hostMem
  | n + 2 => ((s.peer? n).map (·.mem)).getD []

/-- Replace the bytes of a space. -/
def State.setBytes (s : State) (space : Nat) (m : Memory) : State :=
  match space with
  | 0 => { s with mem := m }
  | 1 => { s with hostMem := m }
  | n + 2 => { s with peers := s.peers.map fun p => if p.num == n then { p with mem := m } else p }

/-! ## Physical pages (R75, R83, R94) -/

/-- The PA ranges of Table 4.1 that are memory. -/
def isMemPa (pa : Nat) : Bool := decide (pa < Config.hbmEnd) || (decide (Config.farBase ≤ pa) && decide (pa < Config.farEnd))

/-- The carve-out of Table 4.1. -/
def isCarve (pa : Nat) : Bool := decide (Config.potBase ≤ pa) && decide (pa < Config.hbmEnd)

/-- Index of a page in the page ownership table (R83). -/
def potIndex (pa : Nat) : Nat := if pa < Config.hbmEnd then pa / 65536 else 0x800000 + (pa - Config.farBase) / 65536

/-- The page ownership entry of a PA (Table 4.4). -/
def potEntry (m : Memory) (pa : Nat) : Nat := ofBytes (sread m (Config.potBase + 4 * potIndex pa) 4)

/-- OWNER and STATE of an entry; reserved states are treated as FREE (Table 4.4). -/
def potOwner (e : Nat) : Nat := fld e 16 4
def potState (e : Nat) : Nat := if fld e 8 4 ≤ 3 then fld e 8 4 else 0

/-- The ownership check of R84: an OWNED page of the world, or a SYSTEM page of it for privileged mode or a walker. -/
def potPass (m : Memory) (world : Nat) (sys : Bool) (pa : Nat) : Bool :=
  let e := potEntry m pa
  decide (potOwner e = world) && (decide (potState e = 1) || (decide (potState e = 2) && sys))

/-- Write a page ownership entry. -/
def potWrite (m : Memory) (pa : Nat) (e : Nat) : Memory := sput m (Config.potBase + 4 * potIndex pa) (toBytes 4 e)

/-- Whether the page's bit of the cleared bitmap is set (R94). -/
def clearedBit (m : Memory) (pa : Nat) : Bool :=
  isMemPa pa && (sget m (Config.clearedBase + potIndex pa / 8)).getLsbD (potIndex pa % 8)

/-- Set or clear a page's bit of the cleared bitmap. -/
def setCleared (m : Memory) (pa : Nat) (b : Bool) : Memory :=
  let a := Config.clearedBase + potIndex pa / 8
  let x := sget m a
  let k := BitVec.twoPow 8 (potIndex pa % 8)
  sset m a (if b then x ||| k else x &&& ~~~ k)

/-- The part of a byte range that lies in its first 64 KiB page. -/
def inPage (a n : Nat) : Nat := min n (65536 - a % 65536)

/-- Bytes of a space within one page: a cleared page reads zero (R94). -/
def readPage (m : Memory) (space pa n : Nat) : List Byte :=
  if space ≠ spHost && clearedBit m pa then List.replicate n 0 else sread m pa n

/-- Bytes of a space, over at most two pages. -/
def State.readBytes (s : State) (space pa n : Nat) : List Byte :=
  let m := s.bytesOf space
  let k := inPage pa n
  readPage m space pa k ++ readPage m space (pa + k) (n - k)

/-- A number read little-endian (R2). -/
def State.readNat (s : State) (space pa n : Nat) : Nat := ofBytes (s.readBytes space pa n)

/-! ## Chunk barriers as waiters see them (R122, R125) -/

/-- A chunk barrier (Table 5.7); `rsvHi` is [127:96], `rsvLo` is [39:36]. -/
structure Bar where
  pend    : Int
  armed   : Bool
  phase   : Bool
  error   : Bool
  overrun : Bool
  rsvLo   : Nat
  cause   : Nat
  chunks  : Nat
  tile    : Nat
  rsvHi   : Nat
deriving DecidableEq, Repr

/-- A barrier from its 128 bits. -/
def barOf (x : Nat) : Bar :=
  { pend := sval 32 x, armed := bit x 32, phase := bit x 33, error := bit x 34, overrun := bit x 35, rsvLo := fld x 36 4,
    cause := fld x 40 8, chunks := fld x 48 16, tile := fld x 64 32, rsvHi := fld x 96 32 }

/-- The 128 bits of a barrier. -/
def Bar.bits (b : Bar) : Nat :=
  wrap 32 b.pend + (if b.armed then 2 ^ 32 else 0) + (if b.phase then 2 ^ 33 else 0) + (if b.error then 2 ^ 34 else 0) +
    (if b.overrun then 2 ^ 35 else 0) + b.rsvLo % 16 * 2 ^ 36 + b.cause % 256 * 2 ^ 40 + b.chunks % 65536 * 2 ^ 48 +
    b.tile % 2 ^ 32 * 2 ^ 64 + b.rsvHi % 2 ^ 32 * 2 ^ 96

/-- What a CBWAIT sees in a barrier, in the order of its checks (R134): the cause of ERROR or OVERRUN, 0xFF where its condition holds,
0 where it goes on waiting. -/
def Bar.verdict (b : Bar) (phase : Option Bool) : BitVec 8 :=
  if b.error then cCopyAborted
  else if b.overrun then cBarrierOverrun
  else if (match phase with | some p => b.phase == p | none => !b.armed) then 0xFF else 0

/-- A write reaches bytes of local memory: a peer group's monitor on their line records it, and a parked MWAIT of a peer is answered
with the bytes that it reads on return (R107 to R109). -/
def State.answerMons (s : State) (pa n : Nat) : State :=
  if s.peerMons = [] then s
  else
    let hit (m : PeerMon) : Bool := decide (m.line * 128 < pa + n) && decide (pa < m.line * 128 + 128)
    let note (m : PeerMon) : Option PeerMon :=
      if !hit m then some m else if m.wait.isSome then none else some { m with written := true }
    (s.peerMons.filter hit).foldl (fun a m =>
      match m.wait with
      | some (q, p, w) => a.respond m.src m.world q (a.readBytes spLocal p w) 0
      | none => a) { s with peerMons := s.peerMons.filterMap note }

/-- A write reaches bytes of a space: a monitor on their line records it, and an MWAIT parked on it returns (R107 to
R109); waits on device-memory barriers there see the barrier as it now stands (R125, R134). The publisher of a 64-byte slot is that of
its first 8 bytes (R129). -/
def State.touch (s : State) (space pa n : Nat) : State :=
  let hit (line : Nat) : Bool := decide (line < pa + n) && decide (pa < line + 128)
  let s0 := if space = spLocal ∧ s.pubs ≠ [] then
      { s with pubs := s.pubs.filter fun p => !(decide (p.1 * 64 < pa + n) && decide (pa < p.1 * 64 + 8)) } else s
  (if space = spLocal then s0.answerMons pa n else s0).mapGroups fun _ g =>
    let g1 := if g.mon.armed && g.mon.space == space && hit g.mon.line then
        (if g.waitsMonitor then g.returnMonitor else { g with mon := { g.mon with written := true } })
      else g
    g1.show fun w => match w with
      | Wait.barrier _ (some k) ph =>
        if k / 2 ^ 60 == space && hit (k % 2 ^ 60 / 128 * 128) then (barOf (s.readNat space (k % 2 ^ 60) 16)).verdict (ph.map g1.phaseBit) else 0
      | _ => 0

/-- The first write to a cleared page fills it with zeros and clears its bit (R94); the fill counts on its owner's meter (R91). -/
def State.fillPage (s : State) (space pa : Nat) : State :=
  let m := s.bytesOf space
  if space ≠ spHost && clearedBit m pa then
    let p := pa / 65536 * 65536
    let s0 := s.setBytes space (setCleared (sclear m p 65536) pa false)
    if space = spLocal then
      let s1 := s0.meter (potOwner (potEntry m pa)) (if Config.farBase ≤ pa then 3 else 2) 65536
      { s1 with eccBad := s1.eccBad.filter (fun q => decide (q / 4096 ≠ p / 65536)),
                eccSoft := s1.eccSoft.filter (fun q => decide (q / 4096 ≠ p / 65536)),
                tagBad := s1.tagBad.filter (fun q => decide (q / 1024 ≠ p / 65536)) }
    else s0
  else s

/-- Put bytes into a space, over at most two pages, with the page fill of R94 and the wakes of R107, whatever errors stand there. -/
def State.poke (s : State) (space pa : Nat) (bs : List Byte) : State :=
  let k := inPage pa bs.length
  let s1 := s.fillPage space pa
  let s2 := if k < bs.length then s1.fillPage space (pa + k) else s1
  (s2.setBytes space (sput (s2.bytesOf space) pa bs)).touch space pa bs.length

/-! ## Errors in memory (R92, R93) -/

/-- Whether a 16-byte sector, and a 64-byte line, share bytes with a range. -/
def sectorMeets (pa n q : Nat) : Bool := decide (q * 16 < pa + n) && decide (pa < q * 16 + 16)
def lineMeets (pa n q : Nat) : Bool := decide (q * 64 < pa + n) && decide (pa < q * 64 + 64)

/-- Whether a 64-byte line holds an uncorrectable sector: it is then uncorrectable, whatever its tag (R93). -/
def lineBad (bad : List Nat) (line : Nat) : Bool := bad.any fun q => q / 4 == line

/-- The error that a read of bytes meets in memory with these uncorrectable sectors and mismatching tags: an uncorrectable sector
first, then, in confidential mode, a line whose tag mismatches. -/
def readError (bad tags : List Nat) (conf : Bool) (pa n : Nat) : Option (BitVec 8) :=
  if bad.any (sectorMeets pa n) then some cDataUncorrectable
  else
    match (if conf then tags.filter (lineMeets pa n) else []) with
    | [] => none
    | ls => if ls.any (lineBad bad) then some cDataUncorrectable else some cIntegrity

/-- The error a read of local bytes meets, also where the LLC holds them (log 74). -/
def State.dataError (s : State) (pa n : Nat) : Option (BitVec 8) :=
  if clearedBit s.mem pa then none else readError s.eccBad s.tagBad s.conf pa n

/-- A demand read corrects what ECC can correct and writes it back (R92). -/
def State.correct (s : State) (pa n : Nat) : State := { s with eccSoft := s.eccSoft.filter fun q => !sectorMeets pa n q }

/-- The blocks that writes of byte ranges lose to errors in the read of a partial write (R92, R93): first byte, size and cause. -/
def lostBlocks (bad tags : List Nat) (conf : Bool) (rs : List (Nat × Nat)) : List (Nat × Nat × BitVec 8) :=
  let touched (b sz : Nat) : Bool := rs.any fun r => decide (b < r.1 + r.2) && decide (r.1 < b + sz)
  let covered (b sz : Nat) : Bool := (List.range sz).all fun i => rs.any fun r => decide (r.1 ≤ b + i) && decide (b + i < r.1 + r.2)
  let badS := bad.filter fun q => touched (q * 16) 16 && !covered (q * 16) 16
  let badL := if conf then tags.filter (fun q => touched (q * 64) 64 && !covered (q * 64) 64) else []
  badS.map (fun q => (q * 16, 16, cDataUncorrectable)) ++
    badL.map (fun q => (q * 64, 64, if lineBad bad q then cDataUncorrectable else cIntegrity))

/-- Store pieces of bytes to local memory. A sector with an uncorrectable error that is not wholly overwritten keeps its
contents and the bytes for it are lost; so, in confidential mode, does a line whose tag mismatches. A sector or line that is wholly
overwritten is good again, and what ECC can correct has been corrected by the write's own read. The second result gives the lost
blocks (R92, R93). -/
def State.storeLocal (s : State) (cs : List (Nat × List Byte)) : State × List (Nat × Nat × BitVec 8) :=
  let soft (t : State) : State := { t with eccSoft := t.eccSoft.filter fun q => !cs.any fun c => sectorMeets c.1 c.2.length q }
  if s.eccBad = [] ∧ s.tagBad = [] then (soft (cs.foldl (fun a c => a.poke spLocal c.1 c.2) s), [])
  else
    let s0 := cs.foldl (fun a c => a.fillPage spLocal c.1) s
    let rs := cs.map fun c => (c.1, c.2.length)
    let lost := lostBlocks s0.eccBad s0.tagBad s0.conf rs
    let keep (a : Nat) : Bool := !lost.any fun b => decide (b.1 ≤ a) && decide (a < b.1 + b.2.1)
    let s1 := cs.foldl (fun a c => (List.range c.2.length).foldl (fun a i =>
      if keep (c.1 + i) then a.poke spLocal (c.1 + i) [c.2.getD i 0] else a) a) s0
    let whole (b sz : Nat) : Bool := (List.range sz).all fun i => rs.any fun r => decide (r.1 ≤ b + i) && decide (b + i < r.1 + r.2)
    (soft { s1 with eccBad := s1.eccBad.filter (fun q => !whole (q * 16) 16),
                    tagBad := s1.tagBad.filter (fun q => !whole (q * 64) 64) }, lost)

/-- Write bytes of a space (R92 for local memory). -/
def State.writeBytes (s : State) (space pa : Nat) (bs : List Byte) : State :=
  if space = spLocal then (s.storeLocal [(pa, bs)]).1 else s.poke space pa bs

/-- Write a number little-endian. -/
def State.writeNat (s : State) (space pa n x : Nat) : State := s.writeBytes space pa (toBytes n x)

/-! ## Page tables (R76 to R79) -/

/-- Fields of a page table entry (Table 4.3). -/
def pteP (e : Nat) : Bool := bit e 0
def pteLeaf (e : Nat) : Bool := bit e 1
def pteW (e : Nat) : Bool := bit e 2
def pteX (e : Nat) : Bool := bit e 3
def pteU (e : Nat) : Bool := bit e 4
def pteNc (e : Nat) : Bool := bit e 5
def pteAddr (e : Nat) : Nat := fld e 12 40 * 4096
def ptePeer (e : Nat) : Nat := fld e 56 8
def pteRotIdx (e : Nat) : Nat := fld e 64 20
def pteRotV (e : Nat) : Bool := bit e 84

/-- How a walk ends (R78). -/
inductive Walk
  /-- a present leaf: the entry and log2 of its page size -/
  | leaf (pte size : Nat)
  /-- the first entry with P = 0; `isLeaf`: it stands where a leaf stands -/
  | absent (pte : Nat) (isLeaf : Bool)
  | cause (c : BitVec 8)
deriving DecidableEq, Repr

/-- The levels of Table 4.2 from level 0: lowest VA bit indexed, bits, whether a leaf may stand there, whether one always
does, and the alignment of the next level's table. -/
def ptLevels : List (Nat × Nat × Bool × Bool × Nat) :=
  [(47, 9, false, false, 8192), (38, 9, false, false, 8192), (29, 9, true, false, 4096), (21, 8, true, false, 4096),
   (16, 5, true, true, 0)]

/-- Whether a walker acting for a world may read a page (R79, R51); what is no memory raises PAGE_PROTECTION (log 75). -/
def walkerPass (m : Memory) (world pa : Nat) (sysOnly : Bool) : Option (BitVec 8) :=
  if !isMemPa pa then some cPageProtection
  else if isCarve pa then some cOwnership
  else
    let e := potEntry m pa
    if potOwner e = world ∧ (potState e = 2 ∨ (potState e = 1 ∧ !sysOnly)) then none else some cOwnership

/-- Walk from a table through the remaining levels (R76 to R79): the addresses of the entries read, and how the walk ends. An entry is
read as a load is: where memory returns an error for it, that is the walk's cause (R92, R93). -/
def State.walkFrom (s : State) (world va : Nat) : Nat → List (Nat × Nat × Bool × Bool × Nat) → List Nat × Walk
  | _, [] => ([], .cause cPageProtection)
  | tbl, (lo, w, mayLeaf, always, nextAlign) :: r =>
    let ea := tbl + 16 * fld va lo w
    match walkerPass s.mem world ea true with
    | some c => ([], .cause c)
    | none =>
      match s.dataError ea 16 with
      | some c => ([ea], .cause c)
      | none =>
        let e := ofBytes (readPage s.mem spLocal ea 16)
        let isLeaf := always || (mayLeaf && pteLeaf e)
        let local_ : Bool := ptePeer e == 0xFF || some (ptePeer e) == s.fabNum
        if !pteP e then ([ea], .absent e isLeaf)
        else if !mayLeaf && pteLeaf e then ([ea], .cause cPageProtection)
        else if isLeaf then
          if pteAddr e % 2 ^ lo ≠ 0 then ([ea], .cause cPageProtection)
          else if ptePeer e ≠ 0xFF ∧ ptePeer e ≠ 0xF0 ∧ 0x0F < ptePeer e then ([ea], .cause cPageProtection)
          else if local_ && !isMemPa (pteAddr e) then ([ea], .cause cPageProtection)
          else ([ea], .leaf e lo)
        else if pteAddr e % nextAlign ≠ 0 then ([ea], .cause cPageProtection)
        else
          let rest := s.walkFrom world va (pteAddr e) r
          (ea :: rest.1, rest.2)

/-- Whether a VA lies in the window span, and in the plain span (R74). -/
def inWindow (va : Nat) : Bool := va / 2 ^ 56 == 0x80
def inPlain (va : Nat) : Bool := va / 2 ^ 56 == 0

/-- The page walk of a VA in a context: the entries it reads, and how it ends. -/
def State.walkSteps (s : State) (c : Context) (va : Nat) : List Nat × Walk :=
  if inWindow va then s.walkFrom c.world va c.wroot ptLevels
  else if inPlain va then s.walkFrom c.world va c.proot ptLevels
  else ([], .cause cPageProtection)

/-- How the page walk of a VA ends. -/
def State.walk (s : State) (c : Context) (va : Nat) : Walk := (s.walkSteps c va).2

/-! ## TLBs and walkers (R80, R81) -/

/-- The compute die whose TLB and walkers an access uses: that of the core whose port issues; an engine's is die 0's (log 15). -/
def State.die (s : State) : Nat :=
  match s.turn with
  | some (core, _) => core / 96
  | none => 0

/-- The TLBs an access looks up, by number: 0 to 191 the cores' L1 TLBs, 192 to 215 the clusters' L2 TLBs, 216 and 217 the dies'. An
engine uses its die's only. -/
def State.tlbUnits (s : State) : List Nat :=
  match s.turn with
  | some (core, _) => [core, 192 + core / 8, 216 + core / 96]
  | none => [216]

/-- Entries that a TLB holds at most (R80). -/
def tlbSize (unit : Nat) : Nat := if unit < 192 then 64 else if unit < 216 then 2048 else 4096

/-- Page walkers of a die (R81). -/
abbrev walkersPerDie : Nat := 64

/-- Whether a TLB entry covers a VA. -/
def TlbEntry.covers (e : TlbEntry) (asid va : Nat) : Bool := e.asid == asid && e.va == va / 2 ^ e.size * 2 ^ e.size

/-- The TLB entry that covers a VA, in the order of the levels (R80). -/
def State.tlbFind (s : State) (asid va : Nat) : Option TlbEntry :=
  s.tlbUnits.findSome? fun u => s.tlb.find? fun e => e.unit == u && e.covers asid va

/-- The walk of a VA's 64 KiB page that the access would join (R81). -/
def State.walkOf (s : State) (asid va : Nat) : Option PageWalk :=
  s.walks.find? fun w => w.die == s.die && w.asid == asid && w.va == va / 65536 * 65536

/-- Translation: the result of the walk that the access joins or makes, or, while a TLB holds another leaf, either of the two (R82; the
choice is free). -/
def State.translate (s : State) (c : Context) (va : Nat) : Walk :=
  let w :=
    match (s.walkOf c.asid va).bind (·.leaf) with
    | some l => .leaf l.1.toNat l.2
    | none => s.walk c va
  match s.tlbFind c.asid va with
  | none => w
  | some e =>
    let old := Walk.leaf e.pte.toNat e.size
    if old = w then w else if Config.freeBit (s.tick + 2 ^ 32 * va) then old else w

/-- One TLB takes a leaf; when it is full an entry, which one is free, leaves it first. -/
def State.tlbPut (s : State) (e : TlbEntry) : State :=
  if s.tlb.any fun x => x.unit == e.unit && x.covers e.asid e.va && x.size == e.size then s
  else
    let mine := s.tlb.filter fun x => x.unit == e.unit
    if mine.length < tlbSize e.unit then { s with tlb := s.tlb ++ [e] }
    else
      let (n, s1) := s.freeBelow mine.length
      match mine[n]? with
      | some x => { s1 with tlb := s1.tlb.erase x ++ [e] }
      | none => s1

/-- The TLBs of some units take the leaf that a walk of a VA has found (R80). -/
def State.tlbFill (s : State) (units : List Nat) (asid va : Nat) (leaf : BitVec 128 × Nat) : State :=
  units.foldl (fun a u => a.tlbPut { unit := u, asid := asid, va := va / 2 ^ leaf.2 * 2 ^ leaf.2, size := leaf.2, pte := leaf.1 }) s

/-- A walk, or a queued miss, of a page on a die. -/
def PageWalk.page (w : PageWalk) (die asid page : Nat) : Bool := w.die == die && w.asid == asid && w.va == page

/-- No walker of a die is free for a miss of a page: those at work, and the misses that queue before it, take them all (R81). -/
def State.walkerBusy (s : State) (die asid page : Nat) : Bool :=
  let here := s.walks.filter fun w => w.die == die
  let before := (here.filter fun w => w.leaf.isNone).takeWhile fun w => !w.page die asid page
  decide (walkersPerDie ≤ (here.filter fun w => w.leaf.isSome).length + before.length)

/-- An access misses and cannot start its walk: no TLB holds its page, no walk of the page has its result, and no walker of the die is
free for it. -/
def State.walkQueued (s : State) (c : Context) (va : Nat) : Bool :=
  (s.tlbFind c.asid va).isNone && ((s.walkOf c.asid va).bind (·.leaf)).isNone && s.walkerBusy s.die c.asid (va / 65536 * 65536)

/-- A miss that finds no walker queues, once for each page (R81). -/
def State.queueWalk (s : State) (c : Context) (va : Nat) : State :=
  if s.walkQueued c va && (s.walkOf c.asid va).isNone then
    let x : PageWalk := { die := s.die, asid := c.asid, va := va / 65536 * 65536, ctx := c.num, units := s.tlbUnits, leaf := none,
                          install := true }
    { s with walks := s.walks ++ [x] }
  else s

/-! ## The Resident Object Table (R54, R55) -/

/-- An entry of the ROT (Tables 3.5, 3.6). -/
structure RotEnt where
  idx    : Nat
  obj    : Nat
  hold   : Nat
  realm  : Nat
  rights : Nat
  kind   : Nat
  policy : Nat
  st     : Nat
  base   : Nat
  size   : Nat
deriving DecidableEq, Repr

/-- Read entry `idx` of a context's ROT. -/
def rotRead (m : Memory) (c : Context) (idx : Nat) : RotEnt :=
  let b := readPage m spLocal (c.rotBase + 32 * idx) 32
  let w := ofBytes ((b.drop 8).take 8)
  { idx := idx, obj := ofBytes (b.take 8), hold := fld w 32 16, realm := fld w 16 16, rights := fld w 8 4, kind := fld w 4 3,
    policy := fld w 2 2, st := fld w 0 2, base := ofBytes ((b.drop 16).take 8), size := fld (ofBytes ((b.drop 24).take 8)) 0 44 }

/-- The bytes of a ROT entry. -/
def RotEnt.bytes (e : RotEnt) : List Byte :=
  toBytes 8 e.obj ++
  toBytes 8 (e.hold * 2 ^ 32 + e.realm * 2 ^ 16 + e.rights * 2 ^ 8 + e.kind * 16 + e.policy * 4 + e.st) ++
  toBytes 8 e.base ++ toBytes 8 e.size

/-- The name walk of R55: the ROT entry whose range holds a window address, none where no range does. A walk that ends in a cause gives
that cause to whatever makes it (log 75). -/
def State.nameWalk (s : State) (c : Context) (va : Nat) : Except (BitVec 8) (Option RotEnt) :=
  let use (pte : Nat) : Except (BitVec 8) (Option RotEnt) :=
    if pteRotV pte ∧ pteRotIdx pte < 2 ^ c.rotLog2 then
      match walkerPass s.mem c.world (c.rotBase + 32 * pteRotIdx pte) false with
      | some cause => .error cause
      | none => .ok (some (rotRead s.mem c (pteRotIdx pte)))
    else .ok none
  match s.translate c va with
  | .leaf pte _ => use pte
  | .absent pte isLeaf => if isLeaf then use pte else .ok none
  | .cause cause => .error cause

/-- The LIVE or DEPARTED range that holds a window address (R49, R60, R70). -/
def State.rangeOf (s : State) (c : Context) (va : Nat) : Except (BitVec 8) (Option RotEnt) :=
  match s.nameWalk c va with
  | .error e => .error e
  | .ok none => .ok none
  | .ok (some e) => if e.st = 0 ∨ va < e.base then .ok none else .ok (some e)

/-! ## The order of access checks (Table 4.11) -/

/-- What an access does, for its checks (R50, R78) and for R457. -/
inductive Acc
  | read | write | exec | atomic
  /-- a conversation access: checked as an atomic, with USE in place of WRITE (R324) -/
  | use
deriving DecidableEq, Repr

/-- Where an access lands: the space, the physical address, and NC. -/
structure Loc where
  space : Nat
  pa    : Nat
  nc    : Bool
deriving DecidableEq, Repr

/-- The right an access needs (R50, R324 step 5). -/
def Acc.right (a : Acc) : Nat :=
  match a with
  | .read => 0
  | .write => 1
  | .atomic => 1
  | .exec => 2
  | .use => 3

/-- Whether an access writes (W of R78). -/
def Acc.writes (a : Acc) : Bool :=
  match a with
  | .write => true
  | .atomic => true
  | .use => true
  | _ => false

/-- Whether an access reads data (steps 7 and 8 of Table 4.11). -/
def Acc.reads (a : Acc) : Bool := a != .write

/-- The space a leaf's PEER names. -/
def peerSpace (s : State) (peer : Nat) : Nat :=
  if peer = 0xFF ∨ some peer = s.fabNum then spLocal else if peer = 0xF0 then spHost else spPeer peer

/-- Steps 2 and 3 of Table 4.11: bounds and rights of a window address. The result says whether the range is DEPARTED. -/
def State.windowCheck (s : State) (c : Context) (acc : Acc) (va n : Nat) : Except (BitVec 8) Bool :=
  if inWindow va then
    match s.rangeOf c va with
    | .error e => .error e
    | .ok none => .error cObjectBounds
    | .ok (some e) =>
      if e.size < va - e.base + n then .error cObjectBounds
      else if !bit e.rights acc.right then .error cNameRights
      else .ok (decide (e.st ≠ 1))
  else .ok false

/-- Steps 2 to 6 of Table 4.11 for an access of `n` bytes within one page, made in a context, in user or privileged mode.
Step 1 (alignment) is the caller's. -/
def State.resolve6 (s : State) (c : Context) (priv : Bool) (acc : Acc) (va n : Nat) : Except (BitVec 8) Loc :=
  match s.windowCheck c acc va n with
  | .error e => .error e
  | .ok departed =>
    match s.translate c va with
    | .cause e => .error e
    | .absent _ _ => .error (if departed then cObjectDeparted else cPageNotPresent)
    | .leaf pte size =>
      if (acc.writes && !pteW pte) || (acc == .exec && !pteX pte) || (!priv && !pteU pte) then .error cPageProtection
      else
        let pa := pteAddr pte + va % 2 ^ size
        let space := peerSpace s (ptePeer pte)
        if space = spLocal then
          if isCarve pa then .error cOwnership
          else if !isMemPa pa then .error cPageProtection
          else if !potPass s.mem c.world priv pa then .error cOwnership
          else .ok { space := space, pa := pa, nc := pteNc pte }
        else .ok { space := space, pa := pa, nc := pteNc pte }

/-- Steps 2 to 7 of Table 4.11; step 8 is `State.reach`. -/
def State.resolve (s : State) (c : Context) (priv : Bool) (acc : Acc) (va n : Nat) : Except (BitVec 8) Loc :=
  match s.resolve6 c priv acc va n with
  | .error e => .error e
  | .ok l =>
    match (if acc.reads && l.space == spLocal then s.dataError l.pa n else none) with
    | some e => .error e
    | none => .ok l

/-! ## Reaching a location (R285 to R287) -/

/-- What an access or request to memory with these tables and errors meets there (R83, R84, R92, R93), for a request that reads its
bytes or writes the ranges `rs`: the cause that its home refuses it with. -/
def refusal (m : Memory) (bad tags : List Nat) (conf : Bool) (world : Nat) (priv reads : Bool) (pa n : Nat)
    (rs : List (Nat × Nat)) : Option (BitVec 8) :=
  if !isMemPa pa then some cPageProtection
  else if isCarve pa || !potPass m world priv pa then some cOwnership
  else if clearedBit m pa then none
  else if reads then readError bad tags conf pa n
  else (lostBlocks bad tags conf rs).head?.map (·.2.2)

/-- The check of a remote request by its home (R285, R286): the cause it refuses with. A request carries the mode of its requester
(log 64). -/
def State.homeCheck (s : State) (peer world : Nat) (priv : Bool) (acc : Acc) (pa n : Nat)
    (rs : List (Nat × Nat) := [(pa, n)]) : Option (BitVec 8) :=
  match s.peer? peer with
  | none => some cPageProtection
  | some p => refusal p.mem p.bad p.tags s.conf world priv acc.reads pa n rs

/-- What an access to a location meets beyond the local checks: nothing, a refusal by the home, no path, or requests in
doubt. -/
inductive Reach
  | ok
  | refused (cause : BitVec 8)
  | noPath
  | doubt
deriving DecidableEq, Repr

/-- Step 8 of Table 4.11. An access to host memory fails while the host link is down, with the code of a request that was never sent
(log 65). -/
def State.reach (s : State) (world : Nat) (priv : Bool) (acc : Acc) (l : Loc) (n : Nat) : Reach :=
  match l.space with
  | 0 => .ok
  | 1 => if s.unreachable then .refused 0xF0 else .ok
  | p + 2 =>
    if !s.pathTo p then .noPath
    else if s.inDoubt p then .doubt
    else
      match s.homeCheck p world priv acc l.pa n with
      | some c => .refused c
      | none => .ok

/-- The PEER byte of a space (Table 12.2). -/
def peerByte (space : Nat) : Nat := if space = spLocal then 0xFF else if space = spHost then 0xF0 else space - 2

/-- TINFO of a precise REMOTE_LOAD_FAILED (R287). -/
def remoteInfo (peer : Nat) (code : Nat) : BitVec 64 := BitVec.ofNat 64 (peer % 256 + 256 * (code % 256))

/-- The code that a request that was never sent gets at the limit (R287). -/
def State.limitCode (s : State) (peer : Nat) : Nat :=
  if (s.link peer).reset then 0xF1 else 0xF0

/-! ## Requests, caches and meters (R86 to R91) -/

/-- The smallest naturally aligned block of 16, 32, 64 or 128 bytes that holds the bytes `lo` to `hi` of one 128-byte
segment (R90): its base and size. -/
def blockOf (lo hi : Nat) : Nat × Nat :=
  if lo / 16 = hi / 16 then (lo / 16 * 16, 16)
  else if lo / 32 = hi / 32 then (lo / 32 * 32, 32)
  else if lo / 64 = hi / 64 then (lo / 64 * 64, 64)
  else (lo / 128 * 128, 128)

/-- The coalescer's requests for byte ranges (address, length), each within one page (R90): blocks, ascending by
segment. -/
def coalesce (rs : List (Nat × Nat)) : List (Nat × Nat) :=
  let segs := (rs.flatMap fun r =>
    (List.range ((r.1 + r.2 - 1) / 128 - r.1 / 128 + 1)).map fun i => r.1 / 128 + i).eraseDups
  segs.map fun g =>
    let parts := rs.filterMap fun r =>
      let lo := max r.1 (g * 128)
      let hi := min (r.1 + r.2) (g * 128 + 128)
      if lo < hi then some (lo, hi - 1) else none
    blockOf (parts.foldl (fun a p => min a p.1) (g * 128 + 127)) (parts.foldl (fun a p => max a p.2) (g * 128))

/-- The memory slice, 0 to 31, that owns a PA (R75, Table 4.1): 16 per compute die. -/
def sliceOf (pa : Nat) : Nat :=
  if pa < Config.hbmEnd then
    let stack := fld pa 36 3
    16 * (stack / 4) + 3 * (stack % 4) + fld pa 8 28 % 3
  else 16 * fld pa 11 1 + 12 + fld pa 9 2

/-- The least that memory fetches or writes at a PA, aligned (R91): a sector of HBM, 32 bytes of the far tier, 64 bytes in
confidential mode. -/
def State.unitAt (s : State) (pa : Nat) : Nat := if s.conf then 64 else if Config.farBase ≤ pa then 32 else 16

/-- Count bytes at memory on the world's HBM or far-tier meter (R91). -/
def State.meterBytes (s : State) (world pa n : Nat) : State := s.meter world (if Config.farBase ≤ pa then 3 else 2) n

/-- Memory fetches or writes a block (R91). -/
def State.meterMem (s : State) (world pa size : Nat) : State := s.meterBytes world pa (max size (s.unitAt pa))

/-- Whether ranges of written bytes cover a block wholly. -/
def covers (rs : List (Nat × Nat)) (b n : Nat) : Bool :=
  (List.range n).all fun i => rs.any fun r => decide (r.1 ≤ b + i) && decide (b + i < r.1 + r.2)

/-- The sectors of a 128-byte line that satisfy a predicate of their first byte. -/
def sectorSet (line : Nat) (p : Nat → Bool) : BitVec 8 :=
  BitVec.ofNat 8 ((List.range 8).foldl (fun a i => if p (line * 128 + 16 * i) then a + 2 ^ i else a) 0)

/-- The modified sectors of a line are written to memory: every unit that holds one, which memory first reads where the LLC does not
hold it whole (R91, R102). -/
def State.writeBack (s : State) (l : LlcLine) : State :=
  let u := s.unitAt (l.line * 128) / 16
  let some_ (k : Nat) (x : BitVec 8) : Bool := (List.range u).any fun i => x.getLsbD (u * k + i)
  let all_ (k : Nat) (x : BitVec 8) : Bool := (List.range u).all fun i => x.getLsbD (u * k + i)
  let n := (List.range (8 / u)).foldl (fun a k =>
    if some_ k l.dirty then a + 16 * u + (if all_ k l.sectors then 0 else 16 * u) else a) 0
  if n = 0 then s else s.meterBytes l.world (l.line * 128) n

/-- Take a line out of the LLC, writing its modified sectors to memory on the meters (R88, R102). -/
def State.llcDrop (s : State) (l : LlcLine) : State :=
  ({ s with llc := s.llc.filter fun x => !(x.world == l.world && x.line == l.line) }).writeBack l

/-- Make room for a line of a world in its set (R88): when the set holds as many of the world's lines as it has ways, one
leaves; .stream lines leave first, then default lines, .keep lines last, and which of its kind is free. A line's set is its number
modulo 4,096 (log 66). -/
def State.llcRoom (s : State) (world line : Nat) : State :=
  let ways := popc 16 (((s.world world).ways.getD (sliceOf (line * 128)) 0).toNat)
  let mine := s.llc.filter fun x => x.world == world && x.line % 4096 == line % 4096 && sliceOf (x.line * 128) == sliceOf (line * 128)
  if mine.length < ways then s
  else
    let first := mine.foldl (fun a x => min a x.place) 2
    let pick := mine.filter fun x => x.place == first
    let (i, s1) := s.freeBelow pick.length
    match pick[i]? with
    | some l => s1.llcDrop l
    | none => s1

/-- Place of a hint in replacement (Table 4.6). -/
def hintPlace (hint : Nat) : Nat := if hint = 1 then 0 else if hint = 2 then 2 else 1

/-- A read of a block at the LLC (R87 to R91): placement by the hint, and the world's meters. A cleared page is not fetched
(R94). -/
def State.llcRead (s : State) (world hint pa size : Nat) : State :=
  let line := pa / 128
  let sec := sectorSet line fun a => decide (pa ≤ a) && decide (a < pa + size)
  let bypass := hint == 3 || decide ((s.world world).ways.getD (sliceOf pa) 0 = 0)
  if clearedBit s.mem pa then s
  else
    match s.llc.find? fun x => x.world == world && x.line == line with
    | some l =>
      if sec &&& ~~~ l.sectors = 0 then s
      else
        let s1 := s.meterMem world pa size
        if bypass then s1
        else { s1 with llc := s1.llc.map fun x =>
                 if x.world == world && x.line == line then { x with sectors := x.sectors ||| sec } else x }
    | none =>
      if bypass then s.meterMem world pa size
      else
        let s1 := (s.llcRoom world line).meterMem world pa size
        { s1 with llc := s1.llc ++ [{ world := world, line := line, sectors := sec, dirty := 0, place := hintPlace hint }] }

/-- A write of a block goes to memory: its units, which memory first reads where the write does not cover them (R91). -/
def State.writeThrough (s : State) (world pa size : Nat) (rs : List (Nat × Nat)) : State :=
  let u := max size (s.unitAt pa)
  let s1 := s.meterMem world pa size
  if covers rs (pa / u * u) u then s1 else s1.meterMem world pa size

/-- A write of the byte ranges `rs` in a block at the LLC: a present line is updated; another is allocated, and what the write does
not cover is read first (R87 to R91). -/
def State.llcWrite (s : State) (world hint pa size : Nat) (rs : List (Nat × Nat)) : State :=
  let line := pa / 128
  let sec := sectorSet line fun a => decide (pa ≤ a) && decide (a < pa + size)
  let mod := sectorSet line fun a => rs.any fun r => decide (r.1 < a + 16) && decide (a < r.1 + r.2)
  let bypass := hint == 3 || decide ((s.world world).ways.getD (sliceOf pa) 0 = 0)
  let whole := covers rs pa size
  match s.llc.find? fun x => x.world == world && x.line == line with
  | some l =>
    let miss := decide (sec &&& ~~~ l.sectors ≠ 0)
    if bypass && miss then
      let s1 := s.writeThrough world pa size rs
      { s1 with llc := s1.llc.map fun x =>
          if x.world == world && x.line == line then { x with dirty := x.dirty &&& ~~~ (mod &&& x.sectors) } else x }
    else
      let s1 := if miss && !whole then s.meterMem world pa size else s
      { s1 with llc := s1.llc.map fun x =>
          if x.world == world && x.line == line then { x with sectors := x.sectors ||| sec, dirty := x.dirty ||| mod } else x }
  | none =>
    if bypass then s.writeThrough world pa size rs
    else
      let s0 := s.llcRoom world line
      let s1 := if whole then s0 else s0.meterMem world pa size
      { s1 with llc := s1.llc ++ [{ world := world, line := line, sectors := sec, dirty := mod, place := hintPlace hint }] }

/-- NoC ports: the clusters' 0 to 23, the memory slices' 24 to 55, and that of the I/O die. -/
abbrev ioPort : Nat := 56
def clusterPort (core : Nat) : Nat := core / 8
def slicePort (pa : Nat) : Nat := 24 + sliceOf pa

/-- A payload of `n` bytes leaves a cluster's or slice's NoC port in AES blocks of 16 bytes, which advance the counter of its flow
(R410). -/
def State.nocCount (s : State) (src dst world n : Nat) : State :=
  let k := (src * 64 + dst) * 16 + world
  if s.conf && decide (src < ioPort) && src != dst then { s with noc := sset s.noc k (sget s.noc k + BitVec.ofNat 64 ((n + 15) / 16)) } else s

/-- The NoC port that an access issued now uses. -/
def State.nocPort (s : State) : Nat :=
  match s.turn with
  | some (core, _) => clusterPort core
  | none => ioPort

/-- The local requests of a read of byte ranges, on the caches and meters; data comes from the slices to NoC port `port`. -/
def State.readLocal (s : State) (world port hint : Nat) (rs : List (Nat × Nat)) : State :=
  (coalesce rs).foldl (fun a b => (a.llcRead world hint b.1 b.2).nocCount (slicePort b.1) port world b.2) s

/-- The local requests of a write of byte ranges; data goes from NoC port `port` to the slices. -/
def State.wroteLocal (s : State) (world port hint : Nat) (rs : List (Nat × Nat)) : State :=
  (coalesce rs).foldl (fun a b => (a.llcWrite world hint b.1 b.2 rs).nocCount port (slicePort b.1) world b.2) s

/-- A request of one block leaves for a peer: it counts on the fabric meter and takes the next end-to-end number (R285, R293). The bytes
of a write go from NoC port `port` to the I/O die (R410). -/
def State.sendBlock (s : State) (world port peer : Nat) (write : Bool) (size : Nat) : State :=
  ((if write then s.nocCount port ioPort world size else s).meter world 4 size).sendReq peer world

/-- The requests that leave for a peer. None leaves while no path exists. -/
def State.sendBlocks (s : State) (world port peer : Nat) (write : Bool) (rs : List (Nat × Nat)) : State :=
  if s.pathTo peer then (coalesce rs).foldl (fun a b => a.sendBlock world port peer write b.2) s else s

/-- The requests to host memory: the bytes of a write cross the NoC to the I/O die (R410). -/
def State.hostBlocks (s : State) (world port : Nat) (write : Bool) (rs : List (Nat × Nat)) : State :=
  if write then (coalesce rs).foldl (fun a b => a.nocCount port ioPort world b.2) s else s

/-- The requests of an access to byte ranges (space, address, length), on the caches and meters. -/
def State.account (s : State) (world port : Nat) (write : Bool) (hint : Nat) (rs : List (Nat × Nat × Nat)) : State :=
  let part (sp : Nat) : List (Nat × Nat) := (rs.filter fun r => r.1 == sp).map (·.2)
  let s1 := if write then s.wroteLocal world port hint (part spLocal) else s.readLocal world port hint (part spLocal)
  (((rs.filter fun r => decide (2 ≤ r.1)).map (·.1)).eraseDups).foldl (fun a sp => a.sendBlocks world port (sp - 2) write (part sp))
    (s1.hostBlocks world port write (part spHost))

/-! ## Structures that the device itself keeps in memory -/

/-- The device reads a structure of a world: the read counts on the caches and meters as every other does (R91). -/
def State.devRead (s : State) (world pa n : Nat) : State := (s.readLocal world s.nocPort 0 [(pa, n)]).correct pa n

/-- The device writes bytes of a structure of a world (R91). -/
def State.devWrite (s : State) (world pa : Nat) (bs : List Byte) : State :=
  (s.wroteLocal world s.nocPort 0 [(pa, bs.length)]).writeBytes spLocal pa bs

/-- The device, or an instruction that works on one, may read and write a registered ring at an address (R84). -/
def State.ringPass (s : State) (world pa : Nat) : Bool := (walkerPass s.mem world pa false).isNone

/-- A word of a registered ring's descriptor, or an entry: the state that has read it, and its value, zero where the page is not the
world's. -/
def State.ringGet (s : State) (world pa n : Nat) : State × Nat :=
  if s.ringPass world pa then (s.devRead world pa n, s.readNat spLocal pa n) else (s, 0)

/-- Bytes written to a registered ring: a page that is not the world's any more takes nothing (R83, R84). -/
def State.ringPut (s : State) (world pa : Nat) (bs : List Byte) : State :=
  if s.ringPass world pa then s.devWrite world pa bs else s

/-! ## Walks in flight (R79 to R81) -/

/-- The entries that a walk reads, on the caches and meters of its context's world (R79), and, for a window address, the entry of the
object table that its leaf names (R55): the first byte of each, and its size. -/
def State.entriesOf (s : State) (c : Context) (va : Nat) : List (Nat × Nat) :=
  let w := s.walkSteps c va
  let rot (pte : Nat) : List (Nat × Nat) :=
    if inWindow va && pteRotV pte && decide (pteRotIdx pte < 2 ^ c.rotLog2) then [(c.rotBase + 32 * pteRotIdx pte, 32)] else []
  w.1.map (fun e => (e, 16)) ++
    match w.2 with
    | .leaf pte _ => rot pte
    | .absent pte true => rot pte
    | _ => []

/-- Entries are read through the LLC. -/
def State.readEntries (s : State) (world port : Nat) (es : List (Nat × Nat)) : State :=
  es.foldl (fun a e => (a.readLocal world port 0 [e]).correct e.1 e.2) s

/-- The NoC port of the access that first asked for a walk, by its TLBs. -/
def PageWalk.port (w : PageWalk) : Nat :=
  match w.units with
  | u :: _ => if u < 192 then clusterPort u else ioPort
  | [] => ioPort

/-- A walk ends: its leaf, unless a TLBINV has been issued since (R397), goes into the TLBs of its die. Its walker is free for the first
miss that queues there (`State.walkerBusy`). -/
def State.endWalk (s : State) (w : PageWalk) : State :=
  let s1 := { s with walks := s.walks.erase w }
  match w.leaf with
  | some leaf => if w.install then s1.tlbFill w.units w.asid w.va leaf else s1
  | none => s1

/-- A walker takes a miss `x`. It reads the entries; where it finds a leaf it stays in flight until its completion installs the leaf; of a
failed walk nothing stays (R80, R81). -/
def State.runWalk (s : State) (c : Context) (x : PageWalk) : State :=
  let s1 := s.readEntries c.world x.port (s.entriesOf c x.va)
  let others := s1.walks.filter fun y => !y.page x.die x.asid x.va
  match s.walk c x.va with
  | .leaf pte size => { s1 with walks := others ++ [{ x with leaf := some (BitVec.ofNat 128 pte, size), install := true }] }
  | _ => { s1 with walks := others }

/-- An access asks for a page and no walker is free for it: it goes on when the walks in flight have ended that hold those walkers (R81).
-/
def State.freeWalker (s : State) (c : Context) (va : Nat) : State :=
  (s.walks.filter fun w => w.die == s.die && w.leaf.isSome).foldl (fun a w => if a.walkQueued c va then a.endWalk w else a) s

/-- A page's translation is asked for. What a TLB holds fills the levels before it; a walk in flight serves this access too; otherwise a
walk starts (R80, R81). -/
def State.startWalk (s : State) (c : Context) (va : Nat) : State :=
  match s.tlbFind c.asid va with
  | some e => s.tlbFill s.tlbUnits c.asid va (e.pte, e.size)
  | none =>
    let page := va / 65536 * 65536
    if ((s.walkOf c.asid va).bind (·.leaf)).isSome then
      { s with walks := s.walks.map fun y =>
          if y.page s.die c.asid page then { y with units := (y.units ++ s.tlbUnits).eraseDups } else y }
    else
      (s.freeWalker c va).runWalk c
        { die := s.die, asid := c.asid, va := page, ctx := c.num, units := s.tlbUnits, leaf := none, install := true }

/-- The walks of an access, one for each page. -/
def State.fillTlbs (s : State) (c : Context) (vas : List Nat) : State :=
  ((vas.map (· / 65536)).eraseDups).foldl (fun a p => a.startWalk c (p * 65536)) s

/-- While an access waits for walkers, each page of it that has one begins its walk, and each other miss queues (R81). One whose walk
will fail waits for the access, which takes the cause. -/
def State.beginWalk (s : State) (c : Context) (va : Nat) : State :=
  if s.walkQueued c va then s.queueWalk c va
  else
    match s.tlbFind c.asid va, (s.walkOf c.asid va).bind (·.leaf), s.walk c va with
    | none, none, .leaf _ _ => s.startWalk c va
    | _, _, _ => s

/-- The pages of an access that must wait for a walker, as far as they can be walked. -/
def State.queueWalks (s : State) (c : Context) (vas : List Nat) : State := vas.foldl (fun a va => a.beginWalk c va) s

/-- An access to some addresses must wait for a walker (R81). -/
def State.walksWait (s : State) (c : Context) (vas : List Nat) : Bool :=
  let s1 := s.queueWalks c vas
  vas.any fun va => s1.walkQueued c va

/-! ## The L1 (R86) -/

/-- Lines of a core's L1: 128 KiB (R1). -/
abbrev l1Lines : Nat := 1024

/-- Drop the L1 lines of a core (R274). -/
def State.l1Clear (s : State) (core : Nat) : State := s.setCore core { s.core core with l1 := [] }

/-- Drop one line from a core's L1. -/
def State.l1Drop (s : State) (core key : Nat) : State :=
  s.setCore core { s.core core with l1 := (s.core core).l1.filter fun x => x.line != key / 128 }

/-- Drop the lines of a byte range from a core's L1. -/
def State.l1DropRange (s : State) (core space pa n : Nat) : State :=
  (List.range ((pa + n - 1) / 128 - pa / 128 + 1)).foldl (fun a k => a.l1Drop core (locKey space (pa + 128 * k))) s

/-- Any of the lines of some locations may have left a core's L1 by now; which have is free. -/
def State.l1Age (s : State) (core : Nat) (locs : List (Nat × Nat)) : State :=
  locs.foldl (fun a x => if Config.freeBit (s.tick + 2 ^ 33 * (x.2 / 128 + 1)) then a.l1Drop core (locKey x.1 x.2) else a) s

/-- The core's L1 supplies a load of a scope at a location (R86). -/
def State.l1Supplies (s : State) (core scope space pa : Nat) : Bool :=
  decide (scope < 2) && (s.core core).l1.any fun x => x.line == locKey space pa / 128

/-- Bytes of a space as a load of a core sees them: a load of scope .grp or .team takes them from the L1 where the L1 holds their line;
every other load takes them from the LLC or beyond. -/
def State.loadBytes (s : State) (core scope space pa n : Nat) : List Byte :=
  match (if scope < 2 then (s.core core).l1.find? fun x => x.line == locKey space pa / 128 else none) with
  | some l => sread l.bytes (pa % 128) n
  | none => s.readBytes space pa n

/-- A load fills or refreshes the core's L1 (R86, Table 4.6). A full L1 first loses a line; which one is free. -/
def State.l1Fill (s : State) (core scope hint space pa : Nat) : State :=
  let key := locKey space pa / 128
  let c := s.core core
  let copy : L1Line := { line := key, bytes := scells 0 (s.readBytes space (pa / 128 * 128) 128) }
  if c.l1.any fun x => x.line == key then
    if scope < 2 then s
    else s.setCore core { c with l1 := c.l1.map fun x => if x.line == key then copy else x }
  else if scope < 2 && hint != 1 && hint != 3 then
    if c.l1.length < l1Lines then s.setCore core { c with l1 := c.l1 ++ [copy] }
    else
      let (i, s1) := s.freeBelow c.l1.length
      s1.setCore core { c with l1 := c.l1.eraseIdx i ++ [copy] }
  else s

/-- A store updates any L1 copy of the core (R86). -/
def State.l1Store (s : State) (core space pa : Nat) (bs : List Byte) : State :=
  let key := locKey space pa / 128
  let c := s.core core
  if c.l1.any fun x => x.line == key then
    s.setCore core { c with l1 := c.l1.map fun x => if x.line == key then { x with bytes := sput x.bytes (pa % 128) bs } else x }
  else s

/-! ## The context's error queue (R288 to R290) -/

/-- The 32 bytes of an error-queue record (Table 12.2). -/
def errBytes (va : BitVec 64) (peer : BitVec 8) (cause : BitVec 8) (width flags : Nat) (cycle : BitVec 64)
    (pc gid : BitVec 64) : List Byte :=
  toBytes 8 va.toNat ++ [peer, cause, BitVec.ofNat 8 width, BitVec.ofNat 8 flags] ++ toBytes 4 (fld cycle.toNat 12 32) ++
    toBytes 8 pc.toNat ++ toBytes 8 gid.toNat

/-- A record arrives at a context's error queue (R289, R290): appended, dropped and counted when the ring is full, or
written to the device error log when no queue is registered, or when the descriptor lies in a page that is not the world's any more (R84;
log 75). A resident group of the record has ERROR_QUEUE_NONEMPTY
pending afterwards. -/
def State.errRecord (s : State) (ctx : Nat) (va : BitVec 64) (peer cause : BitVec 8) (width : Nat) (exited maybe : Bool)
    (pc : BitVec 64) (who : Option (BitVec 64)) : State :=
  let gid := who.getD 0
  let fl := (if exited then 1 else 0) + (if maybe then 2 else 0)
  match s.ctx? ctx with
  | none => s.logAdd 0x07 0xFF 0xFFFF (toBytes 2 ctx ++ errBytes va peer cause width fl s.cycle pc gid)
  | some c =>
    match c.errq with
    | none =>
      s.logAdd 0x07 (BitVec.ofNat 8 c.world) 0xFFFF (toBytes 2 ctx ++ errBytes va peer cause width fl s.cycle pc gid)
    | some q =>
      if !s.ringPass c.world q.desc then
        s.logAdd 0x07 (BitVec.ofNat 8 c.world) 0xFFFF (toBytes 2 ctx ++ errBytes va peer cause width fl s.cycle pc gid)
      else
        let (sw, w) := s.ringGet c.world q.desc 8
        let (sr, r) := sw.ringGet c.world (q.desc + 128) 8
        if (w + 2 ^ 64 - r) % 2 ^ 64 < 2 ^ q.n then
          let fl' := fl + (if c.errLost then 4 else 0)
          let s1 := sr.ringPut c.world (q.desc + 4096 + 32 * (w % 2 ^ q.n)) (errBytes va peer cause width fl' s.cycle pc gid)
          let s2 := (s1.ringPut c.world q.desc (toBytes 8 (w + 1))).setCtx { c with errLost := false }
          s2.mapGroups fun _ g =>
            if some g.gid == who && ((s2.team? g.team).map (·.ctx)) == some ctx then { g with errReq := true } else g
        else
          let (sl, n) := sr.ringGet c.world (q.desc + 256) 4
          (sl.ringPut c.world (q.desc + 256) (toBytes 4 (n + 1))).setCtx { c with errLost := true }

/-- Records for the lost blocks of a local store (R92, R93): peer 0xFF marks local memory. The VA of a record is the
store's own address with the block's low bits. -/
def State.errLostBlocks (s : State) (ctx : Nat) (pc : BitVec 64) (who : Option (BitVec 64)) (lost : List (Nat × Nat × BitVec 8))
    (va : Nat → BitVec 64) : State :=
  lost.foldl (fun a b => a.errRecord ctx (va b.1) 0xFF b.2.2 b.2.1 false false pc who) s

end Sys2Proof.Machine
end

