-- ==== Sys2Proof/Machine/Operands.lean ====
section
/-! DEFINITION. Type codes (Table 2.11, Table 8.1), the operand forms of the 7-bit and 10-bit source fields (Tables 2.5,
2.8), what an instruction may name (R18 to R22), reading a source (`ReadSrc`) and writing a result (`WriteDst`) of
02_instruction_words.md R42. -/

namespace Sys2Proof.Machine

open Sys2Proof.Bits

/-! ## Type codes -/

/-- Width in bits of a type code (Table 8.1). -/
def tyW (ty : Nat) : Nat :=
  match ty with
  | 0 | 4 | 12 | 13 => 8
  | 1 | 5 | 8 | 9 => 16
  | 2 | 6 | 10 => 32
  | 14 => 4
  | _ => 64

/-- Sub-elements of a 64-bit register under a type code (R180). -/
def tyP (ty : Nat) : Nat := 64 / tyW ty

/-- Signed integer types S8 to S64. -/
def tySigned (ty : Nat) : Bool := decide (ty ≤ 3)

/-- Integer types, codes 0 to 7. -/
def tyInt (ty : Nat) : Bool := decide (ty ≤ 7)

/-- Floating types, codes 8 to 13. -/
def tyFloat (ty : Nat) : Bool := decide (8 ≤ ty) && decide (ty ≤ 13)

/-- Exponent and fraction bits of a floating type (Table 7.1). -/
def fexp (ty : Nat) : Nat :=
  match ty with
  | 8 => 5
  | 9 => 8
  | 10 => 8
  | 11 => 11
  | 12 => 4
  | _ => 5

def ffrac (ty : Nat) : Nat :=
  match ty with
  | 8 => 10
  | 9 => 7
  | 10 => 23
  | 11 => 52
  | 12 => 3
  | _ => 2

/-- Exponent bias of a floating type (Table 7.1). -/
def fbias (ty : Nat) : Nat := 2 ^ (fexp ty - 1) - 1

/-! ## Source operands -/

/-- What a source field names. -/
inductive Src
  | v (n : Nat)
  | g (n : Nat)
  /-- an immediate: its value and its bits read unsigned -/
  | imm (val : Int) (raw : Nat)
  /-- latch L1 to L4 -/
  | latch (n : Nat)
  | zero | lane | grp | team | role | ones
  | bad
deriving DecidableEq, Repr

/-- A special source by its number (Tables 2.5, 2.8). -/
def special (n : Nat) : Src :=
  match n with
  | 0 => .zero
  | 1 => .lane
  | 2 => .grp
  | 3 => .team
  | 4 => .role
  | 5 => .ones
  | _ => .bad

/-- The 7-bit source field (Table 2.5). -/
def src7 (x : BitVec 7) : Src :=
  let n := x.toNat
  if n < 64 then .v n
  else if n < 80 then .g (n - 64)
  else if n < 96 then .imm (sval 4 n) (n % 16)
  else if n < 100 then .latch (n - 95)
  else if n < 112 then .bad
  else special (n - 112)

/-- The 10-bit source field (Table 2.8); v384 to v511 are reserved. -/
def src10 (x : BitVec 10) : Src :=
  let n := x.toNat
  if n < 384 then .v n
  else if n < 512 then .bad
  else if n < 576 then .g (n - 512)
  else if n < 640 then .bad
  else if n < 768 then .imm (sval 7 n) (n % 128)
  else if n < 896 then
    let k := n - 768
    if k < 4 then .latch (k + 1) else if 16 ≤ k then special (k - 16) else .bad
  else .bad

/-- Sources of an operand that must be uniform: g registers, immediates and specials other than %lane. -/
def Src.uniform (s : Src) : Bool :=
  match s with
  | .g _ | .imm _ _ | .zero | .grp | .team | .role | .ones => true
  | _ => false

/-- Sources of an address operand: anything but an immediate. -/
def Src.address (s : Src) : Bool :=
  match s with
  | .imm _ _ | .bad => false
  | _ => true

/-- g registers only. -/
def Src.isG (s : Src) : Bool :=
  match s with
  | .g _ => true
  | _ => false

/-- Immediates only. -/
def Src.isImm (s : Src) : Bool :=
  match s with
  | .imm _ _ => true
  | _ => false

/-- Vector registers only. -/
def Src.isV (s : Src) : Bool :=
  match s with
  | .v _ => true
  | _ => false

/-- The g register a source names, 0 for another kind. -/
def Src.gnum (s : Src) : Nat :=
  match s with
  | .g n => n
  | _ => 0

/-- The bits of an immediate read unsigned, 0 for another kind. -/
def Src.raw (s : Src) : Nat :=
  match s with
  | .imm _ r => r
  | _ => 0

/-- A source that its field encodes and the group's budget allows (R15, R17, R19). -/
def Src.ok (s : Src) (budget : Nat) : Bool :=
  match s with
  | .bad => false
  | .v n => decide (n < 8 * budget)
  | _ => true

/-- The latch a source reads, if any. -/
def Src.latchNo (s : Src) : List Nat :=
  match s with
  | .latch n => [n]
  | _ => []

/-! ## Immediates (R22) -/

/-- The bits of a small integer in a floating type; exact for every immediate (R22). -/
def smallFloat (ty : Nat) (i : Int) : Nat :=
  let m := i.natAbs
  if m = 0 then 0
  else
    let e := m.log2
    (if i < 0 then 2 ^ (tyW ty - 1) else 0) + (fbias ty + e) * 2 ^ ffrac ty + (m - 2 ^ e) * 2 ^ (ffrac ty - e)

/-- An immediate placed into every sub-element of the type (R22). -/
def splat (ty : Nat) (i : Int) : BitVec 64 :=
  let x := if tyFloat ty then smallFloat ty i else wrap (tyW ty) i
  pack (tyW ty) (List.replicate (tyP ty) x)

/-- Whether the type takes an immediate (R22). -/
def immOk (ty : Nat) : Bool := !(ty == 12 || ty == 13 || ty == 14)

/-! ## The issuing instruction -/

/-- The view an instruction has of its issue: the port and slot, the group and its team and context as they stand, the run
in progress, PCI (the PC of the prefix where there is one, R42), the sub-group, the prefix, and CYCLE. -/
structure Iss where
  core : Nat
  port : Nat
  key  : Nat
  g    : Group
  t    : Team
  c    : Context
  run  : Run
  pci  : BitVec 64
  now  : Nat
deriving DecidableEq, Repr

/-- The sub-group. -/
def Iss.sub (i : Iss) : LaneSet := i.run.sub

/-- The active lanes of a guard (R42 `Active`). -/
def Iss.act (i : Iss) (guard : Nat) : LaneSet := i.run.sub &&& i.g.kget guard

/-- The offset of the team's ring in its allocation (R114). -/
def Team.ringStart (t : Team) : Nat := t.scr * 4096 - 1024

/-- The size of the team's allocation. -/
def Team.size (t : Team) : Nat := t.scr * 4096

/-- `ReadSrc` of R42 for lane `l` under a type. -/
def Iss.read (i : Iss) (s : Src) (l ty : Nat) : BitVec 64 :=
  match s with
  | .v n => i.g.vget n l
  | .g n => i.g.gget n
  | .imm x _ => splat ty x
  | .latch n => sget i.run.latch (32 * (n - 1) + l)
  | .zero => 0
  | .lane => BitVec.ofNat 64 l
  | .grp => BitVec.ofNat 64 (gidGroup i.g.gid)
  | .team => BitVec.ofNat 64 (gidTeam i.g.gid)
  | .role => BitVec.ofNat 64 (gidRole i.g.gid)
  | .ones => BitVec.allOnes 64
  | .bad => 0

/-- A uniform source as a 64-bit value, an immediate sign-extended. -/
def Iss.uni (i : Iss) (s : Src) : BitVec 64 := i.read s 0 15

/-- What an instruction leaves to be finished: the run's latches, the lanes that trap, replay, park, branch or exit, those
whose PC and state it has set itself (`left`), and whether it ends the idempotent region (R369). -/
structure Eff where
  latch   : Sparse 64
  filled  : Nat
  traps   : List LTrap
  replays : List LReplay
  parks   : List (LaneSet × Wait)
  jumps   : List (Nat × BitVec 64)
  exits   : LaneSet
  left    : LaneSet
  region  : Bool
deriving DecidableEq, Repr

/-- Nothing but going on. -/
def Iss.eff (i : Iss) : Eff :=
  { latch := i.run.latch, filled := i.run.filled, traps := [], replays := [], parks := [], jumps := [], exits := 0,
    left := 0, region := false }

/-- The latches after a result: L1 takes it in the lanes of `m` and 0 elsewhere, and the others shift (R42, R145). -/
def Eff.shift (e : Eff) (m : LaneSet) (res : Nat → BitVec 64) : Eff :=
  { e with latch := sput (sput e.latch 32 (sread e.latch 0 96)) 0 (lanes32.map fun l => if inSet m l then res l else 0),
           filled := min (e.filled + 1) 4 }

/-- `WriteDst` of R42 for a vector register: latches shift, and the register is written in the lanes of `m` unless
NW = 1. -/
def writeDst (g : Group) (e : Eff) (d : Nat) (nw : Bool) (m : LaneSet) (res : Nat → BitVec 64) : Group × Eff :=
  (if nw then g else g.vset d m res, e.shift m res)

/-! ## Destination checks (R18, R19) -/

/-- D names a vector register that the encoding and the budget allow. -/
def dvOk (d : Nat) (budget : Nat) : Bool := decide (d < 384) && decide (d < 8 * budget)

/-- D names a g register: the bits above the low six are zero (R18). -/
def dgOk (d : Nat) : Bool := decide (d < 64)

/-- D names a k, j or cv register: the bits above the low three are zero (R18). -/
def d8Ok (d : Nat) : Bool := decide (d < 8)

end Sys2Proof.Machine
end

