-- ==== Sys2Proof/Machine/Exit.lean ====
section
/-! DEFINITION. What a group's end and its leaving a slot do: parked GROWs granted (06_registers_and_scratchpad.md R143,
R144), team and role barriers completed (14_execution_and_scheduling.md R367), and the group's exit (R344). -/

namespace Sys2Proof.Machine

open Sys2Proof.Bits

/-- The budget a group holds blocks for: the next run's where it differs (R142). -/
def Group.curBudget (g : Group) : Nat := g.budgetNext.getD g.budget

/-- The deadlines of a context count again when no group of it is halted (R383). -/
def State.restartDeadline (s : State) (ctx : Nat) : State :=
  match s.ctx? ctx with
  | none => s
  | some c =>
    let still := s.groups.any fun p => p.2.halted && ((s.team? p.2.team).map (·.ctx)) == some ctx
    match c.stopped with
    | some t => if still then s else s.setCtx { c with deadline := c.deadline + (s.cycle.toNat - t), stopped := none }
    | none => s

/-- Grant the parked GROWs of a port from the head of its queue while the head's request fits (R143, R144). The budget becomes the
target, also where it has come to exceed it since. -/
def grantFrom (c p : Nat) : List GrowWait → State → State
  | [], s => s.setPort c p { (s.core c).port p with waitq := [] }
  | w :: r, s =>
    match s.group? (slotKey c p w.slot) with
    | none => grantFrom c p r s
    | some g =>
      let port := (s.core c).port p
      if w.target ≤ port.pool + g.curBudget then
        let g1 := (g.onLanes w.lanes fun _ x =>
          if x.st = .parked .grow then { x with st := .ready, pc := x.pc + 8, tregion := x.pc + 8 } else x)
        let g2 := if w.target < g.curBudget then g1.cutV w.target else g1
        let s1 := s.setGroup (slotKey c p w.slot) { g2 with budgetNext := some w.target }
        grantFrom c p r (s1.setPort c p { port with pool := port.pool + g.curBudget - w.target })
      else s.setPort c p { port with waitq := w :: r }

/-- Grant what fits on a port. -/
def State.grantGrows (s : State) (c p : Nat) : State := grantFrom c p ((s.core c).port p).waitq s

/-- Blocks return to a port's pool (R144). -/
def State.freeBlocks (s : State) (c p n : Nat) : State :=
  let port := (s.core c).port p
  (s.setPort c p { port with pool := port.pool + n }).grantGrows c p

/-- The resident groups of a team with their slot keys. -/
def State.teamGroups (s : State) (t : Team) : List (Nat × Group) :=
  t.groups.filterMap fun x => (s.group? x.2).map fun g => (x.2, g)

/-- A group has arrived at a barrier when every lane that is not EXITED is parked there (R367). -/
def arrivedAt (p : Wait → Bool) (g : Group) : Bool :=
  lanes32.all fun l =>
    match (g.lane l).st with
    | .exited => true
    | .parked w => p w
    | _ => false

/-- Waits at TBAR, and at RBAR. -/
def Wait.isTbar (w : Wait) : Bool :=
  match w with
  | .tbar _ => true
  | _ => false

def Wait.isRbar (w : Wait) : Bool :=
  match w with
  | .rbar _ => true
  | _ => false

/-- Complete a barrier over groups when every one of them has arrived: all wake at PC + 12, and an acquire at .dev or
wider drops the core's L1 lines (R367, R274). -/
def State.completeBarrier (s : State) (core : Nat) (p : Wait → Bool) (gs : List (Nat × Group)) : State :=
  if gs ≠ [] ∧ gs.all (fun x => arrivedAt p x.2) then
    let wide := gs.any fun x => lanes32.any fun l =>
      match (x.2.lane l).st with
      | .parked (.tbar sc) => decide (2 ≤ sc)
      | .parked (.rbar sc) => decide (2 ≤ sc)
      | _ => false
    let s1 := gs.foldl (fun a x => a.setGroup x.1 (x.2.wake p fun y => y.pc + 12)) s
    if wide then s1.l1Clear core else s1
  else s

/-- Check a team's barrier and its role barriers (R367). A group that has been saved has not arrived. -/
def State.checkBarriers (s : State) (tid : Nat) : State :=
  match s.team? tid with
  | none => s
  | some t =>
    if t.savedGrp ≠ [] then s
    else
    let s1 := s.completeBarrier t.core Wait.isTbar (s.teamGroups t)
    (List.range 4).foldl (fun a r =>
      a.completeBarrier t.core Wait.isRbar ((a.teamGroups t).filter fun x => gidRole x.2.gid == r)) s1

/-- The world a team runs in: the firmware team runs in world 0, every other in its context's (R372, R84). -/
def State.teamWorld (s : State) (t : Team) : Nat := if t.firmware then 0 else ((s.ctx? t.ctx).map (·.world)).getD 1

/-- The submitter's record of a group. -/
def originOf (t : Team) (world key : Nat) (gid pc : BitVec 64) : Origin :=
  { team := some t.tid, ctx := t.ctx, world := world, gid := gid, pc := pc, port := keyPort key, slot := keySlot key,
    peer := 0xFF }

/-- The base and the header line's location of the object of a role register, for a CLEAVE that the device makes itself: steps 4 and 5 of
R324 on this device, none where one of them fails. -/
def State.leaveTarget (s : State) (c : Context) (a : Nat) : Option (Nat × Loc) :=
  match (if inWindow a then s.rangeOf c a else .ok none) with
  | .ok (some r) =>
    if r.kind = 2 ∧ bit r.rights 3 ∧ 0x4640 ≤ r.size then
      match s.resolve c true .use r.base 128 with
      | .ok l => some (r.base, l)
      | .error _ => none
    else none
  | _ => none

/-- The CLEAVE of one bound role register, which the device sends for a group that exits or is discarded (R322, R389). One that a check
of R324 fails is dropped; a home on a peer checks it when it is performed. `orphan`: the group is no longer there for the answer. -/
def State.leaveRole (s : State) (t : Team) (key : Nat) (gid : BitVec 64) (cvs : Sparse 64) (orphan : Bool) (n : Nat) : State :=
  let cv := (sget cvs n).toNat
  match s.ctx? t.ctx with
  | none => s
  | some c =>
    if bit cv 63 then
      let a := 0x80 * 2 ^ 56 + fld cv 16 40 * 2 ^ 16
      let world := s.teamWorld t
      let s1 := s.fillTlbs c [a]
      match s.leaveTarget c a with
      | none => s1
      | some (base, l) =>
        let s2 := s1.account world (clusterPort t.core) false 0 [(l.space, l.pa, 128)]
        let s3 := if 2 ≤ l.space then s2.sendReq (l.space - 2) world else s2
        { s3 with convs := s3.convs ++
          [{ kind := .leave, core := t.core, org := originOf t world key gid 0, lanes := 0, space := l.space,
             pa := l.pa, base := BitVec.ofNat 64 base, role := fld cv 56 4, mkind := 0, count := 0, pay := [],
             who := identWord s gid, epoch := fld cv 0 16, target := 0, dreg := n, areg := 0, held := false,
             withdrawn := false, orphan := orphan, parked := false, src := none, again := false }] }
    else s

/-- The CLEAVEs of a group's bound role registers, in ascending register order (R322). -/
def State.leaveRoles (s : State) (t : Team) (key : Nat) (gid : BitVec 64) (cvs : Sparse 64) (orphan : Bool) : State :=
  (List.range 8).foldl (fun a n => a.leaveRole t key gid cvs orphan n) s

/-- A CLEAVE of an exiting group has not been answered. -/
def State.leaving (s : State) (key : Nat) (g : Group) : Bool :=
  s.convs.any fun o => o.kind == .leave && !o.orphan && o.org.gid == g.gid && slotKey o.core o.org.port o.org.slot == key

/-- The error-queue record of a pending Plate error (R229). -/
def State.recordPlateErr (s : State) (t : Team) (g : Group) (exited : Bool) : State :=
  match g.plateErr with
  | none => s
  | some e => s.errRecord t.ctx 0 0xFF e.cause 0 exited false e.pc (some g.gid)

/-- A group loses its ring slot (R115). -/
def Team.dropRing (t : Team) (group : Nat) : Team :=
  { t with ring := t.ring.map fun r => if r = .held group then .free else r }

/-- A group leaves its slot: its ring slot, blocks, bank selection, monitor and slot are freed (R344, R387). -/
def State.vacate (s : State) (t : Team) (key : Nat) (g : Group) : State :=
  let c := keyCore key
  let p := keyPort key
  let t1 := { t.dropRing (gidGroup g.gid) with groups := t.groups.filter fun x => x.2 != key }
  let core := s.core c
  let port := core.port p
  let run := if (port.run.map fun r => r.slot) = some (keySlot key) then none else port.run
  let port1 := { port with run := run, waitq := port.waitq.filter fun w => w.slot != keySlot key }
  let core1 := { core.setPort p port1 with
    plate := { core.plate with waiters := core.plate.waiters.filter fun w => !(w.port == p && w.slot == keySlot key) } }
  let s1 := ({ s with groups := s.groups.filter (fun x => x.1 != key),
                      remotes := s.remotes.filter fun r => !(r.ready && r.core == c && r.org.gid == g.gid) }.setTeam t1).setCore c core1
  (s1.freeBlocks c p g.curBudget).restartDeadline t.ctx

/-- A group whose lanes have all exited and whose CLEAVEs are answered leaves its slot, after which the team's barriers may be
complete (R344, R367). -/
def State.leaveSlot (s : State) (key : Nat) : State :=
  match s.group? key with
  | none => s
  | some g =>
    if !g.allExited || s.leaving key g then s
    else
      match s.team? g.team with
      | none => s
      | some t => ((s.recordPlateErr t g true).vacate t key g).checkBarriers t.tid

/-- The exit of a group (R344): its CLEAVEs are sent, and it stays in its slot until they are answered. -/
def State.groupExit (s : State) (key : Nat) : State :=
  match s.group? key with
  | none => s
  | some g =>
    match s.team? g.team with
    | none => s
    | some t =>
      if s.leaving key g then s
      else ((s.leaveRoles t key g.gid g.cv false).checkBarriers t.tid).leaveSlot key

end Sys2Proof.Machine
end

