-- ==== Sys2Proof/Machine/Flags.lean ====
section
/-! DEFINITION. FFLAGS and the modes an arithmetic instruction issues under (07_number_formats.md R168 to R170, prefix
fields of Table 2.14). -/

namespace Sys2Proof.Machine

open Sys2Proof.Bits

/-- A set of flags, as the bits of Table 7.7. -/
abbrev Flags := BitVec 32

abbrev fNone : Flags := 0
abbrev fNV : Flags := 1
abbrev fDZ : Flags := 2
abbrev fOF : Flags := 4
abbrev fUF : Flags := 8
abbrev fNX : Flags := 16
abbrev fSAT : Flags := 32

/-- Rounding modes by FMODE RM code (Table 7.4). -/
inductive Rm
  | rne | rtz | rup | rdn | rna | dither
deriving DecidableEq, Repr

/-- The mode of an RM code; reserved codes never stand in FMODE (R168, R171). -/
def rmOf (n : Nat) : Rm :=
  match n with
  | 1 => .rtz
  | 2 => .rup
  | 3 => .rdn
  | 4 => .rna
  | 5 => .dither
  | _ => .rne

/-- The modes under which an instruction rounds (R42 `RoundTo`, R169, R170): rounding, flush of subnormals, SAT, NF, and
the dither phase. -/
structure Modes where
  rm    : Rm
  flush : Bool
  sat   : Bool
  nf    : Bool
  dph   : Nat
deriving DecidableEq, Repr

/-- The modes of an issue: FMODE with the prefix's overrides. -/
def Iss.modes (i : Iss) : Modes :=
  let rnd := (i.run.pfx.map fun p => p.rnd.toNat).getD 0
  let sub := (i.run.pfx.map fun p => p.sub.toNat).getD 0
  { rm := if rnd = 0 then rmOf (fld i.g.fmode.toNat 0 3) else rmOf (rnd - 1),
    flush := if sub = 0 then decide (fld i.g.fmode.toNat 3 2 = 1) else decide (sub = 2),
    sat := (i.run.pfx.map fun p => p.sat).getD false,
    nf := (i.run.pfx.map fun p => p.nf).getD false,
    dph := fld i.g.fmode.toNat 8 6 }

/-- The modes of an instruction that does not take DITHER: RM = 5 rounds RNE (R164). -/
def Modes.plain (m : Modes) : Modes := if m.rm = .dither then { m with rm := .rne } else m

/-- A CSRD of FFLAGS that still waits takes a free part of the flags that a later instruction delivers (R169). -/
def FlagWait.take (w : FlagWait) (f : Flags) : FlagWait :=
  if w.shut then w else { w with late := w.late ||| (f &&& (Config.freeReg w.seed w.next).setWidth 32), next := w.next + 1 }

/-- Flags raised by an instruction accumulate into FFLAGS unless NF = 1 (R169). -/
def Group.raise (g : Group) (m : Modes) (f : Flags) : Group :=
  if m.nf then g else { g with fflags := g.fflags ||| f, csrd := g.csrd.map fun w => w.take f }

/-- The union of flags. -/
def orFlags (l : List Flags) : Flags := l.foldl (· ||| ·) 0

end Sys2Proof.Machine
end

