-- ==== Sys2Proof/Machine/Issue.lean ====
section
/-! DEFINITION. The issue of one instruction: the order of checks (02_instruction_words.md R29, R32, R33; the run check of
14_execution_and_scheduling.md R352), and how an issued instruction is finished: traps and replays taken, lanes parked,
the PC table, TREGION and the run brought forward (R42, R346, R351, R369). -/

namespace Sys2Proof.Machine

open Sys2Proof.Bits

/-- What a step of the machine answers. -/
abbrev Out := Host.Outcome State Fault Refusal

/-- Which prefix fields an instruction accepts (Table 2.15). -/
inductive PfxClass
  /-- not an accepting instruction -/
  | none
  /-- RND 1–5, SAT, SUB, NF -/
  | float
  /-- RND 1–6, SAT, SUB, NF -/
  | conv
  /-- SAT only -/
  | sat
  /-- no field -/
  | zero
deriving DecidableEq, Repr

/-- Privilege of an instruction (R372, Table 15.11). -/
inductive Priv
  | user
  /-- privileged mode: handler or service -/
  | priv
  /-- service mode only: a group of a privileged team -/
  | service
deriving DecidableEq, Repr

/-- What the checks of R29 need to know of an instruction. -/
structure Head where
  /-- words (R10) -/
  len : Nat
  rb  : Bool
  nw  : Bool
  /-- its destination is a vector register, so NW is allowed (R13) -/
  vdst : Bool
  /-- step 1 fails for another reason: TY, W fields, AUX, RB where it must stand -/
  bad : Bool
  priv : Priv
  pfx : PfxClass
  /-- it is a pair: slots that step 1 refuses are in `bad`; this is the pair check of step 5 -/
  badPair : Bool
  /-- latches it reads -/
  latches : List Nat
deriving DecidableEq, Repr

/-- The fields of a prefix that an instruction does not accept (R32, Table 2.15). -/
def pfxBad (p : FmtP) (k : PfxClass) : Bool :=
  p.nw || p.rnd == 7 || p.sub == 3 ||
  match k with
  | .none => true
  | .float => p.rnd == 6
  | .conv => false
  | .sat => p.rnd != 0 || p.sub != 0 || p.nf
  | .zero => p.rnd != 0 || p.sat || p.sub != 0 || p.nf

/-- The issue that a port is making: none where no port is (State.turn), or where its run, group, team or context is not
there. -/
def State.iss? (s : State) : Option Iss :=
  match s.turn with
  | none => none
  | some (c, p) =>
    match ((s.core c).port p).run with
    | none => none
    | some r =>
      match s.group? (slotKey c p r.slot) with
      | none => none
      | some g =>
        match s.team? g.team with
        | none => none
        | some t =>
          match s.ctx? t.ctx with
          | none => none
          | some x =>
            some { core := c, port := p, key := slotKey c p r.slot, g := g, t := t, c := x, run := r,
                   pci := if r.pfx.isSome then r.pc - 4 else r.pc, now := s.cycle.toNat }

/-- Words of a held run from a PC on, where the run begun at `start` holds the PC or met a cause at it. -/
def FetchedRun.holds (r : FetchedRun) (start pc : BitVec 64) : Bool :=
  let stop := r.start.toNat + 4 * r.words.length
  r.start == start && decide (r.start.toNat ≤ pc.toNat) && decide ((pc.toNat - r.start.toNat) % 4 = 0) &&
    (decide (pc.toNat < stop) || (r.fail.isSome && pc.toNat == stop))

/-- The fetched words from a PC on of the run begun at `start`, and the cause met after them (R350): those held for that run, for LEN
alone steps from its first word (R11), or else those of a run held from the PC itself. -/
def Group.wordsAt (g : Group) (start pc : BitVec 64) : Option (List Word × Option (BitVec 8)) :=
  ((g.buf.find? fun r => r.holds start pc).or (g.buf.find? fun r => r.holds pc pc)).map fun r =>
    (r.words.drop ((pc.toNat - r.start.toNat) / 4), r.fail)

/-- The filled latches of a run as a lane has them, L1 first. -/
def Run.held (r : Run) (l : Nat) : List (BitVec 64) := (List.range r.filled).map fun n => sget r.latch (32 * n + l)

/-- Record postings for the fault queue. -/
def State.addPosts (s : State) (ps : List Posting) : State := { s with posts := s.posts ++ ps }

/-- The lanes that an instruction has trapped or that replay it. -/
def Eff.gone (e : Eff) : LaneSet := trapLanes e.traps ||| replayLanes e.replays

/-- The lanes that it parks. -/
def Eff.parked (e : Eff) : LaneSet := (e.parks.foldl (fun a p => a ||| p.1) 0) &&& ~~~ e.gone

/-- The lanes that it ends. -/
def Eff.ended (e : Eff) : LaneSet := e.exits &&& ~~~ e.gone

/-- The lanes of the sub-group that complete it and go on. -/
def Eff.done (e : Eff) (i : Iss) : LaneSet := i.sub &&& ~~~ (e.gone ||| e.parked ||| e.ended ||| e.left)

/-- The lanes that an instruction parks are PARKED at it; those whose load waits for a peer keep the run's latches and count, for a
load is no wait instruction (R147, R352). -/
def parkLanes (i : Iss) (e : Eff) (g : Group) : Group :=
  e.parks.foldl (fun a p => a.onLanes (p.1 &&& ~~~ e.gone) fun l x =>
    { x with st := .parked p.2, pc := i.pci, since := i.now, ret := false, seen := 0,
             kept := if p.2 = .path then some (i.run.count, i.run.held l) else none }) g

/-- Where a lane that completes goes: the target of its jump, or the next instruction. -/
def Eff.target (e : Eff) (next : BitVec 64) (l : Nat) : BitVec 64 := ((e.jumps.find? fun j => j.1 == l).map (·.2)).getD next

/-- The PC table and TREGION brought forward, and the lanes that exit (R346, R351, R369). -/
def advance (i : Iss) (next : BitVec 64) (e : Eff) (g : Group) : Group :=
  let g3 := g.onLanes (e.done i) fun l x => { x with pc := e.target next l, skip := false, ret := false, kept := none, seen := 0 }
  let g4 := if e.region then g3.onLanes (e.done i ||| e.ended) fun _ x => { x with tregion := next } else g3
  if e.ended = 0 then g4 else g4.exitLanes e.ended

/-- The run as an instruction leaves it (R351): it ends after RB, when no lane of it goes on, when a lane branches, and when
it meets READY lanes of the group that stand at its next instruction. -/
def nextRun (i : Iss) (next : BitVec 64) (rb : Bool) (e : Eff) (g : Group) : Option Run :=
  let meets := lanes32.any fun l => !inSet (e.done i) l && (g.lane l).st == .ready && (g.lane l).pc == next
  if rb || decide (e.done i = 0) || meets || decide (e.jumps ≠ []) then none
  else some { i.run with sub := e.done i, pc := next, count := i.run.count + 1, latch := e.latch, filled := e.filled, pfx := none }

/-- Finish an issued instruction of `len` words (R42, R351, R369). The lanes of `e` trap, replay, park, exit or have left; the others
of the sub-group complete it, and the run goes on or ends. Lanes that exit may complete a barrier (R367). -/
def finish (s : State) (i : Iss) (len : Nat) (rb : Bool) (e : Eff) : State :=
  match s.group? i.key with
  | none => s
  | some g0 =>
    let f := takeFaults g0 i.t (s.teamWorld i.t) i.key i.pci i.now e.traps e.replays
    let next := i.run.pc + BitVec.ofNat 64 (4 * len)
    let g := advance i next e (parkLanes i e f.1)
    let s1 := (s.setGroup i.key g).addPosts f.2
    let s2 := s1.setPort i.core i.port { (s1.core i.core).port i.port with run := nextRun i next rb e g }
    if g.allExited then s2.groupExit i.key else if e.ended = 0 then s2 else s2.checkBarriers i.t.tid

/-- A decode-class cause (R29 steps 1 to 6, R352): the whole sub-group traps, the instruction has no effect and the latches
are unchanged. -/
def decodeTrap (s : State) (i : Iss) (len : Nat) (rb : Bool) (cause : BitVec 8) : State :=
  finish s i len rb { i.eff with traps := trapSet i.sub cause 0 0 7 }

/-- Whether a READY lane outside the sub-group stands at a PC (R351). -/
def Iss.meets (i : Iss) (pc : BitVec 64) : Bool :=
  lanes32.any fun l => !inSet i.sub l && (i.g.lane l).st == .ready && (i.g.lane l).pc == pc

/-- A prefix stands before the instruction that does not accept it, or whose instruction would begin a run (R32, R353). -/
def Iss.pfxRefused (i : Iss) (k : PfxClass) : Bool := (i.run.pfx.map fun p => pfxBad p k || i.meets i.run.pc).getD false

/-- The first of the decode-class checks that fails, RUN_TOO_LONG before step 1 (R29, R352). `operands`: step 4 passes. -/
def firstCause (i : Iss) (h : Head) (operands : Bool) : Option (BitVec 8) :=
  if Config.runLimit ≤ i.run.count then some cRunTooLong
  else if h.bad || (h.nw && !h.vdst) then some cIllegalInstruction
  else if (h.priv == .priv && !privileged i.t i.g) || (h.priv == .service && !i.t.service)
    then some cPrivileged
  else if i.pfxRefused h.pfx then some cIllegalPrefix
  else if !operands then some cIllegalOperand
  else if h.badPair then some cIllegalPair
  else if h.latches.any fun n => decide (i.run.filled < n) then some cLatchEmpty
  else none

/-- Issue an instruction: its checks in order, then its own effect. -/
def issue (s : State) (h : Head) (operands : Iss → Bool) (body : Iss → State → State × Eff) : Out :=
  match s.iss? with
  | none => .fault .noIssuingRun
  | some i =>
    match firstCause i h (operands i) with
    | some c => .next (decodeTrap s i h.len h.rb c)
    | none =>
      let (s1, e) := body i s
      .next (finish s1 i h.len h.rb e)

/-- An instruction that changes only its group's registers and its run's latches. -/
def onGroup (f : Iss → Group × Eff) (i : Iss) (s : State) : State × Eff :=
  let (g, e) := f i
  (s.setGroup i.key g, e)

/-- The group of an issue as the state holds it now. -/
def State.issGroup (s : State) (i : Iss) : Group := (s.group? i.key).getD i.g

/-- Change the issuing group. -/
def State.updGroup (s : State) (i : Iss) (f : Group → Group) : State := s.setGroup i.key (f (s.issGroup i))

/-- A long-latency result of the issuing group is awaited (R347). -/
def Group.await (g : Group) (r : AwaitReg) (m : LaneSet) : Group :=
  { g with awaits := g.awaits ++ [{ reg := r, lanes := m }] }

/-- Heads of the word formats. -/
def headS (f : FmtS) (vdst bad : Bool) (pfx : PfxClass) (srcs : List Src) : Head :=
  { len := 1, rb := f.rb, nw := f.nw, vdst := vdst, bad := bad, priv := .user, pfx := pfx, badPair := false,
    latches := srcs.flatMap Src.latchNo }

def headM (f : FmtM) (vdst bad : Bool) (pfx : PfxClass) (srcs : List Src) : Head :=
  { len := 2, rb := f.rb, nw := f.nw, vdst := vdst, bad := bad, priv := .user, pfx := pfx, badPair := false,
    latches := srcs.flatMap Src.latchNo }

def headW (f : FmtW) (vdst bad : Bool) (srcs : List Src) : Head :=
  { len := 3, rb := f.m.rb, nw := f.m.nw, vdst := vdst, bad := bad, priv := .user, pfx := .none, badPair := false,
    latches := srcs.flatMap Src.latchNo }

/-- Sources that are encoded and within the budget. -/
def srcsOk (i : Iss) (l : List Src) : Bool := l.all fun x => x.ok i.g.budget

end Sys2Proof.Machine
end

