-- ==== Sys2Proof/Machine/Access.lean ====
section
/-! DEFINITION. How an instruction accesses device memory: the checks of each lane in their order (04_memory_tiers.md R98,
R99), what a load reads and a store writes there (R86 to R94, R100), requests to peers that wait for a path
(12_fabric_and_network.md R286 to R288), and the waits that a fence or a release puts before an access (R259, R282). -/

namespace Sys2Proof.Machine

open Sys2Proof.Bits

/-- One lane's access to a location. -/
structure LaneLoc where
  lane : Nat
  va   : Nat
  loc  : Loc
deriving DecidableEq, Repr

/-- How the checks of a group's access come out: the lanes that pass, those that trap or replay, those whose request to
a peer waits (the peer and the lane), those whose bytes are requested now (R90), and the addresses whose pages are walked (R79). -/
structure Chk where
  ok      : List LaneLoc
  traps   : List LTrap
  replays : List LReplay
  waits   : List (Nat × LaneLoc)
  req     : List LaneLoc
  walk    : List Nat
deriving DecidableEq, Repr

/-- Nothing checked. -/
def Chk.none : Chk := { ok := [], traps := [], replays := [], waits := [], req := [], walk := [] }

/-- Results of two lots of lanes together. -/
def Chk.app (a b : Chk) : Chk :=
  { ok := a.ok ++ b.ok, traps := a.traps ++ b.traps, replays := a.replays ++ b.replays, waits := a.waits ++ b.waits, req := a.req ++ b.req,
    walk := a.walk ++ b.walk }

/-- A failed check: a replayable cause replays, every other cause traps with TADDR the address (Table 15.1). -/
def Chk.fail (lane : Nat) (cause : BitVec 8) (va : Nat) (info : BitVec 64) (code : Nat) : Chk :=
  if replayable cause then
    { Chk.none with replays := [{ lane := lane, cause := cause, va := BitVec.ofNat 64 va, access := code }] }
  else
    { Chk.none with traps :=
      [{ lane := lane, cause := cause, addr := BitVec.ofNat 64 va, info := info, access := code }] }

/-- A lane that passes, and one that waits on a peer. -/
def Chk.pass (x : LaneLoc) : Chk := { Chk.none with ok := [x] }
def Chk.wait (x : LaneLoc) : Chk := { Chk.none with waits := [(x.loc.space - 2, x)] }

/-- A promotion: it asks for a core's stores, not for a block. -/
def Remote.isPromo (r : Remote) : Bool :=
  match r.kind with
  | .promo _ => true
  | .homePromo _ _ _ => true
  | _ => false

/-- The slot key of a request's group, where it is still there. -/
def State.remoteGroup (s : State) (r : Remote) : Option (Nat × Group) :=
  let key := slotKey r.core r.org.port r.org.slot
  match s.group? key with
  | some g => if g.gid = r.org.gid ∧ some g.team = r.org.team then some (key, g) else none
  | none => none

/-- A request has not been performed: it waits, or its turn has come and a lane of it stands at its access and may issue it. -/
def State.unmade (s : State) (r : Remote) : Bool :=
  !r.ready ||
    match s.remoteGroup r with
    | some (_, g) => !g.halted && (lanesOf (r.lanes &&& (if g.tmask = 0 then BitVec.allOnes 32 else g.tmask))).any fun l =>
        (g.lane l).st == .ready && (g.lane l).pc == r.org.pc
    | none => false

/-- Whether a request to a peer must wait: an earlier one of this world to the same peer has not been performed, so that the order of
issue is kept (R286). -/
def State.behind (s : State) (world peer : Nat) : Bool :=
  s.remotes.any fun r => r.peer == peer && r.org.world == world && !r.isPromo && s.unmade r

/-- A request of the issuing group's lanes whose turn has come. -/
def Remote.mine (r : Remote) (i : Iss) (m : LaneSet) : Bool :=
  r.ready && r.core == i.core && r.org.gid == i.g.gid && decide (r.lanes &&& m ≠ 0)

/-- The request of a lane to a peer whose turn has come: it goes ahead of those that wait behind it. -/
def State.grant? (s : State) (i : Iss) (lane peer : Nat) : Option Remote :=
  s.remotes.find? fun r => r.peer == peer && r.mine i (BitVec.ofNat 32 (2 ^ lane)) && !r.isPromo

/-- The world and the mode of an issuing group's accesses (R84). -/
def State.issWorld (s : State) (i : Iss) : Nat := s.teamWorld i.t
def Iss.priv (i : Iss) : Bool := privileged i.t i.g

/-- Steps 7 and 8 of Table 4.11 for a lane whose access has passed the checks up to ownership. A store's are made for its blocks, when
they are performed (R92, R93, R288). -/
def State.checkData (s : State) (i : Iss) (acc : Acc) (code n : Nat) (x : LaneLoc) : Chk :=
  if acc = .write then Chk.pass x
  else
    match (if x.loc.space = spLocal then s.dataError x.loc.pa n else none) with
    | some e => Chk.fail x.lane e x.va 0 code
    | none =>
      match s.reach (s.issWorld i) i.priv acc x.loc n with
      | .ok =>
        if decide (2 ≤ x.loc.space) && s.behind (s.issWorld i) (x.loc.space - 2) && (s.grant? i x.lane (x.loc.space - 2)).isNone
        then Chk.wait x else Chk.pass x
      | .refused c => Chk.fail x.lane cRemoteLoadFailed x.va (remoteInfo (peerByte x.loc.space) c.toNat) code
      | .noPath => Chk.wait x
      | .doubt => Chk.wait x

/-- The check of one lane's access of `n` bytes, aligned to `align`, with its access code of R457 (Table 4.11). The page of an aligned
lane is walked (R79), and a lane that passes the checks up to ownership requests its bytes (R90), unless both were done before it
waited. -/
def State.checkLane (s : State) (i : Iss) (acc : Acc) (code align n lane va : Nat) : Chk :=
  if va % align ≠ 0 then Chk.fail lane cMisaligned va 0 code
  else
    match s.resolve6 i.c i.priv acc va n with
    | .error e => { Chk.fail lane e va 0 code with walk := [va] }
    | .ok l =>
      let x : LaneLoc := { lane := lane, va := va, loc := l }
      if decide (2 ≤ l.space) && ((s.grant? i lane (l.space - 2)).map (·.sent)).getD false then s.checkData i acc code n x
      else { s.checkData i acc code n x with req := [x], walk := [va] }

/-- The checks of every lane of a set, at the address `va` gives it. -/
def State.checkLanes (s : State) (i : Iss) (acc : Acc) (code align n : Nat) (m : LaneSet) (va : Nat → Nat) : Chk :=
  (lanesOf m).foldl (fun a l => a.app (s.checkLane i acc code align n l (va l))) Chk.none

/-- The lanes that pass. -/
def Chk.okLanes (c : Chk) : LaneSet := laneSet fun l => c.ok.any fun x => x.lane == l

/-- The lanes that wait on a peer. -/
def Chk.waitLanes (c : Chk) : LaneSet := laneSet fun l => c.waits.any fun x => x.2.lane == l

/-- The submitter's record of an issuing instruction. -/
def Iss.origin (i : Iss) (s : State) : Origin := originOf i.t (s.teamWorld i.t) i.key i.g.gid i.pci

/-- A request of lanes that waits on a peer. -/
def waitingReq (s : State) (i : Iss) (kind : RemoteKind) (m : LaneSet) (block : Nat) (w : Nat × LaneLoc) : Remote :=
  { kind := kind, peer := w.1, core := i.core, org := i.origin s, lanes := m, va := BitVec.ofNat 64 w.2.va,
    doubt := s.pathTo w.1, since := (s.link w.1).lostAt, ready := false, priv := i.priv, sent := s.pathTo w.1, block := block }

/-- The size of the block that the first of some lanes asks for (R90): that of the lanes in its segment, `n` bytes each. -/
def firstBlock (n : Nat) (w : Nat × LaneLoc) (ws : List (Nat × LaneLoc)) : Nat :=
  (((coalesce ((w :: ws.filter fun x => x.1 == w.1).map fun x => (x.2.loc.pa, n))).find? fun b =>
    b.1 / 128 == w.2.loc.pa / 128).map (·.2)).getD 0

/-- The waiting requests of lanes, one for each lane; lanes after the first of a segment ask for no block of their own (R90). -/
def waitingReqs (s : State) (i : Iss) (kind : RemoteKind) (n : Nat) : List (Nat × LaneLoc) → List (Nat × LaneLoc) → List Remote
  | _, [] => []
  | before, w :: r =>
    let again := before.any fun x => x.1 == w.1 && x.2.loc.pa / 128 == w.2.loc.pa / 128
    waitingReq s i kind (BitVec.ofNat 32 (2 ^ w.2.lane)) (if again then 0 else firstBlock n w r) w ::
      waitingReqs s i kind n (w :: before) r

/-- Requests of `n` bytes that wait on a peer are held, one for each lane (R287); those of the sub-group whose turn had come are over. -/
def State.holdRemote (s : State) (i : Iss) (kind : RemoteKind) (n : Nat) (ws : List (Nat × LaneLoc)) : State :=
  { s with remotes := s.remotes.filter (fun r => !r.mine i i.sub) ++ waitingReqs s i kind n [] ws }

/-- The request of an access made once for the sub-group waits on a peer. -/
def State.holdOnce (s : State) (i : Iss) (kind : RemoteKind) (n : Nat) (ws : List (Nat × LaneLoc)) : State :=
  { s with remotes := s.remotes.filter (fun r => !r.mine i i.sub) ++
      (ws.take 1).map fun w => waitingReq s i kind i.sub (firstBlock n w []) w }

/-- What the checks leave to be finished: traps, replays, and lanes that wait on a peer; `w`: how they wait. -/
def Eff.checks (e : Eff) (c : Chk) (w : Wait := .path) : Eff :=
  { e with traps := e.traps ++ c.traps, replays := e.replays ++ c.replays,
           parks := if c.waits = [] then e.parks else e.parks ++ [(c.waitLanes, w)] }

/-- The hint of an access, .bypass on a page with NC (Table 4.3). -/
def hintOf (hint : Nat) (l : Loc) : Nat := if l.nc then 3 else hint

/-- Requests for byte ranges, each with its NC, on the caches and meters: those of pages with NC take .bypass, the others the hint of
the instruction (R89, Table 4.3). -/
def State.accountHints (s : State) (world port : Nat) (write : Bool) (hint : Nat) (rs : List (Loc × Nat)) : State :=
  let part (nc : Bool) : List (Nat × Nat × Nat) := (rs.filter fun x => x.1.nc == nc).map fun x => (x.1.space, x.1.pa, x.2)
  (s.account world port write hint (part false)).account world port write 3 (part true)

/-- The requests for `n` bytes of each of some lanes, on the caches and meters (R90). -/
def State.accountLanes (s : State) (i : Iss) (write : Bool) (hint n : Nat) (ls : List LaneLoc) : State :=
  s.accountHints (s.issWorld i) (clusterPort i.core) write hint (ls.map fun x => (x.loc, n))

/-- The pages of the lanes are walked, and the requests of those that request bytes go out. -/
def State.request (s : State) (i : Iss) (write : Bool) (hint n : Nat) (c : Chk) : State :=
  (s.fillTlbs i.c c.walk).accountLanes i write hint n c.req

/-- The requests of a load of a scope: what the core's L1 supplies is not asked for (R86, R91). -/
def Chk.beyondL1 (c : Chk) (s : State) (core scope : Nat) : Chk :=
  { c with req := c.req.filter fun x => !s.l1Supplies core scope x.loc.space x.loc.pa }

/-- The lanes that passed have read `n` bytes each: errors that ECC corrects are corrected, and the L1 filled. -/
def State.didRead (s : State) (i : Iss) (scope hint n : Nat) (ls : List LaneLoc) : State :=
  ls.foldl (fun a x =>
    let b := if x.loc.space = spLocal then a.correct x.loc.pa n else a
    b.l1Fill i.core scope (hintOf hint x.loc) x.loc.space x.loc.pa) s

/-- Before lanes load, the lines that have left the L1 leave it (R86). -/
def State.l1Settle (s : State) (core : Nat) (ls : List LaneLoc) : State := s.l1Age core (ls.map fun x => (x.loc.space, x.loc.pa))

/-- An acquire at .dev or wider drops the core's L1 lines (R274). -/
def State.acquire (s : State) (core scope : Nat) (acq : Bool) : State := if acq && decide (2 ≤ scope) then s.l1Clear core else s

/-- The mark of a release write's device and core (R275). -/
def State.releaseMark (s : State) (core : Nat) : BitVec 16 := BitVec.ofNat 16 (256 * s.fabNum.getD 0 + core + 1)

/-- The slice records the device and core of a release write to a line (R275). -/
def State.noteRelease (s : State) (core : Nat) (rel : Bool) (l : Loc) : State :=
  if rel then { s with release := sset s.release (locKey l.space l.pa / 128) (s.releaseMark core) } else s

/-- The part of a piece of bytes that lies in a block. -/
def clip (b : Nat × Nat) (p : Nat × List Byte) : Option (Nat × List Byte) :=
  let lo := max p.1 b.1
  let hi := min (p.1 + p.2.length) (b.1 + b.2)
  if lo < hi then some (lo, (p.2.drop (lo - p.1)).take (hi - lo)) else none

/-- Bytes reach a peer's memory from a core: its L1 copy of the line takes them too (R86), and a release is recorded at the home's slice
(R275). -/
def State.peerWrite (s : State) (core peer : Nat) (rel : Bool) (ps : List (Nat × List Byte)) : State :=
  ps.foldl (fun a p => ((a.writeBytes (spPeer peer) p.1 p.2).l1Store core (spPeer peer) p.1 p.2).noteRelease core rel
    { space := spPeer peer, pa := p.1, nc := false }) s

/-- The stores of one block to a peer (R288): performed, held, or refused with one record. `va` is the virtual address of
the block's first byte. A held or refused block leaves no copy in the L1. -/
def State.storeBlock (s : State) (i : Iss) (m : LaneSet) (rel : Bool) (peer : Nat) (b : Nat × Nat) (ps : List (Nat × List Byte))
    (va : BitVec 64) : State :=
  let world := s.issWorld i
  if s.behind world peer || !s.pathTo peer || s.inDoubt peer then
    let s1 : State := { s with remotes := s.remotes ++
      [{ kind := .store b.2 ps va rel, peer := peer, core := i.core, org := i.origin s, lanes := m, va := va,
         doubt := s.pathTo peer, since := (s.link peer).lostAt, ready := false, priv := i.priv, sent := s.pathTo peer, block := b.2 }] }
    s1.l1Drop i.core (locKey (spPeer peer) b.1)
  else
    match s.homeCheck peer world i.priv .write b.1 b.2 (ps.map fun p => (p.1, p.2.length)) with
    | some c =>
      (s.errRecord i.t.ctx va (BitVec.ofNat 8 peer) c b.2 false false i.pci (some i.g.gid)).l1Drop i.core (locKey (spPeer peer) b.1)
    | none => s.peerWrite i.core peer rel ps

/-- Store bytes of lanes to local memory: the blocks that an error takes leave no copy in the L1 and are recorded (R92, R93). -/
def State.storeHere (s : State) (i : Iss) (ls : List (LaneLoc × List Byte)) (vaOf : Nat → BitVec 64) : State :=
  let (s1, lost) := s.storeLocal (ls.map fun x => (x.1.loc.pa, x.2))
  let s2 := ls.foldl (fun a x => a.l1Store i.core spLocal x.1.loc.pa x.2) s1
  (lost.foldl (fun a b => a.l1Drop i.core (locKey spLocal b.1)) s2).errLostBlocks i.t.ctx i.pci (some i.g.gid) lost vaOf

/-- Store bytes of lanes to host memory; while the host link is down each block is recorded as failed (log 65). -/
def State.storeHost (s : State) (i : Iss) (ls : List (LaneLoc × List Byte)) (vaOf : Nat → BitVec 64) : State :=
  if s.unreachable then
    (coalesce (ls.map fun x => (x.1.loc.pa, x.2.length))).foldl (fun a b =>
      (a.errRecord i.t.ctx (vaOf b.1) 0xF0 cRemoteLoadFailed b.2 false false i.pci (some i.g.gid)).l1Drop i.core (locKey spHost b.1)) s
  else ls.foldl (fun a x => (a.writeBytes spHost x.1.loc.pa x.2).l1Store i.core spHost x.1.loc.pa x.2) s

/-- Store bytes of lanes that passed their checks, in the order given, so that a later lane's bytes stay (R100); the bytes
that ECC or an integrity tag takes, and the peers' refusals, go to the error queue (R92, R93, R288). -/
def State.storeLanes (s : State) (i : Iss) (hint : Nat) (rel : Bool) (c : Chk) (ls : List (LaneLoc × List Byte)) : State :=
  let s1 := s.request i true hint ((ls.map fun x => x.2.length).headD 0) c
  let part (sp : Nat) : List (LaneLoc × List Byte) := ls.filter fun x => x.1.loc.space == sp
  let vaOf (space pa : Nat) : BitVec 64 :=
    match ls.find? fun x => x.1.loc.space == space && decide (pa < x.1.loc.pa + x.2.length) && decide (x.1.loc.pa < pa + 128) &&
        x.1.loc.pa / 65536 == pa / 65536 with
    | some x => BitVec.ofNat 64 (x.1.va + pa - x.1.loc.pa)
    | none => 0
  let s2 := (s1.storeHere i (part spLocal) (vaOf spLocal)).storeHost i (part spHost) (vaOf spHost)
  let peers := ((ls.filter fun x => decide (2 ≤ x.1.loc.space)).map fun x => x.1.loc.space - 2).eraseDups
  let s3 := peers.foldl (fun a p =>
    let mine := part (spPeer p)
    (coalesce (mine.map fun x => (x.1.loc.pa, x.2.length))).foldl (fun a b =>
      a.storeBlock i (laneSet fun l => mine.any fun x => x.1.lane == l) rel p b
        (mine.filterMap fun x => clip b (x.1.loc.pa, x.2)) (vaOf (spPeer p) b.1)) a) s2
  (ls.filter fun x => x.1.loc.space == spLocal || (x.1.loc.space == spHost && !s.unreachable)).foldl
    (fun a x => a.noteRelease i.core rel x.1.loc) s3

/-- The physical address of a held store's block. -/
def blockPa (width : Nat) (ps : List (Nat × List Byte)) : Nat := (ps.headD (0, [])).1 / width * width

/-- What the home of a held store meets (R286). -/
def State.storeRefused (s : State) (r : Remote) (w : Nat) (ps : List (Nat × List Byte)) : Option (BitVec 8) :=
  s.homeCheck r.peer r.org.world r.priv .write (blockPa w ps) w (ps.map fun p => (p.1, p.2.length))

/-- Whether an instruction that touches memory waits before it is performed: a FENCE of its lanes is not complete (R282),
or it releases at .dev or wider and a remote store of its lanes has neither been acknowledged nor recorded (R259). -/
def State.stalls (s : State) (i : Iss) (rel : Bool) : Bool :=
  (i.g.awaits.any fun a =>
    match a.reg with
    | .fence _ => decide (a.lanes &&& i.sub ≠ 0)
    | _ => false) ||
  (rel && s.remotes.any fun r =>
    match r.kind with
    | .store _ _ _ _ => r.org.gid == i.g.gid && r.org.ctx == i.t.ctx && decide (r.lanes &&& i.sub ≠ 0)
    | _ => false)

/-- Issue an instruction that accesses device memory at some virtual addresses. While it must wait, or a page of it waits for a
walker, its port stalls: a cycle passes and the run stays as it is (R81, R282). -/
def issueAt (s : State) (h : Head) (rel : Bool) (operands : Iss → Bool) (vas : Iss → List Nat) (body : Iss → State → State × Eff) :
    Out :=
  match s.iss? with
  | none => .fault .noIssuingRun
  | some i =>
    match firstCause i h (operands i) with
    | some c => .next (decodeTrap s i h.len h.rb c)
    | none =>
      if s.stalls i rel then .next (s.elapse 1)
      else if s.walksWait i.c (vas i) then .next ((s.queueWalks i.c (vas i)).elapse 1)
      else
        let (s1, e) := body i s
        .next (finish s1 i h.len h.rb e)

/-- Issue an instruction that FENCE and releases order and that translates no address. -/
def issueMem (s : State) (h : Head) (rel : Bool) (operands : Iss → Bool) (body : Iss → State → State × Eff) : Out :=
  issueAt s h rel operands (fun _ => []) body

/-- ORD and SCOPE as an instruction carries them (Table 2.10). -/
def wSc (f : FmtW) : Nat := f.scope.toNat
def wOd (f : FmtW) : Nat := f.ord.toNat
def wAcq (f : FmtW) : Bool := f.ord == 1 || f.ord == 3
def wRel (f : FmtW) : Bool := f.ord == 2 || f.ord == 3
/-- The release reaches .dev or wider. -/
def wRelWide (f : FmtW) : Bool := wRel f && decide (2 ≤ wSc f)

/-- SCOPE is reserved, or PROMO stands where R24 forbids it. -/
def wScopeBad (f : FmtW) : Bool := decide (5 ≤ wSc f) || (f.promo && (!wAcq f || decide (wSc f < 2)))

/-- The offset IMM20, sign-extended (R96). -/
def wOff (f : FmtW) : BitVec 64 := f.imm.signExtend 64

/-- The effective address of a lane (R96). -/
def ea (i : Iss) (f : FmtW) (l : Nat) : Nat := (i.read (src10 f.m.a) l 15 + (wOff f)).toNat

/-- A memory element read from memory, as LD and the atomics extend it (R100, R104). -/
def extend (ty w x : Nat) : BitVec 64 :=
  if tySigned ty then (BitVec.ofInt 64 (sval (8 * w) x)) else BitVec.ofNat 64 (x % 2 ^ (8 * w))

/-- Element width in bytes of a MEM type (R97). -/
def memW (ty : Nat) : Nat := tyW ty / 8

/-- Registers of COUNT (R97). -/
def memCount (aux : BitVec 4) : Nat :=
  match aux.toNat % 4 with
  | 0 => 1
  | 1 => 2
  | _ => 4

/-- COUNT, TY and their combination that R97 refuses. -/
def memBad (f : FmtW) : Bool :=
  let c := f.aux.toNat % 4
  let ty := f.m.ty.toNat
  ty == 14 || c == 3 || (c != 0 && memW ty != 8)

/-- A range of `n` vector registers from `d` that the encoding and the budget allow (R97). -/
def vRangeOk (d n budget : Nat) : Bool := decide (d + n ≤ 384) && decide (d + n ≤ 8 * budget)

/-- The address of each active lane of a memory instruction that is aligned to `n` bytes: those it translates. -/
def eas (f : FmtW) (n : Nat) (i : Iss) : List Nat :=
  ((lanesOf (i.act f.m.g.toNat)).map (ea i f)).filter fun va => va % n == 0

/-- A core has stores that no peer has acknowledged. -/
def State.openStores (s : State) (core : Nat) : Bool :=
  s.remotes.any fun r => r.core == core && match r.kind with
    | .store _ _ _ _ => true
    | _ => false

/-- The core recorded for a line, as 256 × device + core, where it is another one than the given (R275). -/
def State.promoTo (s : State) (dev core space pa : Nat) : Option Nat :=
  let m := (sget s.release (locKey space pa / 128)).toNat
  if m = 0 ∨ m = 256 * dev + core + 1 then none else some (m - 1)

/-- Whether a promotion request must still be answered: a core of this device answers at once when it has no store left that a peer has
not acknowledged, a peer's core by a message (R275). -/
def State.promoOpen (s : State) (tgt : Nat) : Bool := tgt / 256 != s.fabNum.getD 0 || s.openStores (tgt % 256)

/-- The promotion of a lane has been answered. -/
def State.promoted (s : State) (i : Iss) (lane tgt : Nat) : Bool :=
  s.remotes.any fun r => r.kind == .promo (tgt % 256) && r.peer == tgt / 256 && r.mine i (BitVec.ofNat 32 (2 ^ lane))

/-- An acquire with PROMO waits until the core recorded for its line has answered (R275): that core, for each lane that it holds back.
-/
def State.promoWaits (s : State) (i : Iss) (promo : Bool) (ls : List LaneLoc) : List (Nat × LaneLoc) :=
  if promo then
    ls.filterMap fun x =>
      match s.promoTo (s.fabNum.getD 0) i.core x.loc.space x.loc.pa with
      | some tgt => if s.promoOpen tgt && !s.promoted i x.lane tgt then some (tgt, x) else none
      | none => none
  else []

/-- Lanes that a promotion holds back are not performed and request nothing yet. -/
def Chk.hold (c : Chk) (ws : List (Nat × LaneLoc)) : Chk :=
  let held (x : LaneLoc) : Bool := ws.any fun w => w.2.lane == x.lane
  { c with ok := c.ok.filter fun x => !held x, req := c.req.filter fun x => !held x,
           walk := c.walk.filter fun va => !ws.any fun w => w.2.va == va }

/-- The promotions of lanes, of which the first for a line is the request that leaves. -/
def promoReqs (s : State) (i : Iss) (before : List (Nat × LaneLoc)) : List (Nat × LaneLoc) → List Remote
  | [] => []
  | w :: r =>
    let again := before.any fun x => x.1 == w.1 && x.2.loc.pa / 128 == w.2.loc.pa / 128
    { waitingReq s i (.promo (w.1 % 256)) (BitVec.ofNat 32 (2 ^ w.2.lane)) (if again then 0 else 1) (w.1 / 256, w.2) with
      doubt := false, sent := w.1 / 256 != s.fabNum.getD 0 && s.pathTo (w.1 / 256) } :: promoReqs s i (w :: before) r

/-- Lanes that a promotion holds back wait until the core has answered; a request to a peer's core leaves, where a path exists. -/
def State.holdPromo (s : State) (i : Iss) (ws : List (Nat × LaneLoc)) : State :=
  let rs := promoReqs s i [] ws
  rs.foldl (fun a r => if r.sent && r.block != 0 then a.sendReq r.peer r.org.world else a) { s with remotes := s.remotes ++ rs }

/-- What a promotion's wait leaves to be finished. -/
def Eff.promo (e : Eff) (ws : List (Nat × LaneLoc)) (w : Wait := .path) : Eff :=
  if ws = [] then e else { e with parks := e.parks ++ [(laneSet fun l => ws.any fun x => x.2.lane == l, w)] }

end Sys2Proof.Machine
end

