-- ==== Sys2Proof/Machine/MemOps.lean ====
section
/-! DEFINITION. The minors LD, ST, PFTCH and CFLUSH of the MEM major (04_memory_tiers.md R96 to R102). -/

namespace Sys2Proof.Machine

open Sys2Proof.Bits

/-- Register `k` of a load's result, from the bytes each lane read. -/
def loadReg (ty w k : Nat) (got : List (Nat × List Byte)) (l : Nat) : BitVec 64 :=
  match got.find? fun p => p.1 == l with
  | some p => extend ty w (ofBytes ((p.2.drop (k * w)).take w))
  | none => 0

/-- LD (R100). -/
def execLd (f : FmtW) (s : State) : Out :=
  let ty := f.m.ty.toNat
  let w := memW ty
  let n := memCount f.aux
  let d := f.m.d.toNat
  let a := src10 f.m.a
  issueAt s (headW f true (memBad f || wScopeBad f || wRel f) [a]) false
    (fun i => vRangeOk d n i.g.budget && a.address && srcsOk i [a]) (eas f (n * w))
    fun i s =>
      let c0 := s.checkLanes i .read 0 (n * w) (n * w) (i.act f.m.g.toNat) (ea i f)
      let held := s.promoWaits i f.promo c0.ok
      let c := c0.hold held
      let sa := s.l1Settle i.core c.ok
      let got := c.ok.map fun x => (x.lane, sa.loadBytes i.core (wSc f) x.loc.space x.loc.pa (n * w))
      let s1 := (sa.request i false f.hint.toNat (n * w) (c.beyondL1 sa i.core (wSc f))).didRead i (wSc f) f.hint.toNat (n * w) c.ok
      let s2 := ((s1.holdRemote i .load (n * w) c.waits).holdPromo i held).acquire i.core (wSc f) (wAcq f)
      let (g, e) := writeDst (s2.issGroup i) ((i.eff.checks c).promo held) d f.m.nw c.okLanes (loadReg ty w 0 got)
      let g1 := if f.m.nw then g else
        (List.range n).foldl (fun g k =>
          ((if k = 0 then g else g.vset (d + k) c.okLanes (loadReg ty w k got)).await (.v (d + k)) c.okLanes)) g
      (s2.setGroup i.key g1, e)

/-- The bytes a lane stores: the low `w` bytes of each source register (R100). -/
def storeBytes (i : Iss) (b : Src) (ty w n l : Nat) : List Byte :=
  (List.range n).flatMap fun k =>
    let src := match b with
      | .v r => Src.v (r + k)
      | x => x
    toBytes w (i.read src l ty).toNat

/-- Whether B names what a store of `n` registers takes (R97, R100). -/
def storeSrcOk (i : Iss) (b : Src) (ty n : Nat) : Bool :=
  (match b with
   | .v r => vRangeOk r n i.g.budget
   | .imm _ _ => n == 1 && immOk ty
   | .bad => false
   | _ => n == 1)

/-- ST (R100). A store to peer or host memory ends the region. -/
def execSt (f : FmtW) (s : State) : Out :=
  let ty := f.m.ty.toNat
  let w := memW ty
  let n := memCount f.aux
  let a := src10 f.m.a
  let b := src10 f.m.b
  issueAt s (headW f false (memBad f || decide (5 ≤ wSc f) || f.promo || wAcq f) [a, b]) (wRelWide f)
    (fun i => a.address && srcsOk i [a] && storeSrcOk i b ty n) (eas f (n * w))
    fun i s =>
      let c := s.checkLanes i .write 1 (n * w) (n * w) (i.act f.m.g.toNat) (ea i f)
      let s1 := s.storeLanes i f.hint.toNat (wRel f) c (c.ok.map fun x => (x, storeBytes i b ty w n x.lane))
      (s1, { i.eff.checks c with region := c.ok.any fun x => x.loc.space != spLocal })

/-- PFTCH (R101): the lanes that pass every check and lie in local memory are brought into the LLC, and under .keep into the
L1 also; the others are dropped without effect. -/
def execPftch (f : FmtW) (s : State) : Out :=
  let n := memCount f.aux * memW f.m.ty.toNat
  let a := src10 f.m.a
  issueAt s (headW f false (memBad f || f.hint == 3) [a]) false (fun i => a.address && srcsOk i [a]) (eas f n)
    fun i s =>
      let c := s.checkLanes i .read 0 n n (i.act f.m.g.toNat) (ea i f)
      let ok := c.ok.filter fun x => x.loc.space == spLocal
      let s1 := s.request i false f.hint.toNat n { c with req := ok }
      let s2 := if f.hint = 2 then ok.foldl (fun a x => a.l1Fill i.core 0 (hintOf 2 x.loc) x.loc.space x.loc.pa) s1 else s1
      (s2, i.eff)

/-- CFLUSH at .sys writes a line's modified sectors from the LLC to memory, and with INV drops it there (R102). -/
def State.flushLine (s : State) (world line : Nat) (inv : Bool) : State :=
  match s.llc.find? fun x => x.world == world && x.line == line with
  | none => s
  | some l =>
    if inv then s.llcDrop l
    else
      let s1 := s.writeBack l
      { s1 with llc := s1.llc.map fun x => if x.world == world && x.line == line then { x with dirty := 0 } else x }

/-- The checks of one lane of CFLUSH: steps 1 to 6 as a read of one byte (R102). -/
def State.checkFlush (s : State) (i : Iss) (lane va : Nat) : Chk :=
  match s.resolve6 i.c i.priv .read va 1 with
  | .error e => { Chk.fail lane e va 0 0 with walk := [va] }
  | .ok l => { Chk.none with ok := [{ lane := lane, va := va, loc := l }], walk := [va] }

/-- CFLUSH (R102). Its PROMO is a field that it does not use (log 67). -/
def execCflush (f : FmtW) (s : State) : Out :=
  let a := src10 f.m.a
  issueAt s (headW f false (!(f.scope == 2 || f.scope == 4) || wAcq f) [a]) (wRelWide f)
    (fun i => a.address && srcsOk i [a]) (eas f 1)
    fun i s =>
      let c := (lanesOf (i.act f.m.g.toNat)).foldl (fun b l => b.app (s.checkFlush i l (ea i f l))) Chk.none
      let s1 := s.fillTlbs i.c c.walk
      let s2 := c.ok.foldl (fun b x =>
        let b1 := b.l1Drop i.core (locKey x.loc.space x.loc.pa)
        if f.scope = 4 ∧ x.loc.space = spLocal then b1.flushLine (s.teamWorld i.t) (x.loc.pa / 128) (bit f.aux.toNat 0) else b1) s1
      (s2, i.eff.checks c)

end Sys2Proof.Machine
end

