-- ==== Sys2Proof/Machine/Spad.lean ====
section
/-! DEFINITION. The scratchpad of a core, presence of its chunks, and LDS and STS (06_registers_and_scratchpad.md R148 to
R152; 05_copies_and_chunk_barriers.md R127, R128). -/

namespace Sys2Proof.Machine

open Sys2Proof.Bits

/-- The chunks of a range of absolute scratchpad bytes. -/
def chunksOf (at_ n : Nat) : List Nat :=
  if n = 0 then [] else (List.range ((at_ + n - 1) / 512 - at_ / 512 + 1)).map fun k => at_ / 512 + k

/-- Some chunk of a range has a clear presence bit: a writer still holds it (R127). -/
def absent (c : Core) (at_ n : Nat) : Bool := (chunksOf at_ n).any fun k => c.writers.any fun w => w.chunks.contains k

/-- Bytes of a core's scratchpad. -/
def spadRead (c : Core) (at_ n : Nat) : List Byte := sread c.spad at_ n

/-- Whether every chunk of a mask is present, from chunk `first` of a tile on (R134). -/
def masked (c : Core) (tile mask first : Nat) : Bool :=
  (List.range 64).all fun k => !mask.testBit k || !absent c (tile + 512 * (first + k)) 1

/-- What a CBWAITM sees (R134), as `Bar.verdict`; `base`: its team's allocation. -/
def Bar.verdictM (b : Bar) (c : Core) (base mask first : Nat) : BitVec 8 :=
  if b.error then cCopyAborted
  else if b.overrun then cBarrierOverrun
  else if masked c (base + b.tile) mask first then 0xFF else 0

/-- What a group's wait on a scratchpad barrier of its team, whose allocation begins at `base`, sees in the core as it now stands; `all`:
the wait sees a change of presence too. -/
def Core.shows (c : Core) (g : Group) (base : Nat) (mine : Nat → Bool) (all : Bool) (w : Wait) : BitVec 8 :=
  let bar (a : Nat) : Bar := barOf (ofBytes (spadRead c (base + a) 16))
  match w with
  | .barrier a none ph => if mine (base + a) then (bar a).verdict (ph.map g.phaseBit) else 0
  | .barrierMask a m f => if all || mine (base + a) then (bar a).verdictM c base m f else 0
  | _ => 0

/-- The groups of a core see its scratchpad and the presence of its chunks as they now stand (R125, R134); `mine`: barriers that have
been updated. -/
def State.spadShow (s : State) (core : Nat) (mine : Nat → Bool) (all : Bool) : State :=
  s.mapGroups fun k g =>
    if keyCore k = core then g.show ((s.core core).shows g (((s.team? g.team).map (·.base)).getD 0) mine all) else g

/-- Bytes are written to a core's scratchpad; waits on scratchpad barriers there see them, whatever wrote the bytes (R125; log 77). -/
def State.spadWrite (s : State) (core at_ : Nat) (bs : List Byte) : State :=
  (s.setCore core { s.core core with spad := sput (s.core core).spad at_ bs }).spadShow core
    (fun a => decide (at_ < a + 16) && decide (a < at_ + bs.length)) false

/-- A writer finishes some chunks, or all of them, and waits on the core's chunks see it (R127, R128). -/
def State.writerDone (s : State) (core place : Nat) (done : Nat → Bool) : State :=
  let c := s.core core
  let ws := (c.writers.map fun w => if w.place = place then { w with chunks := w.chunks.filter fun k => !done k } else w).filter
    fun w => w.chunks != []
  ((s.setCore core { c with writers := ws }).spadShow core (fun _ => false) true).mapGroups fun k g =>
    if keyCore k = core then g.wake (fun w => w == .chunks) (fun x => x.pc) else g

/-- A lane's check of a scratchpad access of `n` bytes (R151): the offset, or the trap. -/
def checkSpad (i : Iss) (n : Nat) (lane off : Nat) : Option LTrap :=
  let trap (c : BitVec 8) : Option LTrap :=
    some { lane := lane, cause := c, addr := BitVec.ofNat 64 off, info := 0, access := 7 }
  if off % n ≠ 0 then trap cMisaligned
  else if i.t.size < off + n then trap cScratchRange
  else none

/-- SCOPE and ORD that LDS and STS refuse beside `order` (R150). -/
def spadBad (f : FmtW) (order : Bool) : Bool := memBad f || decide (2 ≤ wSc f) || f.promo || order

/-- LDS (R151, R152): it parks the sub-group while a chunk it reads is absent. -/
def execLds (f : FmtW) (s : State) : Out :=
  let ty := f.m.ty.toNat
  let w := memW ty
  let n := memCount f.aux
  let d := f.m.d.toNat
  let a := src10 f.m.a
  issueMem s (headW f true (spadBad f (wRel f)) [a]) false
    (fun i => vRangeOk d n i.g.budget && a.address && srcsOk i [a])
    fun i s =>
      let m := i.act f.m.g.toNat
      let traps := (lanesOf m).filterMap fun l => checkSpad i (n * w) l (ea i f l)
      let ok := (lanesOf m).filter fun l => (checkSpad i (n * w) l (ea i f l)).isNone
      let core := s.core i.core
      if ok.any fun l => absent core (i.t.base + ea i f l) (n * w) then
        (s, { i.eff with traps := traps, parks := [(i.sub, .chunks)] })
      else
        let got := ok.map fun l => (l, spadRead core (i.t.base + ea i f l) (n * w))
        let okm := laneSet fun l => ok.contains l
        let (g, e) := writeDst (s.issGroup i) { i.eff with traps := traps } d f.m.nw okm (loadReg ty w 0 got)
        let g1 := if f.m.nw then g else
          (List.range n).foldl (fun g k =>
            ((if k = 0 then g else g.vset (d + k) okm (loadReg ty w k got)).await (.v (d + k)) okm)) g
        (s.setGroup i.key g1, e)

/-- STS (R151, R152). -/
def execSts (f : FmtW) (s : State) : Out :=
  let ty := f.m.ty.toNat
  let w := memW ty
  let n := memCount f.aux
  let a := src10 f.m.a
  let b := src10 f.m.b
  issueMem s (headW f false (spadBad f (wAcq f)) [a, b]) false
    (fun i => a.address && srcsOk i [a] && storeSrcOk i b ty n)
    fun i s =>
      let m := i.act f.m.g.toNat
      let traps := (lanesOf m).filterMap fun l => checkSpad i (n * w) l (ea i f l)
      let ok := (lanesOf m).filter fun l => (checkSpad i (n * w) l (ea i f l)).isNone
      let s1 := ok.foldl (fun t l => t.spadWrite i.core (i.t.base + ea i f l) (storeBytes i b ty w n l)) s
      (s1, { i.eff with traps := traps })

end Sys2Proof.Machine
end

