-- ==== Sys2Proof/Machine/Barrier.lean ====
section
/-! DEFINITION. Chunk barriers and the updates that instructions and engines make to them
(05_copies_and_chunk_barriers.md R122 to R126, R129; `Arrive` of 02_instruction_words.md R42). -/

namespace Sys2Proof.Machine

open Sys2Proof.Bits

/-- Where a barrier lies. -/
inductive BarLoc
  /-- an absolute offset of a core's scratchpad -/
  | spad (core at_ : Nat)
  | dev (space pa : Nat)
deriving DecidableEq, Repr

/-- A barrier as it stands. -/
def State.barGet (s : State) (l : BarLoc) : Bar :=
  match l with
  | .spad c a => barOf (ofBytes (spadRead (s.core c) a 16))
  | .dev sp pa => barOf (s.readNat sp pa 16)

/-- A barrier as the device writes it: its reserved bits are written zero (R6). -/
def Bar.written (b : Bar) : Bar := { b with rsvLo := 0, rsvHi := 0 }

/-- Update a barrier; its waiters see the update (R125). -/
def State.barPut (s : State) (l : BarLoc) (b : Bar) : State :=
  match l with
  | .spad c a => s.spadWrite c a (toBytes 16 b.written.bits)
  | .dev sp pa => s.writeNat sp pa 16 b.written.bits

/-- `Arrive` of R42 with the limit of R123. -/
def Bar.arrive (b : Bar) (n : Nat) : Bar :=
  let p := b.pend - n
  let b1 := if p < -(2 ^ 31 : Int) then { b with pend := -(2 ^ 31 : Int), overrun := true } else { b with pend := p }
  if b.armed then
    if p < 0 then { b1 with overrun := true }
    else if p = 0 then { b1 with phase := !b.phase, armed := false }
    else b1
  else b1

/-- ERROR with a cause, which stays if one is recorded already (R126, R129). -/
def Bar.mark (b : Bar) (cause : BitVec 8) : Bar :=
  { b with error := true, cause := if b.cause = 0 then cause.toNat else b.cause }

/-- CBEXP's update (R124). -/
def Bar.expect (b : Bar) (n : Nat) : Bar :=
  let p := b.pend + n
  if p = 0 then { b with pend := 0, phase := !b.phase, armed := false }
  else { b with pend := p, armed := true, overrun := b.overrun || decide (p < 0) }

/-! ## Updates by engines -/

/-- A team has saved the group that a GID names. -/
def Team.saved (t : Team) (gid : BitVec 64) : Bool :=
  t.seq % 2 ^ 24 == gidSeq gid && t.index == gidTeam gid && t.savedGrp.any fun g => g.1 == gidGroup gid

/-- The group named by a GID has exited: it is neither resident nor saved, by a team that is still resident or one that is saved whole
(R288). -/
def State.groupGone (s : State) (ctx : Nat) (who : Option (BitVec 64)) : Bool :=
  match who with
  | none => false
  | some gid =>
    !(s.groups.any fun p => p.2.gid == gid && ((s.team? p.2.team).map (·.ctx)) == some ctx) &&
    !(s.teams.any fun t => t.ctx == ctx && t.saved gid) &&
    !(((s.ctx? ctx).map (·.savedTeams)).getD []).any fun p => p.2.saved gid

/-- The group that a record names: none for a shared queue's packet. -/
def Origin.who (o : Origin) : Option (BitVec 64) := o.team.map fun _ => o.gid

/-- An error-queue record for a submitter (R129, R288). -/
def State.orgRecord (s : State) (o : Origin) (va : BitVec 64) (peer cause : BitVec 8) (width : Nat) (maybe : Bool) : State :=
  s.errRecord o.ctx va peer cause width (s.groupGone o.ctx o.who) maybe o.pc o.who

/-- The fault queue entry that an engine posts (R129, R130, R250, R339), with the number of its wait. -/
def State.enginePost (s : State) (o : Origin) (core : Nat) (va : BitVec 64) (cause : BitVec 8) (access : Nat) : State × Nat :=
  let p : Posting :=
    { world := o.world, ctx := o.ctx, va := va, priv := false, port := if o.team = none then 0 else o.port,
      slot := if o.team = none then 0 else o.slot, core := if o.team = none then 0xFFFF else core, access := access, cause := cause,
      gid := o.gid, lanes := 0, svc := false, tpc := 0, wait := some s.nextWait }
  ({ s with posts := s.posts ++ [p], nextWait := s.nextWait + 1, waitPage := s.waitPage ++ [(s.nextWait, va.toNat / 65536)] }, s.nextWait)

/-- Whether the fault queue entry of an engine's wait lies below its queue's RDIDX: the service has taken it (R400). -/
def State.waitTaken (s : State) (world k : Nat) : Bool :=
  match s.waitIdx.find? fun p => p.1 == k, (s.world world).faultq with
  | some p, some q => s.ringPass world (q.desc + 128) && decide (p.2 < s.readNat spLocal (q.desc + 128) 8)
  | _, _ => false

/-- A retry that meets a cause again: a new posting when the earlier entry has been taken, the old wait otherwise (R400). An access to
another page than the one that the old wait is for is no retry of it, and posts. -/
def State.repost (s : State) (o : Origin) (core : Nat) (va : BitVec 64) (cause : BitVec 8) (access : Nat) (old : Option Nat) :
    State × Nat :=
  match old with
  | none => s.enginePost o core va cause access
  | some k => if s.waitTaken o.world k || !s.waitPage.contains (k, va.toNat / 65536) then s.enginePost o core va cause access else (s, k)

/-- The barrier a packet names: whether it lies in device memory, and its address or offset (Table 5.1). -/
def packetBar (b : List Byte) : Bool × Nat :=
  let h := ofBytes (b.take 8)
  if bit h 8 then (true, ofBytes ((b.drop 56).take 8)) else (false, 16 * fld h 16 16)

/-- What an engine's barrier update does: count bytes, or mark an error. -/
def Bar.update (b : Bar) (bytes : Nat) (err : Option (BitVec 8)) : Bar :=
  match err with
  | some c => b.mark c
  | none => b.arrive bytes

/-- PEER of a record about a barrier at a location: a queue packet's names who published it, a KICKed one's the barrier's home
(R129, Table 12.2). -/
def Origin.recordPeer (o : Origin) (space : Nat) : BitVec 8 := if o.team = none then o.peer else BitVec.ofNat 8 (peerByte space)

/-- An engine's update of a barrier in device memory, checked as an atomic of the packet's world (R129); `old` is the
fault that an earlier try waits on, `sent`: its request has been counted already. -/
def State.devUpdate (s : State) (o : Origin) (core : Nat) (search : Bool) (va bytes : Nat) (err : Option (BitVec 8))
    (old : Option Nat) (sent : Bool := false) : State :=
  let lose (s : State) (c : BitVec 8) : State := s.orgRecord o (BitVec.ofNat 64 va) o.peer c 0 false
  let walked (s : State) (c : Context) : State := if sent then s else s.fillTlbs c [va]
  match s.ctx? o.ctx with
  | none => s
  | some c =>
    if va % 16 ≠ 0 then lose s cMisaligned
    else
      match s.resolve c c.priv .atomic va 16 with
      | .error e =>
        let s := walked s c
        if replayable e then
          let (s1, k) := s.repost o core (BitVec.ofNat 64 va) e (if search then 5 else 4) old
          { s1 with barWaits := s1.barWaits ++
            [{ va := va, bytes := bytes, err := err, org := o, core := core, search := search, stall := k }] }
        else lose s e
      | .ok l =>
        let port := if search then ioPort else clusterPort core
        let at_ := [(l.space, l.pa, 16)]
        let s := walked s c
        let s := if sent then s else s.account o.world port false 0 at_
        let held (s : State) : State :=
          { s with remotes := s.remotes ++
            [{ kind := .update va bytes err search, peer := l.space - 2, core := core, org := o, lanes := 0,
               va := BitVec.ofNat 64 va, doubt := s.pathTo (l.space - 2), since := (s.link (l.space - 2)).lostAt, ready := false, priv := c.priv,
               sent := s.pathTo (l.space - 2), block := 16 }] }
        match s.reach o.world c.priv .atomic l 16 with
        | .refused x => s.orgRecord o (BitVec.ofNat 64 va) (o.recordPeer l.space) (if l.space = spHost then cRemoteLoadFailed else x) 0 false
        | .noPath => held s
        | .doubt => held s
        | .ok =>
          if decide (2 ≤ l.space) && s.behind o.world (l.space - 2) then held s
          else
            let loc := BarLoc.dev l.space l.pa
            (if l.space = spLocal then s.account o.world port true 0 at_ else s).barPut loc ((s.barGet loc).update bytes err)

/-- An engine's update of the barrier at a team's scratchpad offset, or at a device address (R129). A queue packet with BDEV = 0 names no
barrier, and nothing records its error (log 77). -/
def State.barUpdate (s : State) (o : Origin) (core : Nat) (search : Bool) (dev : Bool) (addr bytes : Nat)
    (err : Option (BitVec 8)) : State :=
  if dev then s.devUpdate o core search addr bytes err none
  else
    match o.team.bind fun n => s.team? n with
    | none => s
    | some t =>
      if addr % 16 ≠ 0 then s.orgRecord o (BitVec.ofNat 64 addr) o.peer cMisaligned 0 false
      else if t.ringStart < addr + 16 then s.orgRecord o (BitVec.ofNat 64 addr) o.peer cScratchRange 0 false
      else
        let loc := BarLoc.spad core (t.base + addr)
        s.barPut loc ((s.barGet loc).update bytes err)

/-- An update of a packet's barrier. -/
def State.packetUpdate (s : State) (p : Packet) (core : Nat) (search : Bool) (bytes : Nat) (err : Option (BitVec 8)) : State :=
  let (dev, addr) := packetBar p.bytes
  s.barUpdate p.org core search dev addr bytes err

end Sys2Proof.Machine
end

