-- ==== Sys2Proof/Machine/Packet.lean ====
section
/-! DEFINITION. Request packets: their fields, their limits and the scratchpad they write (05_copies_and_chunk_barriers.md
R110 to R112, R121, R127, R128; 10_stack_search.md R241, R242; 12_fabric_and_network.md R306). -/

namespace Sys2Proof.Machine

open Sys2Proof.Bits

/-- Bytes `a` to `b − 1` of a packet as a number. -/
def pk (b : List Byte) (a n : Nat) : Nat := ofBytes ((b.drop a).take n)

/-- Header fields (Table 5.1). -/
def pkKind (b : List Byte) : Nat := pk b 0 1
def pkBdev (b : List Byte) : Bool := bit (pk b 0 8) 8
def pkSscr (b : List Byte) : Bool := bit (pk b 0 8) 9
def pkDdev (b : List Byte) : Bool := bit (pk b 0 8) 10
def pkHint (b : List Byte) : Nat := fld (pk b 0 8) 12 2
def pkLen (b : List Byte) : Nat := fld (pk b 0 8) 32 32

/-- The rows of a copy: LEN, NY and NZ; a COPY or FILL is one row (R111, R112). -/
structure Rows where
  len : Nat
  ny  : Nat
  nz  : Nat
  src : Nat
  dst : Nat
  ssy : Int
  ssz : Int
  dsy : Int
  dsz : Int
deriving DecidableEq, Repr

/-- The rows of a COPY, COPY3D or FILL packet. -/
def rowsOf (b : List Byte) : Rows :=
  if pkKind b = 2 then
    { len := pkLen b, ny := pk b 24 2, nz := pk b 26 2, src := pk b 8 8, dst := pk b 16 8, ssy := sval 32 (pk b 28 4),
      ssz := sval 64 (pk b 32 8), dsz := sval 64 (pk b 40 8), dsy := sval 32 (pk b 48 4) }
  else
    { len := pkLen b, ny := 1, nz := 1, src := pk b 8 8, dst := pk b 16 8, ssy := 0, ssz := 0, dsy := 0, dsz := 0 }

/-- The bytes that the rows move. -/
def Rows.total (r : Rows) : Nat := r.len * r.ny * r.nz

/-- The source and destination of byte `k` of the linear order, reckoned without wrapping. -/
def Rows.srcAt (r : Rows) (k : Nat) : Int :=
  let row := k / r.len
  r.src + (row / r.ny : Nat) * r.ssz + (row % r.ny : Nat) * r.ssy + (k % r.len : Nat)

def Rows.dstAt (r : Rows) (k : Nat) : Int :=
  let row := k / r.len
  r.dst + (row / r.ny : Nat) * r.dsz + (row % r.ny : Nat) * r.dsy + (k % r.len : Nat)

/-- The starts of the rows in the linear order. -/
def Rows.starts (r : Rows) : List Nat := (List.range (r.ny * r.nz)).map fun k => k * r.len

/-- LEN, NY, NZ and the product within their limits (R111, R112). -/
def Rows.inLimits (r : Rows) (kind : Nat) : Bool :=
  decide (1 ≤ r.len) && decide (r.len ≤ 0x7FFFFFFF) &&
    (kind != 2 || (decide (1 ≤ r.ny) && decide (1 ≤ r.nz) && decide (r.total ≤ 0x7FFFFFFF)))

/-- The lowest and the highest-plus-one scratchpad offset of the source rows, and of the destination rows. -/
def Rows.srcSpan (r : Rows) : Int × Int :=
  r.starts.foldl (fun a k => (min a.1 (r.srcAt k), max a.2 (r.srcAt k + r.len))) (r.src, r.src + r.len)

def Rows.dstSpan (r : Rows) : Int × Int :=
  r.starts.foldl (fun a k => (min a.1 (r.dstAt k), max a.2 (r.dstAt k + r.len))) (r.dst, r.dst + r.len)

/-- Two scratchpad rows of a packet, a source and a destination, share a byte (R128). -/
def Rows.overlap (r : Rows) : Bool :=
  r.starts.any fun j => r.starts.any fun k =>
    decide (r.srcAt j < r.dstAt k + r.len) && decide (r.dstAt k < r.srcAt j + r.len)

/-- A COPY, COPY3D or FILL packet, or one of a reserved kind, that is malformed (R111, R121, R128); so is a KICKed FILL with SSCR = 1, of
which Table 5.3 alone speaks (log 77). -/
def copyBad (b : List Byte) (fromQueue : Bool) : Bool :=
  let k := pkKind b
  let r := rowsOf b
  !(k == 1 || k == 2 || k == 3) || !r.inLimits k || (k == 3 && pkSscr b) ||
    (fromQueue && (!pkBdev b || !pkDdev b || pkSscr b)) ||
    (pkSscr b && !pkDdev b && r.overlap)

/-- A span lies below a team's ring (R129). -/
def belowRing (t : Team) (sp : Int × Int) : Bool := decide (0 ≤ sp.1) && decide (sp.2 ≤ (t.ringStart : Int))

/-- The team's scratchpad offsets that a packet writes, as (start, length), inside the allocation: the destination rows of a
copy or fill, the result buffer of a search (R127, R242). -/
def packetDest (t : Team) (b : List Byte) : List (Nat × Nat) :=
  let k := pkKind b
  let clipTo (lo : Int) (n : Nat) : List (Nat × Nat) :=
    let a := max lo 0
    let z := min (lo + n) (t.size : Int)
    if a < z then [(a.toNat, (z - a).toNat)] else []
  if (k = 1 ∨ k = 2 ∨ k = 3) ∧ !pkDdev b ∧ (rowsOf b).inLimits k then
    (rowsOf b).starts.flatMap fun j => clipTo ((rowsOf b).dstAt j) (rowsOf b).len
  else if k = 0x10 ∧ !bit (pk b 0 8) 10 then clipTo (pk b 32 8) (8 * pk b 45 1 + 8)
  else []

/-- The absolute chunks that a packet of a team writes. -/
def packetChunks (t : Team) (b : List Byte) : List Nat :=
  ((packetDest t b).flatMap fun r => chunksOf (t.base + r.1) r.2).eraseDups

/-- A submitter takes the next place in the core's order of issue, and its writer is registered on the chunks (R127). -/
def State.takePlace (s : State) (core : Nat) (chunks : List Nat) : State × Nat :=
  let c := s.core core
  (s.setCore core { c with order := c.order + 1,
                           writers := if chunks = [] then c.writers else c.writers ++ [{ place := c.order, chunks := chunks }] },
   c.order)

/-- A destination chunk of a writer has 15 writers before it (R127). -/
def Core.crowded (c : Core) (place : Nat) : Bool :=
  (c.writers.filter fun w => w.place == place).any fun w => w.chunks.any fun k =>
    decide (15 ≤ (c.writers.filter fun x => decide (x.place < place) && x.chunks.contains k).length)

/-- A packet as it stands at an offset of a team's scratchpad. -/
def teamPacket (s : State) (t : Team) (off : Nat) : List Byte := spadRead (s.core t.core) (t.base + off) 64

/-- The offset check of a 64-byte packet in scratchpad (R255, R308): the cause, if any. -/
def packetCause (t : Team) (off : Nat) : Option (BitVec 8) :=
  if off % 64 ≠ 0 then some cMisaligned else if t.ringStart < off + 64 then some cScratchRange else none

/-- A packet ends in error (R129): its writers are released and its barrier takes ERROR with the cause. -/
def State.packetError (s : State) (p : Packet) (core : Nat) (search : Bool) (cause : BitVec 8) : State :=
  (s.writerDone core p.place fun _ => true).packetUpdate p core search 0 (some cause)

end Sys2Proof.Machine
end

