-- ==== Sys2Proof/Machine/Sync.lean ====
section
/-! DEFINITION. The SYNC major: FENCE (11_ordering.md R282, R283), MARM and MWAIT (04_memory_tiers.md R106 to R109), TBAR and
RBAR (14_execution_and_scheduling.md R366, R367). -/

namespace Sys2Proof.Machine

open Sys2Proof.Bits

/-- FENCE (R282): its completion is awaited by the group; the lines of the core's L1 leave it then (`execFenceComplete`). -/
def execFence (f : FmtW) (s : State) : Out :=
  issue s (headW f false (decide (5 ≤ wSc f) || f.ord != 3 || f.promo) []) (fun _ => true)
    fun i s => (s.updGroup i fun g => g.await (.fence (wSc f)) i.sub, i.eff)

/-- The check of an access made once for the sub-group, as its lowest lane makes it: its location, or what every lane meets (R106). -/
def State.checkOnce (s : State) (i : Iss) (acc : Acc) (code align n va : Nat) : Chk :=
  let c := s.checkLane i acc code align n (((lanesOf i.sub).head?).getD 0) va
  let each {α : Type} (l : List α) (f : α → Nat → α) : List α := l.flatMap fun x => (lanesOf i.sub).map fun k => f x k
  { ok := c.ok
    traps := each c.traps fun t k => { t with lane := k }
    replays := each c.replays fun r k => { r with lane := k }
    waits := each c.waits fun w k => (w.1, { w.2 with lane := k })
    req := c.req
    walk := c.walk }

/-- MARM (R106, R107): the group's monitor is set on the line, for a peer's line by a request to its home (R285), and an MWAIT of another
sub-group that it replaces returns. A full monitor table refuses no MARM (log 70). -/
def execMarm (f : FmtW) (s : State) : Out :=
  let a := src10 f.m.a
  issueAt s (headW f false false []) false (fun _ => a.isG) (fun i => [ea i f 0])
    fun i s =>
      let c := s.checkOnce i .read 0 1 1 (ea i f 0)
      let s0 := (s.fillTlbs i.c c.walk).accountLanes i false 0 1 (c.req.filter fun x => decide (2 ≤ x.loc.space))
      match c.ok with
      | [] => (s0.holdOnce i .load 1 c.waits, i.eff.checks c)
      | x :: _ =>
        let s1 := (s0.holdOnce i .load 1 []).updGroup i fun g =>
          { g.returnMonitor with
            mon := { armed := true, va := x.va, space := x.loc.space, line := x.loc.pa / 128 * 128, written := false, deadline := 0 } }
        (s1, i.eff)

/-- The slice that holds a monitor: the owner of a local line (R107), and one for each other space. -/
def monitorSlice (space line : Nat) : Nat := if space = spLocal then sliceOf line else 32 + space

/-- The monitor table of a slice holds 4,096 entries (R109). -/
def State.monitorsFull (s : State) (space line : Nat) : Bool :=
  let here (sp l : Nat) : Bool := monitorSlice sp l == monitorSlice space line
  decide (4096 ≤ (s.groups.filter fun p => p.2.mon.armed && here p.2.mon.space p.2.mon.line).length +
    (s.peerMons.filter fun m => here spLocal (m.line * 128)).length)

/-- The group's monitor is one of the entries of the slice of a line. -/
def Group.monitorAt (g : Group) (space line : Nat) : Bool :=
  g.mon.armed && monitorSlice g.mon.space g.mon.line == monitorSlice space line

/-- MWAIT (R108): its reads are made at the slice. An acquire drops the L1's lines at every scope, for the line may hold a barrier in
device memory (R276; log 71). Lanes that return from the park read and complete; other lanes at it issue it again later. -/
def execMwait (f : FmtW) (s : State) : Out :=
  let a := src10 f.m.a
  let b := src10 f.m.b
  let ty := f.m.ty.toNat
  let w := memW ty
  let d := f.m.d.toNat
  issueAt s (headW f false (!(ty == 6 || ty == 7 || ty == 15) || wScopeBad f || wRel f) []) false
    (fun _ => a.isG && b.uniform && dgOk d) (fun i => [ea i f 0].filter fun va => va % w == 0)
    fun i s =>
      let c0 := s.checkOnce i .read 0 w w (ea i f 0)
      let held := (s.promoWaits i f.promo c0.ok).flatMap fun p => (lanesOf i.sub).map fun k => (p.1, { p.2 with lane := k })
      let c := if held = [] then c0 else { c0 with ok := [], req := [], walk := [] }
      match c.ok with
      | [] => (((s.request i false 0 w c).holdOnce i .load w c.waits).holdPromo i held, (i.eff.checks c .remote).promo held .remote)
      | x :: _ =>
        let back := (laneSet fun l => (i.g.lane l).ret) &&& i.sub
        let mine := i.g.mon.armed && i.g.mon.space == x.loc.space && i.g.mon.line == x.loc.pa / 128 * 128
        let cmp := ofBytes (s.readBytes x.loc.space x.loc.pa w)
        let s1 := (((s.request i false 0 w c).holdOnce i .load w []).didRead i 2 0 w [x]).acquire i.core 4 (wAcq f)
        let read (v : Nat) (off : Bool) : State := s1.updGroup i fun g =>
          let g1 := (g.gset d (BitVec.ofNat 64 v)).await (.g d) i.sub
          if off then { g1 with mon := { g1.mon with armed := false } } else g1
        if back ≠ 0 then
          (read cmp false, { i.eff with jumps := (lanesOf (i.sub &&& ~~~ back)).map fun l => (l, i.pci) })
        else if mine && i.g.mon.written then (read cmp true, i.eff)
        else if cmp ≠ (i.uni b).toNat % 2 ^ (8 * w) then (read cmp false, i.eff)
        else if s.monitorsFull x.loc.space x.loc.pa && !i.g.monitorAt x.loc.space x.loc.pa then (read cmp false, i.eff)
        else
          let t := f.aux.toNat
          (s1.updGroup i fun g =>
            { g.returnMonitor with
              mon := { armed := true, va := x.va, space := x.loc.space, line := x.loc.pa / 128 * 128, written := false,
                       deadline := if t = 0 then 0 else i.now + 2 ^ (t + 9) } },
           { i.eff with parks := [(i.sub, .monitor)] })

/-- TBAR and RBAR (R366, R367): the lanes release and go PARKED; the last arrival wakes all. -/
def barrier (s : State) (f : FmtW) (w : Wait) : Out :=
  let h := headW f false (wSc f == 0 || decide (5 ≤ wSc f) || f.ord != 3 || f.promo) []
  match issueMem s h (decide (2 ≤ wSc f)) (fun _ => true) fun i s => (s, { i.eff with parks := [(i.sub, w)] }) with
  | .next s1 =>
    match s.iss? with
    | some i => .next (s1.checkBarriers i.t.tid)
    | none => .next s1
  | x => x

/-- TBAR (R367). -/
def execTbar (f : FmtW) (s : State) : Out := barrier s f (.tbar (wSc f))
/-- RBAR (R367). -/
def execRbar (f : FmtW) (s : State) : Out := barrier s f (.rbar (wSc f))

end Sys2Proof.Machine
end

