-- ==== Sys2Proof/Machine/Async.lean ====
section
/-! DEFINITION. The ASYNC major (05_copies_and_chunk_barriers.md R114 to R117, R132 to R135). -/

namespace Sys2Proof.Machine

open Sys2Proof.Bits

/-- The barrier operand (R133): whether it is encoded as DEV allows. -/
def barOk (a : Src) (dev : Bool) : Bool :=
  match a with
  | .g _ => true
  | .imm x _ => !dev && decide (0 ≤ x)
  | _ => false

/-- The barrier address of an operand (R134). -/
def barAddr (i : Iss) (a : Src) : Nat :=
  match a with
  | .imm x _ => 16 * x.toNat
  | _ => (i.uni a).toNat

/-- DEV (Table 5.10). -/
def devOf (f : FmtW) : Bool := bit f.aux.toNat 3

/-- A trap of the sub-group that names a barrier. -/
def barTrap (i : Iss) (e : Eff) (cause : BitVec 8) (ba code : Nat) : Eff :=
  { e with traps := trapSet i.sub cause (BitVec.ofNat 64 ba) 0 code }

/-- `Bar()` of R134: locate and check the barrier, then go on with its location; a request to a peer that has no path waits
as `kind`, and parks the sub-group (R287). An atomic of a device-memory barrier takes its line out of the core's L1, and a read of one
renews the line there, so that no later load of the core goes back behind it (R86, R268). -/
def withBar (i : Iss) (f : FmtW) (kind : RemoteKind) (s : State) (k : Nat → BarLoc → State → State × Eff) : State × Eff :=
  let ba := barAddr i (src10 f.m.a)
  if devOf f then
    let c := s.checkOnce i .atomic 3 16 16 ba
    match c.ok with
    | [] => ((s.request i false 0 16 c).holdOnce i kind 16 c.waits, i.eff.checks c .remote)
    | x :: _ =>
      let s1 := (s.request i false 0 16 c).holdOnce i kind 16 []
      k ba (.dev x.loc.space x.loc.pa)
        (if kind = .load then s1.l1Fill i.core 4 0 x.loc.space x.loc.pa
         else (s1.accountLanes i true 0 16 ([x].filter fun y => y.loc.space == spLocal)).l1Drop i.core (locKey x.loc.space x.loc.pa))
  else if ba % 16 ≠ 0 then (s, barTrap i i.eff cMisaligned ba 7)
  else if i.t.ringStart < ba + 16 then (s, barTrap i i.eff cScratchRange ba 7)
  else k ba (.spad i.core (i.t.base + ba)) s

/-- Issue a barrier minor: its value operands must be uniform (R133). -/
def barIssue (s : State) (f : FmtW) (bad : Bool) (rel : Bool) (ok : Bool) (body : Iss → State → State × Eff) : Out :=
  issueAt s (headW f false bad []) rel (fun _ => barOk (src10 f.m.a) (devOf f) && ok)
    (fun i => if devOf f then [barAddr i (src10 f.m.a)] else []) body

/-- A value operand with IMM20 added (R133). -/
def barVal (i : Iss) (f : FmtW) (b : Src) : BitVec 64 := i.uni b + wOff f

/-- CBINIT (R134). -/
def execCbinit (f : FmtW) (s : State) : Out :=
  let b := src10 f.m.b
  let c := src10 f.m.c
  barIssue s f false false (b.uniform && c.uniform) fun i s =>
    withBar i f .atomic s fun ba loc s =>
      let t := (barVal i f b).toNat
      let n := (i.uni c).toNat
      if t % 512 ≠ 0 then (s, barTrap i i.eff cMisaligned ba 7)
      else if 1024 < n ∨ i.t.ringStart < t + 512 * n ∨ (devOf f ∧ (t ≠ 0 ∨ n ≠ 0)) then (s, barTrap i i.eff cBarrierState ba 7)
      else
        (s.barPut loc { pend := 0, armed := false, phase := false, error := false, overrun := false, rsvLo := 0, cause := 0,
                        chunks := n, tile := t, rsvHi := 0 }, { i.eff with region := true })

/-- CBEXP (R124, R134). -/
def execCbexp (f : FmtW) (s : State) : Out :=
  let b := src10 f.m.b
  barIssue s f false false b.uniform fun i s =>
    withBar i f .atomic s fun ba loc s =>
      let n := (barVal i f b).toInt
      let x := s.barGet loc
      if n < 1 ∨ 0x7FFFFFFF < n ∨ 0x7FFFFFFF < x.pend + n then (s, barTrap i i.eff cBarrierState ba 7)
      else (s.barPut loc (x.expect n.toNat), { i.eff with region := true })

/-- A release that updates a device-memory barrier is recorded at its slice (R275). -/
def State.noteBar (s : State) (core : Nat) (loc : BarLoc) : State :=
  match loc with
  | .spad _ _ => s
  | .dev sp pa => s.noteRelease core true { space := sp, pa := pa, nc := false }

/-- CBARR (R134, R276). -/
def execCbarr (f : FmtW) (s : State) : Out :=
  let b := src10 f.m.b
  barIssue s f false (devOf f) b.uniform fun i s =>
    withBar i f .atomic s fun ba loc s =>
      let n := (barVal i f b).toInt
      if n < 1 ∨ 0x7FFFFFFF < n then (s, barTrap i i.eff cBarrierState ba 7)
      else ((s.barPut loc ((s.barGet loc).arrive n.toNat)).noteBar i.core loc, { i.eff with region := true })

/-- Where a parked barrier wait stands (R134). -/
def barWaitOf (ba : Nat) (loc : BarLoc) (phase : Option PhaseSrc) : Wait :=
  match loc with
  | .spad _ _ => .barrier ba none phase
  | .dev sp pa => .barrier ba (some (locKey sp pa)) phase

/-- What a barrier wait does with what it has seen of the barrier (`Bar.verdict`): trap, complete with its acquire, or park. -/
def barWait (i : Iss) (s : State) (scope ba : Nat) (seen : BitVec 8) (w : Wait) : State × Eff :=
  if seen = 0 then (s, { i.eff with parks := [(i.sub, w)] })
  else if seen = 0xFF then (s.acquire i.core scope true, i.eff)
  else (s, barTrap i i.eff seen ba 7)

/-- Lanes of the sub-group whose wait an update has ended complete with what they saw in it, and with the barrier address that the wait
read; the others at the PC issue the instruction later (R125). -/
def barBack (i : Iss) (s : State) (scope : Nat) : Option (State × Eff) :=
  let seen (p : BitVec 8 → Bool) : LaneSet := (laneSet fun l => p (i.g.lane l).seen) &&& i.sub
  let bad := (lanesOf (seen fun v => v != 0 && v != 0xFF)).map fun l =>
    { lane := l, cause := (i.g.lane l).seen, addr := (i.g.lane l).seenAt, info := 0, access := 7 : LTrap }
  if seen (· != 0) = 0 then none
  else some (s.acquire i.core scope true,
    { i.eff with traps := bad, jumps := (lanesOf (seen (· == 0))).map fun l => (l, i.pci) })

/-- The scope of a barrier's acquire: .sys in device memory, .team in scratchpad (R276). -/
def barScope (f : FmtW) : Nat := if devOf f then 4 else 1

/-- Where CBWAIT's operand B gives the phase (R134). -/
def phaseSrc (i : Iss) (b : Src) : PhaseSrc :=
  match b with
  | .g n => .reg n
  | x => .const ((i.uni x).getLsbD 0)

/-- CBWAIT (R134). -/
def execCbwait (f : FmtW) (s : State) : Out :=
  let b := src10 f.m.b
  let ph := bit f.aux.toNat 0
  barIssue s f false false (!ph || b.uniform) fun i s =>
    match barBack i s (barScope f) with
    | some r => r
    | none =>
      withBar i f .load s fun ba loc s =>
        let phase := if ph then some (phaseSrc i b) else none
        barWait i s (barScope f) ba ((s.barGet loc).verdict (phase.map i.g.phaseBit)) (barWaitOf ba loc phase)

/-- CBWAITM (R134). -/
def execCbwaitm (f : FmtW) (s : State) : Out :=
  let b := src10 f.m.b
  let c := src10 f.m.c
  barIssue s f (devOf f) false (b.uniform && c.uniform) fun i s =>
    match barBack i s 1 with
    | some r => r
    | none =>
      withBar i f .load s fun ba loc s =>
        let x := s.barGet loc
        let m := (i.uni b).toNat
        let first := (i.uni c).toNat
        if m ≠ 0 ∧ (x.chunks = 0 ∨ x.chunks ≤ first + m.log2) then (s, barTrap i i.eff cBarrierState ba 7)
        else barWait i s 1 ba (x.verdictM (s.core i.core) i.t.base m first) (.barrierMask ba m first)

/-- A g result of the ASYNC major, which is long-latency (R347). -/
def lateG (s : State) (i : Iss) (d : Nat) (x : BitVec 64) : State := s.updGroup i fun g => (g.gset d x).await (.g d) i.sub

/-- A k result of the ASYNC major, which is long-latency (R347); one to k0 is ignored, and nothing awaits it (R137). -/
def lateK (s : State) (i : Iss) (d : Nat) (x : Bool) : State :=
  s.updGroup i fun g => if d = 0 then g else (g.kset d (if x then BitVec.allOnes 32 else 0)).await (.k d) i.sub

/-- CBTEST (R134). -/
def execCbtest (f : FmtW) (s : State) : Out :=
  barIssue s f (wRel f) false (dgOk f.m.d.toNat) fun i s =>
    withBar i f .load s fun _ loc s =>
      ((lateG s i f.m.d.toNat (BitVec.ofNat 64 (s.barGet loc).bits)).acquire i.core (barScope f) (wAcq f), i.eff)

/-- CBERR (R134). -/
def execCberr (f : FmtW) (s : State) : Out :=
  barIssue s f false false (dgOk f.m.d.toNat) fun i s =>
    withBar i f .atomic s fun _ loc s =>
      let x := s.barGet loc
      (lateG (s.barPut loc { x with error := false, overrun := false, cause := 0 }) i f.m.d.toNat (BitVec.ofNat 64 x.bits),
       { i.eff with region := true })

/-! ## QRING and KICK -/

/-- Roles that a team declares (Table 14.2). -/
def Team.roles (t : Team) : Nat := ((List.range 4).filter fun r => decide (pk t.record (24 + 2 * r) 1 ≠ 0)).length

/-- The slot that QRING gives a group of a role: the slot it holds, a FREE general slot, its role's reserve slot, or none
(R116). -/
def Team.qring (t : Team) (group role : Nat) : Option Nat :=
  let slot (k : Nat) : RingSlot := t.ring.getD k .free
  match (List.range 8).find? fun k => slot k = .held group with
  | some k => some k
  | none =>
    match (List.range (8 - t.roles)).find? fun k => slot k = .free with
    | some k => some k
    | none =>
      let k := 8 - t.roles + role
      if k < 8 ∧ slot k = .free then some k else none

/-- QRING (R116). -/
def execQring (f : FmtW) (s : State) : Out :=
  issue s (headW f false false []) (fun _ => dgOk f.m.d.toNat) fun i s =>
    let k := i.t.qring (gidGroup i.g.gid) (gidRole i.g.gid)
    let s1 :=
      match k with
      | some n => s.setTeam { i.t with ring := i.t.ring.set n (.held (gidGroup i.g.gid)) }
      | none => s
    (lateG s1 i f.m.d.toNat (BitVec.ofNat 64 (i.t.ringStart + 64 * k.getD 8)), { i.eff with region := true })

/-- KICK (R117): the held slot is submitted with its place in the core's order. -/
def execKick (f : FmtW) (s : State) : Out :=
  let a := src10 f.m.a
  issueMem s (headW f false false []) true (fun _ => a.isG && d8Ok f.m.d.toNat) fun i s =>
    let off := (i.uni a).toNat
    match (List.range 8).find? fun k => i.t.ring.getD k .free == .held (gidGroup i.g.gid) with
    | some k =>
      if off = i.t.ringStart + 64 * k then
        let (s1, place) := s.takePlace i.core (packetChunks i.t (teamPacket s i.t off))
        let s2 := s1.setTeam { i.t with ring := i.t.ring.set k (.submitted place (i.origin s)) }
        (lateK s2 i f.m.d.toNat true, { i.eff with region := true })
      else (lateK s i f.m.d.toNat false, { i.eff with region := true })
    | none => (lateK s i f.m.d.toNat false, { i.eff with region := true })

end Sys2Proof.Machine
end

