-- ==== Sys2Proof/Machine/Alloc.lean ====
section
/-! DEFINITION. The ALLOC major: GROW and SHRK (06_registers_and_scratchpad.md R141 to R144), ATLOAD and ATSEL
(08_vector_unit.md R201 to R205), MODE and MODER (07_number_formats.md R170, R171). -/

namespace Sys2Proof.Machine

open Sys2Proof.Bits

/-- A trap of the sub-group. -/
def subTrap (s : State) (i : Iss) (cause : BitVec 8) (addr : BitVec 64) : State × Eff :=
  (s, { i.eff with traps := trapSet i.sub cause addr 0 7 })

/-- GROW and SHRK: the target, which must be 1 to 48 (R143). -/
def budgetOp (s : State) (f : FmtM) (body : Iss → Nat → State → State × Eff) : Out :=
  let a := src10 f.a
  issue s (headM f false (!f.rb) .none []) (fun _ => a.uniform) fun i s =>
    let t := i.uni a
    if t.toNat < 1 ∨ 48 < t.toNat then subTrap s i cIllegalOperand t else body i t.toNat s

/-- GROW (R143). -/
def execGrow (f : FmtM) (s : State) : Out :=
  budgetOp s f fun i t s =>
    let port := (s.core i.core).port i.port
    let b := i.g.curBudget
    if t ≤ b then (s, { i.eff with region := true })
    else if port.waitq = [] ∧ t - b ≤ port.pool then
      ((s.updGroup i fun g => { g with budgetNext := some t }).setPort i.core i.port { port with pool := port.pool - (t - b) },
       { i.eff with region := true })
    else
      (s.setPort i.core i.port { port with waitq := port.waitq ++ [{ slot := keySlot i.key, lanes := i.sub, target := t }] },
       { i.eff with parks := [(i.sub, .grow)] })

/-- SHRK (R143). -/
def execShrk (f : FmtM) (s : State) : Out :=
  budgetOp s f fun i t s =>
    let b := i.g.curBudget
    if b ≤ t then (s, { i.eff with region := true })
    else
      ((s.updGroup i fun g => { g.cutV t with budgetNext := some t }).freeBlocks i.core i.port (b - t),
       { i.eff with region := true })

/-! ## Activation tables -/

/-- A bank of a core, and a core with a bank replaced. -/
def Core.actBank (c : Core) (b : Nat) : ActBank := if b = 0 then c.bank0 else c.bank1
def Core.setBank (c : Core) (b : Nat) (x : ActBank) : Core := if b = 0 then { c with bank0 := x } else { c with bank1 := x }

/-- The resident groups of a core that select a bank (R201). -/
def State.bankCount (s : State) (core b : Nat) : Nat :=
  (s.groups.filter fun p => keyCore p.1 == core && p.2.actSel == some b).length

/-- The header of an image is valid (R202). -/
def imageOk (h : List Byte) : Bool :=
  let lg := sval 8 (pk h 4 1)
  decide (fld (pk h 0 4) 23 8 ≠ 255) && decide (-20 ≤ lg) && decide (lg ≤ 20) && decide (pk h 5 1 / 4 = 0) &&
    decide (pk h 6 2 = 0)

/-- ATLOAD (R202). -/
def execAtload (f : FmtM) (s : State) : Out :=
  let a := src10 f.a
  let b := src10 f.b
  issueMem s (headM f false false .none []) false (fun _ => a.uniform && b.uniform) fun i s =>
    let n := (i.uni a).toNat
    let off := (i.uni b).toNat
    let trap (c : BitVec 8) : State × Eff := subTrap s i c (BitVec.ofNat 64 off)
    if 2 ≤ n then subTrap s i cIllegalOperand 0
    else if off % 16 ≠ 0 then trap cMisaligned
    else if i.t.size < off + 8208 then trap cScratchRange
    else
      let c := s.core i.core
      if absent c (i.t.base + off) 8208 then (s, { i.eff with parks := [(i.sub, .chunks)] })
      else if !imageOk (spadRead c (i.t.base + off) 16) || (c.actBank n).st == .loading || decide (s.bankCount i.core n ≠ 0) then
        trap cTableBound
      else
        (s.setCore i.core (c.setBank n { st := .loading, bytes := [], loader := some (i.port, keySlot i.key, i.sub),
                                         off := i.t.base + off }),
         { i.eff with parks := [(i.sub, .bank n)] })

/-- ATSEL (R203): the selection stands at once, whatever is selected later; on a LOADING bank the sub-group parks until the bank is READY, and
then goes on (R201). -/
def execAtsel (f : FmtM) (s : State) : Out :=
  let a := src10 f.a
  issue s (headM f false false .none []) (fun _ => a.uniform) fun i s =>
    let n := (i.uni a).toNat
    if 3 ≤ n then subTrap s i cIllegalOperand 0
    else
      let s1 := s.updGroup i fun g => { g with actSel := if n = 2 then none else some n }
      if n < 2 ∧ ((s.core i.core).actBank n).st = .loading then (s1, { i.eff with parks := [(i.sub, .select n)] })
      else (s1, i.eff)

/-! ## FMODE -/

/-- RM and SUBN bits of FMODE that are not reserved codes (Table 7.6). -/
def fmodeOk (x : Nat) : Bool := decide (x % 8 ≤ 5) && decide (fld x 3 2 ≤ 1)

/-- MODE (R170, R171). -/
def execMode (f : FmtM) (s : State) : Out :=
  let a := src10 f.a
  issue s (headM f false (!f.rb) .none []) (fun _ => a.uniform) fun i s =>
    let x := (i.uni a).toNat
    if fmodeOk x then (s.updGroup i fun g => { g with fmodeNext := some (BitVec.ofNat 32 (x % 32)) }, i.eff)
    else subTrap s i cIllegalOperand 0

/-- MODER (R171). -/
def execModer (f : FmtM) (s : State) : Out :=
  issue s (headM f false false .none []) (fun _ => dgOk f.d.toNat)
    (onGroup fun i => (i.g.gset f.d.toNat (i.g.fmode.setWidth 64), i.eff))

end Sys2Proof.Machine
end

