-- ==== Sys2Proof/Machine/Float.lean ====
section
/-! DEFINITION. Floating-point values exactly, and rounding them (07_number_formats.md R157, R158, R164 to R167): a value is
a NaN, an infinity or a sign, an integer and a power of two, and every operation is exact until `roundTo`. -/

namespace Sys2Proof.Machine

open Sys2Proof.Bits

/-- An exact value: a NaN (`sig`: signalling), an infinity, or (−1)^neg × m × 2^e. -/
inductive FVal
  | nan (sig : Bool)
  | inf (neg : Bool)
  | fin (neg : Bool) (m : Nat) (e : Int)
deriving DecidableEq, Repr

/-- Exponent of the least subnormal of a type. -/
def fq (ty : Nat) : Int := 1 - (fbias ty : Int) - ffrac ty

/-- The largest finite magnitude's bits, sign off (Table 7.1). -/
def fmaxCode (ty : Nat) : Nat := if ty = 12 then 0x7E else (2 ^ fexp ty - 1) * 2 ^ ffrac ty - 1

/-- The sign bit of a type. -/
def fsign (ty : Nat) : Nat := 2 ^ (tyW ty - 1)

/-- The bits of an infinity (E4M3 has none, R165). -/
def finf (ty : Nat) : Nat := (2 ^ fexp ty - 1) * 2 ^ ffrac ty

/-- The canonical NaN (R158). -/
def fnan (ty : Nat) : Nat := if ty = 12 then 0x7F else finf ty + 2 ^ (ffrac ty - 1)

/-- The value of bits (R157, R158). -/
def fval (ty x : Nat) : FVal :=
  let neg := x.testBit (tyW ty - 1)
  let ex := fld x (ffrac ty) (fexp ty)
  let fr := fld x 0 (ffrac ty)
  if ty = 12 then
    if ex = 15 ∧ fr = 7 then .nan false
    else if ex = 0 then .fin neg fr (fq ty) else .fin neg (8 + fr) (fq ty + ex - 1)
  else if ex = 2 ^ fexp ty - 1 then
    if fr = 0 then .inf neg else .nan (!fr.testBit (ffrac ty - 1))
  else if ex = 0 then .fin neg fr (fq ty)
  else .fin neg (2 ^ ffrac ty + fr) (fq ty + ex - 1)

/-- Whether bits are a subnormal. -/
def isSub (ty x : Nat) : Bool := fld x (ffrac ty) (fexp ty) == 0 && fld x 0 (ffrac ty) != 0

/-- Bits as an operand: under flush a subnormal is a zero of its own sign (R165). -/
def fin (md : Modes) (ty x : Nat) : Nat := if md.flush && isSub ty x then x / fsign ty % 2 * fsign ty else x

/-- An operand's value. -/
def fread (md : Modes) (ty x : Nat) : FVal := fval ty (fin md ty x)

/-- Whether a value is a signalling NaN, and a NaN. -/
def FVal.isSnan (x : FVal) : Bool := x == .nan true
def FVal.isNan (x : FVal) : Bool := x == .nan true || x == .nan false
def FVal.isZero (x : FVal) : Bool :=
  match x with
  | .fin _ 0 _ => true
  | _ => false

/-- NV for a signalling NaN among operands (R158). -/
def snanFlag (l : List FVal) : Flags := if l.any FVal.isSnan then fNV else 0

/-- bitrev6 (Table 7.5). -/
def bitrev6 (i : Nat) : Nat :=
  fld i 0 1 * 32 + fld i 1 1 * 16 + fld i 2 1 * 8 + fld i 3 1 * 4 + fld i 4 1 * 2 + fld i 5 1

/-- The numerator over 128 of the dither threshold at a position (R166). -/
def ditherAt (md : Modes) (pos : Nat) : Nat := 2 * bitrev6 ((pos + md.dph) % 64) + 1

/-- Whether a magnitude n + rem ÷ 2^k, or slightly more where `more`, is rounded up to n + 1 (Table 7.4). `thr` is the
dither threshold over 128. -/
def roundsUp (rm : Rm) (neg : Bool) (thr n rem k : Nat) (more : Bool) : Bool :=
  if rem = 0 && !more then false
  else
    match rm with
    | .rtz => false
    | .rup => !neg
    | .rdn => neg
    | .rne => decide (2 ^ k < 2 * rem) || (decide (2 ^ k = 2 * rem) && (more || n % 2 == 1))
    | .rna => decide (2 ^ k ≤ 2 * rem)
    | .dither =>
      if neg then decide (thr * 2 ^ k < rem * 128) else decide (128 * 2 ^ k ≤ rem * 128 + thr * 2 ^ k)

/-- A magnitude m × 2^e (slightly more where `more`) rounded to a multiple of 2^q: the multiple and whether it is
inexact. -/
def roundAt (rm : Rm) (neg : Bool) (thr m : Nat) (e q : Int) (more : Bool) : Nat × Bool :=
  if q ≤ e then (m * 2 ^ (e - q).toNat, more)
  else
    -- beyond 64 places above the magnitude's top bit, every mode decides alike
    let k := min (q - e).toNat (m.log2 + 64)
    let n := m / 2 ^ k
    let rem := m % 2 ^ k
    (if roundsUp rm neg thr n rem k more then n + 1 else n, rem != 0 || more)

/-- `RoundTo` of R42 with R164, R165 and R34: the bits and the flags. `more`: the magnitude lies strictly above m × 2^e and
below (m + 1) × 2^e; then m has more bits than any type's significand. -/
def roundFull (md : Modes) (thr : Nat) (ty : Nat) (x : FVal) (more : Bool) : Nat × Flags :=
  match x with
  | .nan _ => (fnan ty, 0)
  | .inf neg =>
    let s := if neg then fsign ty else 0
    if ty = 12 then (if md.sat then s + fmaxCode ty else fnan ty, fOF ||| fNX) else (s + finf ty, 0)
  | .fin neg m e =>
    let s := if neg then fsign ty else 0
    if m = 0 && !more then (s, 0)
    else
      let top := e + (m.log2 : Int)
      let q := max (top - ffrac ty) (fq ty)
      let code (r : Nat) : Nat := (q - fq ty).toNat * 2 ^ ffrac ty + r
      let ovf := fun (r : Nat × Bool) => decide (fmaxCode ty < code r.1)
      let rm0 := roundAt .rtz neg 0 m e q more
      let rm := if md.rm = .dither && (ovf rm0 || (code rm0.1 == fmaxCode ty && rm0.2)) then Rm.rne else md.rm
      let r := roundAt rm neg thr m e q more
      if ovf r then
        let toInf := match rm with
          | .rtz => false
          | .rup => !neg
          | .rdn => neg
          | _ => true
        let bits :=
          if !toInf || md.sat then s + fmaxCode ty else if ty = 12 then fnan ty else s + finf ty
        (bits, fOF ||| fNX)
      else
        let nx : Flags := if r.2 then fNX else 0
        -- tininess after rounding: the value rounded with an unbounded exponent
        let q' := top - ffrac ty
        let u := roundAt rm neg thr m e q' more
        let tiny := decide (q' + (u.1.log2 : Int) < fq ty + ffrac ty)
        let sub := r.1 != 0 && decide (code r.1 < 2 ^ ffrac ty)
        if md.flush && sub then (s, fUF ||| fNX)
        else (s + code r.1, if tiny && r.2 then nx ||| fUF else nx)

/-- `RoundTo` at a position (R166). -/
def roundTo (md : Modes) (ty : Nat) (x : FVal) (pos : Nat) : Nat × Flags := roundFull md (ditherAt md pos) ty x false

/-- Round to nearest even keeping subnormals, whatever the modes (RNE_F32 and its like). -/
def Modes.exactRne : Modes := { rm := .rne, flush := false, sat := false, nf := false, dph := 0 }

/-! ## Exact arithmetic (R189) -/

/-- A sum of two values; `rdn`: a zero sum of opposite signs is −0 (R165). -/
def fadd (rdn : Bool) (a b : FVal) : FVal × Flags :=
  match a, b with
  | .nan _, _ => (.nan false, snanFlag [a, b])
  | _, .nan _ => (.nan false, snanFlag [a, b])
  | .inf p, .inf q => if p = q then (.inf p, 0) else (.nan false, fNV)
  | .inf p, _ => (.inf p, 0)
  | _, .inf q => (.inf q, 0)
  | .fin p m e, .fin q n d =>
    let lo := min e d
    let x : Int := (m * 2 ^ (e - lo).toNat : Nat)
    let y : Int := (n * 2 ^ (d - lo).toNat : Nat)
    let z := (if p then -x else x) + (if q then -y else y)
    (.fin (if z = 0 then (if p = q then p else rdn) else decide (z < 0)) z.natAbs lo, 0)

/-- The negation of a value. -/
def FVal.neg (a : FVal) : FVal :=
  match a with
  | .nan s => .nan s
  | .inf p => .inf !p
  | .fin p m e => .fin (!p) m e

/-- A product of two values. -/
def fmul (a b : FVal) : FVal × Flags :=
  match a, b with
  | .nan _, _ => (.nan false, snanFlag [a, b])
  | _, .nan _ => (.nan false, snanFlag [a, b])
  | .inf p, .inf q => (.inf (p != q), 0)
  | .inf p, .fin q n _ => if n = 0 then (.nan false, fNV) else (.inf (p != q), 0)
  | .fin p m _, .inf q => if m = 0 then (.nan false, fNV) else (.inf (p != q), 0)
  | .fin p m e, .fin q n d => (.fin (p != q) (m * n) (e + d), 0)

/-- a × b + c as one exact value. -/
def ffma (rdn : Bool) (a b c : FVal) : FVal × Flags :=
  let (p, f) := fmul a b
  let (r, g) := fadd rdn p c
  (r, f ||| g ||| snanFlag [c])

/-- The mode whose zero sums are −0 (R165). -/
def Modes.rdn (m : Modes) : Bool := m.rm == .rdn

/-- A value with its operation's flags, rounded. -/
def rounded (md : Modes) (ty pos : Nat) (x : FVal × Flags) : Nat × Flags :=
  let (r, f) := roundTo md ty x.1 pos
  (r, f ||| x.2)

/-- A value rounded to an integer under a mode: magnitude and whether it is inexact. -/
def roundInt (rm : Rm) (thr : Nat) (neg : Bool) (m : Nat) (e : Int) : Nat × Bool := roundAt rm neg thr m e 0 false

/-! ## Comparing (R191, R192) -/

/-- Bits as a key in numeric order with −0 below +0; not for a NaN. -/
def fkey (ty x : Nat) : Int :=
  let mag := x % fsign ty
  if x / fsign ty % 2 = 1 then -((mag : Int) + 1) else mag

/-- Bits as a key in numeric order with equal zeros; not for a NaN. -/
def fkey0 (ty x : Nat) : Int :=
  let mag := x % fsign ty
  if x / fsign ty % 2 = 1 then -(mag : Int) else mag

/-- FMIN and FMAX (R191). -/
def fminmax (md : Modes) (ty : Nat) (isMax : Bool) (a b : Nat) : Nat × Flags :=
  let a := fin md ty a
  let b := fin md ty b
  let va := fval ty a
  let vb := fval ty b
  let r :=
    if va.isNan && vb.isNan then fnan ty
    else if va.isNan then b
    else if vb.isNan then a
    else if (decide (fkey ty a ≤ fkey ty b)) != isMax then a else b
  (r, snanFlag [va, vb])

end Sys2Proof.Machine
end

