-- ==== Sys2Proof/Machine/Elem.lean ====
section
/-! DEFINITION. What the vector instructions share: element-by-element results with their flags (08_vector_unit.md R180 to
R184, R189), the mask and vector forms of a compare (R186), and the world's count of element operations
(16_host_security_bringup.md Table 16.6, meter 1). -/

namespace Sys2Proof.Machine

open Sys2Proof.Bits

/-- An element operation: the modes as issued, the type, the position of R166, and the sub-elements of A, B and C give the
result's bits and the flags it raises. -/
abbrev EltOp := Modes → Nat → Nat → Nat → Nat → Nat → Nat × Flags

/-- A used source with the type it is read under. -/
abbrev TySrc := Src × Nat

/-- Sources are encoded, within the budget, and no immediate stands under a type that takes none (R15, R17, R19, R22). -/
def tySrcsOk (i : Iss) (l : List TySrc) : Bool :=
  l.all fun x => x.1.ok i.g.budget && (!x.1.isImm || immOk x.2)

/-- Sub-element `k` of the source `n` of a list, in lane `l`; 0 for a source that is not used. -/
def elt (i : Iss) (l : List TySrc) (n lane k : Nat) : Nat :=
  match l[n]? with
  | none => 0
  | some x => sube (tyW x.2) k (i.read x.1 lane x.2)

/-- The results of an element operation in every lane of `m` (0 elsewhere) and the flags of the active lanes (R169). -/
def eltwise (i : Iss) (ty : Nat) (m : LaneSet) (l : List TySrc) (op : EltOp) : List (BitVec 64) × Flags :=
  let md := i.modes
  let rows := lanes32.map fun lane =>
    if inSet m lane then
      (List.range (tyP ty)).map fun k => op md ty (lane + 32 * k) (elt i l 0 lane k) (elt i l 1 lane k) (elt i l 2 lane k)
    else []
  (rows.map fun r => pack (tyW ty) (r.map Prod.fst), orFlags (rows.flatMap fun r => r.map Prod.snd))

/-- Element operations of active lanes on the world's meter 1 (Table 16.6). -/
def State.countOps (s : State) (i : Iss) (m : LaneSet) (n : Nat) : State :=
  s.meter (s.teamWorld i.t) 1 (popc 32 m.toNat * n)

/-- A vector instruction whose results and flags are `f`, counted as `n` operations per active lane: the result is written
(R42 `WriteDst`) and the flags accumulate (R169). -/
def vecResult (d guard : Nat) (nw : Bool) (n : Nat) (f : Iss → LaneSet → List (BitVec 64) × Flags) (i : Iss) (s : State) :
    State × Eff :=
  let m := i.act guard
  let (res, fl) := f i m
  let (g1, e) := writeDst i.g i.eff d nw m (fun l => res.getD l 0)
  ((s.countOps i m n).setGroup i.key (g1.raise i.modes fl), e)

/-- A vector instruction that leaves no count on the meters (VCVT, GTOV, VLDI, which R182 does not name). -/
def vecPlain (d guard : Nat) (nw : Bool) (f : Iss → LaneSet → List (BitVec 64) × Flags) (i : Iss) : Group × Eff :=
  let m := i.act guard
  let (res, fl) := f i m
  let (g1, e) := writeDst i.g i.eff d nw m (fun l => res.getD l 0)
  (g1.raise i.modes fl, e)

/-- An element-by-element instruction with destination `d`, under head `h`; `fma` counts two operations an element. -/
def arith (s : State) (h : Head) (d guard ty : Nat) (nw fma : Bool) (l : List TySrc) (op : EltOp) : Out :=
  issue s h (fun i => dvOk d i.g.budget && tySrcsOk i l)
    (vecResult d guard nw (if fma then 2 * tyP ty else tyP ty) (fun i m => eltwise i ty m l op))

/-- A compare condition on an operand pair: whether it holds, and the flags it raises. -/
abbrev CmpOp := Modes → Nat → Nat → Nat → Nat → Bool × Flags

/-- A compare in its mask form (C[6] = 0) or vector form (R186), with the code in C. -/
def compare (s : State) (f : FmtM) (tyOk : Bool) (pfx : PfxClass) (maxCc : Nat) (op : CmpOp) : Out :=
  let ty := f.ty.toNat
  let sc := src10 f.c
  let code := sc.raw
  let vec := sc.isImm && bit code 6
  let sub := fld code 3 3
  let cc := code % 8
  let d := f.d.toNat
  let l : List TySrc := [(src10 f.a, ty), (src10 f.b, ty)]
  issue s (headM f vec (!tyOk) pfx [src10 f.a, src10 f.b])
    (fun i => tySrcsOk i l && sc.isImm && decide (cc ≤ maxCc) &&
      (if vec then dvOk d i.g.budget && decide (sub = 0) else d8Ok d && decide (sub < tyP ty)))
    (fun i s =>
      let m := i.act f.g.toNat
      if vec then
        vecResult d f.g.toNat f.nw (tyP ty) (fun i m => eltwise i ty m l fun md ty _ a b _ =>
          let (t, fl) := op md ty cc a b
          (if t then 2 ^ tyW ty - 1 else 0, fl)) i s
      else
        let rs := lanes32.map fun lane =>
          if inSet m lane then op i.modes ty cc (elt i l 0 lane sub) (elt i l 1 lane sub) else (false, 0)
        let g1 := (i.g.kset d (laneSet fun lane => (rs.getD lane (false, 0)).1)).raise i.modes (orFlags (rs.map Prod.snd))
        ((s.countOps i m (tyP ty)).setGroup i.key g1, i.eff))

end Sys2Proof.Machine
end

