-- ==== Sys2Proof/Machine/Vint.lean ====
section
/-! DEFINITION. The VINT major and the short forms that execute as it (08_vector_unit.md R183 to R187,
02_instruction_words.md R35), and NOP (R37). -/

namespace Sys2Proof.Machine

open Sys2Proof.Bits

/-- A sub-element as an integer of its type (R180). -/
def ival (ty x : Nat) : Int := if tySigned ty then sval (tyW ty) x else (x : Int)

/-- The range of an integer type (R159); B64 counts as unsigned. -/
def imin (ty : Nat) : Int := if tySigned ty then -(2 ^ (tyW ty - 1) : Nat) else 0
def imax (ty : Nat) : Int := if tySigned ty then (2 ^ (tyW ty - 1) : Nat) - 1 else (2 ^ tyW ty : Nat) - 1

/-- `Fit` of R184. -/
def fit (md : Modes) (ty : Nat) (x : Int) : Nat × Flags :=
  if imin ty ≤ x ∧ x ≤ imax ty then (wrap (tyW ty) x, 0)
  else if md.sat then (wrap (tyW ty) (if x < imin ty then imin ty else imax ty), fSAT)
  else (wrap (tyW ty) x, 0)

/-- A minor whose exact integer result is fitted. -/
def exactOp (f : Nat → Int → Int → Int → Int) : EltOp := fun md ty _ a b c =>
  fit md ty (f ty (ival ty a) (ival ty b) (ival ty c))

/-- A minor whose result is a bit pattern of the sub-element's width. -/
def bitsOp (f : Nat → Nat → Nat → Nat → Nat) : EltOp := fun _ ty _ a b c => (f (tyW ty) a b c % 2 ^ tyW ty, 0)

/-! The element operations of Table 8.3. -/

def opVadd : EltOp := exactOp fun _ a b _ => a + b
def opVsub : EltOp := exactOp fun _ a b _ => a - b
def opVmul : EltOp := exactOp fun _ a b _ => a * b
def opVmulh : EltOp := exactOp fun ty a b _ => a * b / (2 ^ tyW ty : Nat)
def opVmad : EltOp := exactOp fun _ a b c => a * b + c
def opVmin : EltOp := exactOp fun _ a b _ => min a b
def opVmax : EltOp := exactOp fun _ a b _ => max a b
def opVabs : EltOp := exactOp fun _ a _ _ => a.natAbs
def opVneg : EltOp := exactOp fun _ a _ _ => -a
def opVand : EltOp := bitsOp fun _ a b _ => a &&& b
def opVor : EltOp := bitsOp fun _ a b _ => a ||| b
def opVxor : EltOp := bitsOp fun _ a b _ => a ^^^ b
def opVnot : EltOp := bitsOp fun w a _ _ => 2 ^ w - 1 - a
def opVshl : EltOp := fun md ty _ a b _ => fit md ty (ival ty a * (2 ^ (b % tyW ty) : Nat))
def opVshr : EltOp := bitsOp fun w a b _ => a >>> (b % w)
def opVsar : EltOp := bitsOp fun w a b _ => wrap w (sval w a / (2 ^ (b % w) : Nat))
def opVrot : EltOp := bitsOp fun w a b _ => a * 2 ^ (b % w) + a >>> (w - b % w)
def opVclz : EltOp := bitsOp fun w a _ _ => clz w a
def opVpopc : EltOp := bitsOp fun w a _ _ => popc w a
def opVsel : EltOp := bitsOp fun _ a b c => if c ≠ 0 then a else b
def opVmov : EltOp := bitsOp fun _ a _ _ => a

/-- Prefix class of a VINT minor (R32, Table 2.15). -/
def vintPfx (sat : Bool) (ty : Nat) : PfxClass := if !tyInt ty then .none else if sat then .sat else .zero

/-- A VINT minor with `n` sources, in format M; `logic`: B64 is accepted too. -/
def vint (s : State) (f : FmtM) (logic sat : Bool) (n : Nat) (op : EltOp) : Out :=
  let ty := f.ty.toNat
  let srcs := [src10 f.a, src10 f.b, src10 f.c].take n
  arith s (headM f true (!(tyInt ty || (logic && ty == 15))) (vintPfx sat ty) srcs) f.d.toNat f.g.toNat ty f.nw false
    (srcs.map fun x => (x, ty)) op

/-- A short form of a VINT minor (R35): guard k0. -/
def vintShort (s : State) (f : FmtS) (ty : Nat) (pfx : PfxClass) (n : Nat) (op : EltOp) : Out :=
  let srcs := [src7 f.a, src7 f.b].take n
  arith s (headS f true false pfx srcs) f.d.toNat 0 ty f.nw false (srcs.map fun x => (x, ty)) op

/-- VADD (R184). -/
def execVadd (f : FmtM) (s : State) : Out := vint s f false true 2 opVadd
/-- VSUB (R184). -/
def execVsub (f : FmtM) (s : State) : Out := vint s f false true 2 opVsub
/-- VMUL (R184). -/
def execVmul (f : FmtM) (s : State) : Out := vint s f false true 2 opVmul
/-- VMULH (R184). -/
def execVmulh (f : FmtM) (s : State) : Out := vint s f false false 2 opVmulh
/-- VMAD (R184). -/
def execVmad (f : FmtM) (s : State) : Out := vint s f false true 3 opVmad
/-- VMIN (R184). -/
def execVmin (f : FmtM) (s : State) : Out := vint s f false false 2 opVmin
/-- VMAX (R184). -/
def execVmax (f : FmtM) (s : State) : Out := vint s f false false 2 opVmax
/-- VABS (R184). -/
def execVabs (f : FmtM) (s : State) : Out := vint s f false true 1 opVabs
/-- VNEG (R184). -/
def execVneg (f : FmtM) (s : State) : Out := vint s f false true 1 opVneg
/-- VAND (R184). -/
def execVand (f : FmtM) (s : State) : Out := vint s f true false 2 opVand
/-- VOR (R184). -/
def execVor (f : FmtM) (s : State) : Out := vint s f true false 2 opVor
/-- VXOR (R184). -/
def execVxor (f : FmtM) (s : State) : Out := vint s f true false 2 opVxor
/-- VNOT (R184). -/
def execVnot (f : FmtM) (s : State) : Out := vint s f true false 1 opVnot
/-- VSHL (R184). -/
def execVshl (f : FmtM) (s : State) : Out := vint s f true true 2 opVshl
/-- VSHR (R184). -/
def execVshr (f : FmtM) (s : State) : Out := vint s f true false 2 opVshr
/-- VSAR (R184). -/
def execVsar (f : FmtM) (s : State) : Out := vint s f true false 2 opVsar
/-- VROT (R184). -/
def execVrot (f : FmtM) (s : State) : Out := vint s f true false 2 opVrot
/-- VCLZ (R184). -/
def execVclz (f : FmtM) (s : State) : Out := vint s f true false 1 opVclz
/-- VPOPC (R184). -/
def execVpopc (f : FmtM) (s : State) : Out := vint s f true false 1 opVpopc
/-- VSEL (R184). -/
def execVsel (f : FmtM) (s : State) : Out := vint s f true false 3 opVsel

/-- An integer condition of Table 8.4. -/
def icond (cc : Nat) (a b : Int) : Bool :=
  match cc with
  | 0 => decide (a = b)
  | 1 => decide (a ≠ b)
  | 2 => decide (a < b)
  | 3 => decide (a ≤ b)
  | 4 => decide (b < a)
  | _ => decide (b ≤ a)

/-- VCMP (R186). -/
def execVcmp (f : FmtM) (s : State) : Out :=
  let ty := f.ty.toNat
  compare s f (tyInt ty) (vintPfx false ty) 5 fun _ ty cc a b => (icond cc (ival ty a) (ival ty b), 0)

/-- VMOV (R183): the whole 64 bits of A; TY governs only the splat of an immediate. -/
def execVmov (f : FmtM) (s : State) : Out :=
  let ty := f.ty.toNat
  arith s (headM f true false (vintPfx false ty) [src10 f.a]) f.d.toNat f.g.toNat ty f.nw false [(src10 f.a, ty)] opVmov

/-- VSHF (R187): sub-element `s` of the result is the sub-element of A or C that B's index names. -/
def execVshf (f : FmtM) (s : State) : Out :=
  let ty := f.ty.toNat
  let p := tyP ty
  let l : List TySrc := [(src10 f.a, ty), (src10 f.b, ty), (src10 f.c, ty)]
  issue s (headM f true (!tyInt ty) (vintPfx false ty) (l.map Prod.fst))
    (fun i => dvOk f.d.toNat i.g.budget && tySrcsOk i l)
    (vecResult f.d.toNat f.g.toNat f.nw p fun i m =>
      (lanes32.map fun lane =>
        if inSet m lane then
          pack (tyW ty) ((List.range p).map fun k =>
            let j := elt i l 1 lane k
            if j < p then elt i l 0 lane j else if j < 2 * p then elt i l 2 lane (j - p) else 0)
        else 0, 0))

/-- VADD.S32, short (R35). -/
def execVaddS32Short (f : FmtS) (s : State) : Out := vintShort s f 2 .sat 2 opVadd
/-- VSUB.S32, short (R35). -/
def execVsubS32Short (f : FmtS) (s : State) : Out := vintShort s f 2 .sat 2 opVsub
/-- VAND.B64, short (R35). -/
def execVandB64Short (f : FmtS) (s : State) : Out := vintShort s f 15 .none 2 opVand
/-- VXOR.B64, short (R35). -/
def execVxorB64Short (f : FmtS) (s : State) : Out := vintShort s f 15 .none 2 opVxor
/-- VMOV, short (R35): TY 15, B unused. -/
def execVmovShort (f : FmtS) (s : State) : Out := vintShort s f 15 .none 1 opVmov
/-- VSHL.B64, short (R35). -/
def execVshlB64Short (f : FmtS) (s : State) : Out := vintShort s f 15 .none 2 opVshl

/-- NOP (R37): one issue cycle, no effect. -/
def execNop (f : FmtS) (s : State) : Out :=
  issue s (headS f false false .none []) (fun _ => true) (onGroup fun i => (i.g, i.eff))

end Sys2Proof.Machine
end

