-- ==== Sys2Proof/Machine/Atom.lean ====
section
/-! DEFINITION. The ATOM major (04_memory_tiers.md R103 to R105). -/

namespace Sys2Proof.Machine

open Sys2Proof.Bits

/-- The new value of an atomic of width `w` bytes and type `ty` from the old value and the operands B and C (Table 4.12), or
none where it does not write. -/
def atomValue (op : AtomOp) (ty w old b c : Nat) : Option Nat :=
  match op with
  | .add => some ((old + b) % 2 ^ (8 * w))
  | .minS => some (if sval (8 * w) b < sval (8 * w) old then b else old)
  | .minN => some (min old b)
  | .maxS => some (if sval (8 * w) old < sval (8 * w) b then b else old)
  | .maxN => some (max old b)
  | .and => some (old &&& b)
  | .or => some (old ||| b)
  | .xor => some (old ^^^ b)
  | .xch => some b
  | .cas => if old = b then some c else none
  | .fadd => some (rounded Modes.exactRne ty 0 (fadd false (fval ty old) (fval ty b))).1
  | .incStop => if old < b then some (old + 1) else none
  | .incWrap => some (if b ≤ old then 0 else old + 1)

/-- One lane's atomic at its location, indivisibly: the old value, whether it writes, and memory with the new value. -/
def State.atomAt (s : State) (space pa w ty : Nat) (op : AtomOp) (b c : Nat) : Nat × Bool × State :=
  let old := s.readNat space pa w
  match atomValue op ty w old b c with
  | some x => (old, true, s.writeNat space pa w x)
  | none => (old, false, s)

/-- The lanes of an atomic in ascending order, each reading what the lower lane left (R104): each lane with its old value, and the
lanes that write. -/
def atomLanes (w ty : Nat) (op : AtomOp) (b c : Nat → Nat) : List LaneLoc → State → List (Nat × Nat) × List LaneLoc × State
  | [], s => ([], [], s)
  | x :: r, s =>
    let (old, wrote, s1) := s.atomAt x.loc.space x.loc.pa w ty op (b x.lane) (c x.lane)
    let (res, ws, s2) := atomLanes w ty op b c r s1
    ((x.lane, old) :: res, if wrote then x :: ws else ws, s2)

/-- The lanes of an atomic have written `w` bytes each: a local write goes through the LLC, and a release is recorded at its slice
(R104, R275). -/
def State.didWrite (s : State) (i : Iss) (rel : Bool) (w : Nat) (ws : List LaneLoc) : State :=
  let s1 := s.accountLanes i true 0 w (ws.filter fun x => x.loc.space == spLocal)
  ws.foldl (fun t x => t.noteRelease i.core rel x.loc) s1

/-- An atomic (R103, R104): the types it accepts, its operation, and whether it uses C. -/
def atom (s : State) (f : FmtW) (tys : List Nat) (op : AtomOp) (useC : Bool) : Out :=
  let ty := f.m.ty.toNat
  let w := memW ty
  let d := f.m.d.toNat
  let a := src10 f.m.a
  let b := src10 f.m.b
  let c := src10 f.m.c
  let srcs := if useC then [b, c] else [b]
  issueAt s (headW f true (!tys.contains ty || wScopeBad f) (a :: srcs)) (wRelWide f)
    (fun i => dvOk d i.g.budget && a.address && srcsOk i (a :: srcs)) (eas f w)
    fun i s =>
      let k0 := s.checkLanes i .atomic 3 w w (i.act f.m.g.toNat) (ea i f)
      let held := s.promoWaits i f.promo k0.ok
      let k := k0.hold held
      let val (x : Src) (l : Nat) : Nat := (i.read x l ty).toNat % 2 ^ (8 * w)
      let s1 := s.request i false 0 w k
      let s2 := k.ok.foldl (fun t x => if x.loc.space = spLocal then t.correct x.loc.pa w else t) s1
      let (olds, ws, s3) := atomLanes w ty op (val b) (val c) k.ok s2
      let s4 := k.ok.foldl (fun t x => t.l1Drop i.core (locKey x.loc.space x.loc.pa)) (s3.didWrite i (wRel f) w ws)
      let s5 := ((s4.holdRemote i .atomic w k.waits).holdPromo i held).acquire i.core (wSc f) (wAcq f)
      let res (l : Nat) : BitVec 64 := extend ty w (((olds.find? fun p => p.1 == l).map (·.2)).getD 0)
      let (g, e) := writeDst (s5.issGroup i) ((i.eff.checks k .remote).promo held .remote) d f.m.nw k.okLanes res
      (s5.setGroup i.key (if f.m.nw then g else g.await (.v d) k.okLanes), { e with region := true })

/-- AADD (R104). -/
def execAadd (f : FmtW) (s : State) : Out := atom s f [2, 3, 6, 7] .add false
/-- AMIN (R104). -/
def execAmin (f : FmtW) (s : State) : Out :=
  atom s f [2, 3, 6, 7] (if tySigned f.m.ty.toNat then .minS else .minN) false
/-- AMAX (R104). -/
def execAmax (f : FmtW) (s : State) : Out :=
  atom s f [2, 3, 6, 7] (if tySigned f.m.ty.toNat then .maxS else .maxN) false
/-- AAND (R104). -/
def execAand (f : FmtW) (s : State) : Out := atom s f [6, 7, 15] .and false
/-- AOR (R104). -/
def execAor (f : FmtW) (s : State) : Out := atom s f [6, 7, 15] .or false
/-- AXOR (R104). -/
def execAxor (f : FmtW) (s : State) : Out := atom s f [6, 7, 15] .xor false
/-- AXCH (R104). -/
def execAxch (f : FmtW) (s : State) : Out := atom s f [6, 7, 10, 11, 15] .xch false
/-- ACAS (R104). -/
def execAcas (f : FmtW) (s : State) : Out := atom s f [6, 7, 15] .cas true
/-- AFADD (R105). -/
def execAfadd (f : FmtW) (s : State) : Out := atom s f [10, 11] .fadd false
/-- AINC (R104): AUX[0] selects the form that wraps. -/
def execAinc (f : FmtW) (s : State) : Out :=
  atom s f [6, 7] (if bit f.aux.toNat 0 then .incWrap else .incStop) false

end Sys2Proof.Machine
end

