-- ==== Sys2Proof/Machine/Conv.lean ====
section
/-! DEFINITION. The CONV major: the checks of a conversation instruction at issue and the operation it sends to the
Bellwether (13_conversations.md R320 to R330). -/

namespace Sys2Proof.Machine

open Sys2Proof.Bits

/-- Role register fields (Table 13.8). -/
def cvBound (x : BitVec 64) : Bool := x.getLsbD 63
def cvRole (x : BitVec 64) : Nat := fld x.toNat 56 4
def cvBase (x : BitVec 64) : Nat := 0x80 * 2 ^ 56 + fld x.toNat 16 40 * 2 ^ 16
def cvEpoch (x : BitVec 64) : Nat := fld x.toNat 0 16

/-- A bound role register. -/
def cvMake (role base epoch : Nat) : BitVec 64 :=
  BitVec.ofNat 64 (2 ^ 63 + role % 16 * 2 ^ 56 + fld base 16 40 * 2 ^ 16 + epoch % 65536)

/-- A cause of the sub-group at issue. -/
def convTrap (s : State) (i : Iss) (cause : BitVec 8) (addr info : BitVec 64) : State × Eff :=
  (s, { i.eff with traps := trapSet i.sub cause addr info 7 })

/-- Steps 4 and 5 of R324 for an object address: the object's base and the location of its header line, or what the
sub-group meets. -/
def withObject (i : Iss) (s : State) (a : Nat) (k : Nat → Loc → State → State × Eff) : State × Eff :=
  let trap (c : BitVec 8) : State × Eff := convTrap s i c (BitVec.ofNat 64 a) 0
  if !inWindow a then trap cObjectBounds
  else
    match s.rangeOf i.c a with
    | .error c => trap c
    | .ok none => trap cObjectBounds
    | .ok (some r) =>
      if r.kind ≠ 2 then trap cNameUnresolved
      else if !bit r.rights 3 then trap cNameRights
      else if r.size < 0x4640 then trap cConvProtocol
      else
        let c := s.checkOnce i .use 3 1 128 r.base
        match c.ok with
        | [] => ((s.request i false 0 128 c).holdOnce i .atomic 128 c.waits, i.eff.checks c .remote)
        | x :: _ => k r.base x.loc ((s.request i false 0 128 c).holdOnce i .atomic 128 [])

/-- The NoC port of a location's home: its slice, or the I/O die. -/
def homePort (l : Loc) : Nat := if l.space = spLocal then slicePort l.pa else ioPort

/-- Send an operation to the Bellwether and park until it answers (R326); a payload crosses the NoC (R410). -/
def sendOp (s : State) (i : Iss) (base : Nat) (l : Loc) (op : ConvOp) : State × Eff :=
  let s0 := s.nocCount (clusterPort i.core) (homePort l) (s.issWorld i) (8 * op.pay.length)
  let s1 := if 2 ≤ l.space then s0.sendReq (l.space - 2) (s.issWorld i) else s0
  ({ s1 with convs := s1.convs ++
      [{ op with core := i.core, org := i.origin s, lanes := i.sub, space := l.space, pa := l.pa, base := BitVec.ofNat 64 base,
                 who := identWord s i.g.gid }] },
   { i.eff with parks := [(i.sub, .conv)] })

/-- An operation with nothing filled in. -/
def opOf (kind : ConvKind) (role dreg areg : Nat) : ConvOp :=
  { kind := kind, core := 0, org := { team := none, ctx := 0, world := 0, gid := 0, pc := 0, port := 0, slot := 0, peer := 0xFF },
    lanes := 0, space := 0, pa := 0, base := 0, role := role, mkind := 0, count := 0, pay := [], who := 0, epoch := 0, target := 0,
    dreg := dreg, areg := areg, held := false, withdrawn := false, orphan := false, parked := false,
    src := none, again := false }

/-- Issue a CONV instruction that names a role register D. -/
def convIssue (s : State) (f : FmtW) (rel ok : Bool) (body : Iss → State → State × Eff) : Out :=
  issueMem s (headW f false false []) rel (fun _ => d8Ok f.m.d.toNat && ok) body

/-- CJOIN and CACCEPT (R325). -/
def convJoin (s : State) (f : FmtW) (kind : ConvKind) : Out :=
  let a := src10 f.m.a
  let b := src10 f.m.b
  let d := f.m.d.toNat
  convIssue s f false (a.isG && b.uniform) fun i s =>
    let role := (i.uni b).toNat
    if 15 < role then convTrap s i cIllegalOperand 0 0
    else if cvBound (i.g.cvget d) then convTrap s i cConvProtocol (Config.freeReg s.tick 0) (Config.freeReg s.tick 1)
    else withObject i s (i.uni a).toNat fun base l s => sendOp s i base l (opOf kind role d 0)

/-- The minors that act through a bound role register (R324 steps 3 to 5); `early` is step 1. -/
def convRole (s : State) (f : FmtW) (rel ok : Bool) (early : Iss → Bool) (op : Iss → BitVec 64 → ConvOp) : Out :=
  convIssue s f rel ok fun i s =>
    let cv := i.g.cvget f.m.d.toNat
    if !early i then convTrap s i cIllegalOperand 0 0
    else if !cvBound cv then convTrap s i cConvNotHolder (Config.freeReg s.tick 0) (Config.freeReg s.tick 1)
    else withObject i s (cvBase cv) fun base l s => sendOp s i base l { op i cv with epoch := cvEpoch cv }

/-- CJOIN (R325). -/
def execCjoin (f : FmtW) (s : State) : Out := convJoin s f .join
/-- CACCEPT (R325). -/
def execCaccept (f : FmtW) (s : State) : Out := convJoin s f .accept

/-- CSEND (R326): the payload is read at issue. -/
def execCsend (f : FmtW) (s : State) : Out :=
  let a := src10 f.m.a
  let b := src10 f.m.b
  let c := src10 f.m.c
  convRole s f true (a.isG && b.uniform && c.uniform)
    (fun i => decide ((i.uni b).toNat ≤ 63) && decide ((i.uni c).toNat ≤ 6) && decide (a.gnum + (i.uni c).toNat ≤ 64))
    fun i cv => { opOf .send (cvRole cv) f.m.d.toNat 0 with
      mkind := (i.uni b).toNat, count := (i.uni c).toNat,
      pay := (List.range (i.uni c).toNat).map fun k => i.g.gget (a.gnum + k) }

/-- CCHOOSE (R326). -/
def execCchoose (f : FmtW) (s : State) : Out :=
  let b := src10 f.m.b
  convRole s f true b.uniform (fun i => decide ((i.uni b).toNat ≤ 63))
    fun i cv => { opOf .choose (cvRole cv) f.m.d.toNat 0 with mkind := (i.uni b).toNat }

/-- CRECV (R327). -/
def execCrecv (f : FmtW) (s : State) : Out :=
  let a := src10 f.m.a
  convRole s f false a.isG (fun _ => decide (a.gnum ≤ 57)) fun _ cv => opOf .recv (cvRole cv) f.m.d.toNat a.gnum

/-- CPOLL (R327). -/
def execCpoll (f : FmtW) (s : State) : Out :=
  let a := src10 f.m.a
  convRole s f false a.isG (fun _ => decide (a.gnum ≤ 57)) fun _ cv => opOf .poll (cvRole cv) f.m.d.toNat a.gnum

/-- CDELEG (R328). -/
def execCdeleg (f : FmtW) (s : State) : Out :=
  let b := src10 f.m.b
  convRole s f true b.uniform (fun _ => true)
    fun i cv => { opOf .deleg (cvRole cv) f.m.d.toNat 0 with target := i.uni b }

/-- CLEAVE (R329). -/
def execCleave (f : FmtW) (s : State) : Out :=
  convRole s f false true (fun _ => true) fun _ cv => opOf .leave (cvRole cv) f.m.d.toNat 0

/-- CSTATE of an object (R330): the status word as the Bellwether's slice holds it. -/
def execCstate (f : FmtW) (s : State) : Out :=
  let a := src10 f.m.a
  issueMem s (headW f false (decide (2 ≤ f.aux.toNat)) []) false (fun _ => dgOk f.m.d.toNat && a.isG) fun i s =>
    withObject i s (i.uni a).toNat fun _ l s =>
      (lateG s i f.m.d.toNat (BitVec.ofNat 64 (s.readNat l.space (l.pa + 8) 8)), i.eff)

/-- CSTATE.self (R330). -/
def execCstateSelf (f : FmtW) (s : State) : Out :=
  issue s (headW f false (decide (2 ≤ f.aux.toNat)) []) (fun _ => dgOk f.m.d.toNat) fun i s =>
    (lateG s i f.m.d.toNat (identWord s i.g.gid), i.eff)

end Sys2Proof.Machine
end

