-- ==== Sys2Proof/Machine/Bellwether.lean ====
section
/-! DEFINITION. Bellwethers: the evaluation of conversation operations against the shared state of their object, and their
answers (13_conversations.md R312 to R319, R325 to R333). -/

namespace Sys2Proof.Machine

open Sys2Proof.Bits

/-! ## The conversation object (R312 to R314) -/

/-- Where a conversation lies: its space and the physical address of object offset 0; and, for an operation on it, the world that its
accesses at memory count for and their hint. -/
structure ConvAt where
  space : Nat
  pa    : Nat
  world : Nat
  hint  : Nat
deriving DecidableEq, Repr

/-- The conversation of an operation; one of a peer allocates nothing in the LLC (R87). -/
def ConvOp.conv (o : ConvOp) : ConvAt := { space := o.space, pa := o.pa, world := o.org.world, hint := if o.src.isSome then 3 else 0 }

/-- A number of `n` bytes at an object offset. -/
def State.convGet (s : State) (c : ConvAt) (off n : Nat) : Nat := s.readNat c.space (c.pa + off) n

/-- The Bellwether reads parts of the object through its LLC (R91): offsets and lengths. -/
def State.convRead (s : State) (c : ConvAt) (rs : List (Nat × Nat)) : State :=
  if c.space = spLocal then
    (rs.filter fun r => decide (0 < r.2)).foldl (fun a r =>
      (a.readLocal c.world (slicePort c.pa) c.hint [(c.pa + r.1, r.2)]).correct (c.pa + r.1) r.2) s
  else s

/-- The Bellwether writes bytes at an object offset (R91). -/
def State.convWrite (s : State) (c : ConvAt) (off : Nat) (bs : List Byte) : State :=
  (if c.space = spLocal then s.wroteLocal c.world (slicePort c.pa) c.hint [(c.pa + off, bs.length)] else s).writeBytes c.space (c.pa + off) bs
def State.convPut (s : State) (c : ConvAt) (off n x : Nat) : State := s.convWrite c off (toBytes n x)

/-- The status word (Table 13.3) and its fields. -/
def State.convStatus (s : State) (c : ConvAt) : Nat := s.convGet c 8 8
def stCur (h : Nat) : Nat := h % 256
def stClosed (h : Nat) : Bool := bit h 8
def stHeld (h : Nat) : Bool := bit h 9
def stLive (h : Nat) : Bool := bit h 10
def stAseq (h : Nat) : Nat := fld h 32 32

/-- A status word; its reserved bits are zero (R6). -/
def statusWord (aseq : Nat) (live held closed : Bool) (cur : Nat) : Nat :=
  aseq % 2 ^ 32 * 2 ^ 32 + (if live then 2 ^ 10 else 0) + (if held then 2 ^ 9 else 0) + (if closed then 2 ^ 8 else 0) + cur % 256

/-- Header fields (Table 13.2). -/
def State.convStates (s : State) (c : ConvAt) : Nat := s.convGet c 0 2
def State.convRoles (s : State) (c : ConvAt) : Nat := s.convGet c 2 1
def State.convKinds (s : State) (c : ConvAt) : Nat := s.convGet c 3 1

/-- Offsets of a role table entry and of a mailbox entry (Table 13.1). -/
def roleOff (r : Nat) : Nat := 0x40 + 32 * r
def mailOff (r i : Nat) : Nat := 0x2640 + 512 * r + 64 * (i % 8)

/-- RSTATE, EPOCH and MCOUNT of a role (Table 13.6). -/
def State.roleState (s : State) (c : ConvAt) (r : Nat) : Nat := s.convGet c (roleOff r + 18) 1
def State.roleEpoch (s : State) (c : ConvAt) (r : Nat) : Nat := s.convGet c (roleOff r + 16) 2
def State.mailCount (s : State) (c : ConvAt) (r : Nat) : Nat := s.convGet c (roleOff r + 20) 1

/-- The transitions of a state in index order, as 64-bit words (R313). -/
def State.convTrans (s : State) (c : ConvAt) (st : Nat) : List Nat :=
  let e := s.convGet c (0x240 + 4 * st) 4
  (List.range (fld e 16 11)).map fun k => s.convGet c (0x640 + 8 * (fld e 0 10 + k)) 8

/-- Fields of a transition (Table 13.5). -/
def trNext (t : Nat) : Nat := fld t 56 8
def trSend (t : Nat) : Nat := fld t 52 4
def trRecv (t : Nat) : Nat := fld t 48 4
def trKind (t : Nat) : Nat := fld t 42 6
def trMax (t : Nat) : Nat := fld t 39 3
def trChoice (t : Nat) : Bool := bit t 38
def trFinal (t : Nat) : Bool := bit t 37
def trDeleg (t : Nat) : Bool := bit t 36
def trNotify (t : Nat) : Nat := fld t 16 16

/-- `Dest` of R318, in ascending order. -/
def trDest (t : Nat) : List Nat := if trChoice t then (List.range 16).filter fun r => (trNotify t).testBit r else [trRecv t]

/-- The holder check (R318). -/
def State.holds (s : State) (c : ConvAt) (r : Nat) (who : BitVec 64) (epoch : Nat) : Bool :=
  s.roleState c r == 1 && s.convGet c (roleOff r) 8 == who.toNat && s.roleEpoch c r == epoch

/-! ## Answers -/

/-- The CRECVs parked at a role's mailbox, or at any mailbox of the conversation, are to be evaluated again (R327). -/
def State.wakeMail (s : State) (c : ConvAt) (role : Option Nat) : State :=
  let at_ (r : Nat) : Bool := role.isNone || role == some r
  let again (o : ConvOp) : ConvOp :=
    if o.parked && o.space == c.space && o.pa == c.pa && at_ o.role then { o with parked := false, again := true } else o
  let lane (x : Lane) : Lane :=
    match x.st with
    | .parked (.mailbox loc r _) => if loc == locKey c.space c.pa && at_ r then { x with st := .parked .conv } else x
    | _ => x
  ({ s with convs := s.convs.map again }).mapGroups fun _ g => g.mapLanes fun _ x => lane x

/-- An operation leaves the Bellwether. -/
def State.convDrop (s : State) (idx : Nat) : State := { s with convs := s.convs.eraseIdx idx }

/-- The key of the slot of an operation's group. -/
def ConvOp.key (o : ConvOp) : Nat := slotKey o.core o.org.port o.org.slot

/-- The operation's group, while it stands at the instruction. -/
def State.convGroup (s : State) (o : ConvOp) : Option Group :=
  if o.orphan then none
  else
    match s.group? o.key with
    | some g => if g.gid = o.org.gid ∧ some g.team = o.org.team then some g else none
    | none => none

/-- An operation is done: the instruction completes in the lanes that wait for it (R326, R351, R369), or the response goes to the peer
that asked, with `data` (R332); what it answers crosses the NoC from the home's slice (R410). -/
def State.convDone (s0 : State) (o : ConvOp) (region : Bool) (data : List Byte) (f : Group → Group) : State :=
  let s := s0.nocCount (homePort { space := o.space, pa := o.pa, nc := false })
    (if o.src.isSome then ioPort else clusterPort o.core) o.org.world data.length
  match o.src, s.convGroup o with
  | some (p, q), _ => s.respond p o.org.world q data 0
  | none, none => s
  | none, some g =>
    s.setGroup o.key ((f g).onLanes o.lanes fun _ x =>
      if x.st = .parked .conv then
        { x with st := .ready, pc := x.pc + 12, tregion := if region then x.pc + 12 else x.tregion }
      else x)

/-- An operation is refused: its lanes trap, TADDR the object's window base and TINFO CUR, role and kind (R331); the response to a peer
carries the cause and CUR. -/
def State.convRefuse (s : State) (c : ConvAt) (o : ConvOp) (cause : BitVec 8) : State :=
  match o.src, s.convGroup o with
  | some (p, q), _ => s.respond p o.org.world q [BitVec.ofNat 8 (stCur (s.convStatus c))] cause
  | none, none => s
  | none, some g =>
    match s.team? g.team with
    | none => s
    | some t =>
      let m := laneSet fun l => inSet o.lanes l && (g.lane l).st == .parked .conv
      let info := BitVec.ofNat 64 (stCur (s.convStatus c) + o.role % 16 * 256 + o.mkind % 64 * 4096)
      let (g1, ps) := takeFaults g t (s.teamWorld t) o.key o.org.pc s.cycle.toNat (trapSet m cause o.base info 7) []
      (s.setGroup o.key g1).addPosts ps

/-! ## Evaluation -/

/-- A role register of the group is no longer bound. -/
def unbind (d : Nat) (g : Group) : Group := g.cvset d (g.cvget d &&& ~~~ (BitVec.twoPow 64 63))

/-- An image is valid (R316). -/
def State.imageValid (s : State) (c : ConvAt) : Bool :=
  let n := s.convStates c
  let nt := s.convGet c 4 2
  decide (1 ≤ n) && decide (n ≤ 256) && decide (1 ≤ s.convRoles c) && decide (s.convRoles c ≤ 16) &&
    decide (1 ≤ s.convKinds c) && decide (s.convKinds c ≤ 64) && decide (1 ≤ nt) && decide (nt ≤ 1024) &&
    decide (s.convGet c 6 1 < n) && s.convGet c 7 1 == 0 &&
    (List.range n).all fun k =>
      let e := s.convGet c (0x240 + 4 * k) 4
      decide (fld e 0 10 + fld e 16 11 ≤ nt)

/-- A valid image starts its conversation (R316). -/
def State.convStart (s : State) (c : ConvAt) : State :=
  let s1 := (List.range 16).foldl (fun a r => a.convPut c (roleOff r + 16) 16 0) s
  s1.convPut c 8 8 (statusWord 0 true false false (s1.convGet c 6 1))

/-- CJOIN and CACCEPT (R325): the cause, or the state with the role HELD and its EPOCH. -/
def State.evalJoin (s : State) (c : ConvAt) (o : ConvOp) : State × Except (BitVec 8) Nat :=
  if !stLive (s.convStatus c) && !s.imageValid c then (s, .error cConvProtocol)
  else
    let s1 := if stLive (s.convStatus c) then s else s.convStart c
    let r := o.role
    let st := s1.roleState c r
    let take (s : State) : State := ((s.convPut c (roleOff r) 8 o.who.toNat).convPut c (roleOff r + 8) 8 0).convPut c (roleOff r + 18) 1 1
    if stClosed (s1.convStatus c) then (s1, .error cConvClosed)
    else if s1.convRoles c ≤ r then (s1, .error cConvProtocol)
    else if o.kind = .join then
      if st ≠ 0 then (s1, .error cConvNotHolder)
      else
        let e := (s1.roleEpoch c r + 1) % 65536
        (take (s1.convPut c (roleOff r + 16) 2 e), .ok e)
    else if st ≠ 2 then (s1, .error cConvProtocol)
    else if s1.convGet c (roleOff r + 8) 8 ≠ o.who.toNat then (s1, .error cConvNotHolder)
    else (take s1, .ok (s1.roleEpoch c r))

/-- CSEND and CCHOOSE as far as their transition (R318). -/
def State.evalSend (s : State) (c : ConvAt) (o : ConvOp) : Except (BitVec 8) Nat :=
  let h := s.convStatus c
  let choose := o.kind == .choose
  if stClosed h then .error cConvClosed
  else if !s.holds c o.role o.who o.epoch then .error cConvNotHolder
  else
    let ts := s.convTrans c (stCur h)
    if !ts.any fun t => trSend t == o.role then .error cConvOutOfTurn
    else
      match ts.find? fun t => trSend t == o.role && trKind t == o.mkind && trChoice t == choose with
      | none => .error cConvProtocol
      | some t =>
        if trMax t < o.count ∨ trMax t = 7 ∨ s.convStates c ≤ trNext t ∨ fld t 32 4 ≠ 0 ∨ fld t 0 16 ≠ 0 ∨
            (!trChoice t ∧ trNotify t ≠ 0) ∨ s.convKinds c ≤ o.mkind ∨ (trDest t).any (fun r => decide (s.convRoles c ≤ r)) then
          .error cConvProtocol
        else .ok t

/-- A message descriptor (Table 13.7). -/
def descOf (aseq : Nat) (note : Bool) (len sender kind : Nat) : Nat :=
  2 ^ 63 + aseq % 2 ^ 32 * 2 ^ 16 + (if note then 2 ^ 15 else 0) + len % 8 * 2 ^ 12 + sender % 16 * 2 ^ 8 + kind % 64

/-- Some destination's mailbox is full (R318). -/
def State.mailFull (s : State) (c : ConvAt) (t : Nat) : Bool := (trDest t).any fun r => decide (8 ≤ s.mailCount c r)

/-- A message is appended to a role's mailbox, and a CRECV parked there wakes (R314, R319, R327). -/
def State.mailPut (s : State) (c : ConvAt) (r desc : Nat) (pay : List (BitVec 64)) : State :=
  let n := s.mailCount c r
  let at_ := mailOff r (s.convGet c (roleOff r + 19) 1 + n)
  let bs := (pay.flatMap fun x => toBytes 8 x.toNat) ++ List.replicate (56 - 8 * pay.length) 0
  (((s.convPut c at_ 8 desc).convWrite c (at_ + 8) bs).convPut c (roleOff r + 20) 1 (n + 1)).wakeMail c (some r)

/-- Acceptance of a CSEND or CCHOOSE by a transition (R318). -/
def State.acceptSend (s : State) (c : ConvAt) (o : ConvOp) (t : Nat) : State :=
  let h := s.convStatus c
  let aseq := (stAseq h + 1) % 2 ^ 32
  let note := trChoice t
  let pay := if note then [] else o.pay
  let desc := descOf aseq note (if note then 0 else o.count) o.role o.mkind
  let s1 := (trDest t).foldl (fun a r => a.mailPut c r desc pay) s
  let closed := stClosed h || trFinal t
  let s2 := s1.convPut c 8 8 (statusWord aseq (stLive h) false closed (trNext t))
  if trFinal t then s2.wakeMail c none else s2

/-- HELD of a conversation is set or cleared. -/
def State.setHeld (s : State) (c : ConvAt) (b : Bool) : State :=
  let h := s.convStatus c
  s.convPut c 8 8 (statusWord (stAseq h) (stLive h) b (stClosed h) (stCur h))

/-- CDELEG (R328). -/
def State.evalDeleg (s : State) (c : ConvAt) (o : ConvOp) : Except (BitVec 8) State :=
  let h := s.convStatus c
  if stClosed h then .error cConvClosed
  else if !s.holds c o.role o.who o.epoch then .error cConvNotHolder
  else if !(s.convTrans c (stCur h)).any fun t => trSend t == o.role && trDeleg t then .error cConvProtocol
  else
    .ok ((((s.convPut c (roleOff o.role + 18) 1 2).convPut c (roleOff o.role + 8) 8 o.target.toNat).convPut c
      (roleOff o.role + 16) 2 ((s.roleEpoch c o.role + 1) % 65536)).wakeMail c (some o.role))

/-- CLEAVE (R329). -/
def State.evalLeave (s : State) (c : ConvAt) (o : ConvOp) : Except (BitVec 8) State :=
  if !s.holds c o.role o.who o.epoch then .error cConvNotHolder
  else
    .ok ((s.convPut c (roleOff o.role + 18) 1 0).convPut c (roleOff o.role + 16) 2 ((s.roleEpoch c o.role + 1) % 65536))

/-- The oldest message of a role is taken: its descriptor and payload words (R327). -/
def State.mailTake (s : State) (c : ConvAt) (r : Nat) : State × Nat × List (BitVec 64) :=
  let head := s.convGet c (roleOff r + 19) 1
  let at_ := mailOff r head
  let desc := s.convGet c at_ 8
  let pay := (List.range 6).map fun k => BitVec.ofNat 64 (s.convGet c (at_ + 8 + 8 * k) 8)
  let s1 := (s.convPut c (roleOff r + 19) 1 ((head + 1) % 8)).convPut c (roleOff r + 20) 1 (s.mailCount c r - 1)
  (s1, desc, pay)

/-- The lanes of a CRECV that finds nothing park at the role's mailbox, and the operation stays at the Bellwether (R327). -/
def State.parkMail (s0 : State) (c : ConvAt) (o : ConvOp) : State :=
  let s : State := { s0 with convs := s0.convs ++ [{ o with parked := true }] }
  match s.convGroup o with
  | none => s
  | some g => s.setGroup o.key (g.onLanes o.lanes fun _ x =>
      if x.st = .parked .conv then { x with st := .parked (.mailbox (locKey c.space c.pa) o.role o.base.toNat) } else x)

/-- CRECV and CPOLL (R327). -/
def State.evalRecv (s : State) (c : ConvAt) (o : ConvOp) : State :=
  if !s.holds c o.role o.who o.epoch then s.convRefuse c o cConvNotHolder
  else if 0 < s.mailCount c o.role then
    let (s1, desc, pay) := s.mailTake c o.role
    let fill (g : Group) : Group :=
      (List.range 6).foldl (fun a k => a.gset (o.areg + 1 + k) (pay.getD k 0)) (g.gset o.areg (BitVec.ofNat 64 desc))
    let s2 := s1.convDone o true (toBytes 8 desc ++ pay.flatMap fun x => toBytes 8 x.toNat) fill
    if o.src.isSome then s2 else s2.acquire o.core 3 true
  else if stClosed (s.convStatus c) then s.convRefuse c o cConvClosed
  else if o.kind = .poll then s.convDone o false (toBytes 8 0) fun g => g.gset o.areg 0
  else s.parkMail c o

/-- The home of an operation can be reached: it is this device or the host, or a path to the peer exists with nothing in
doubt (R332). -/
def State.convReach (s : State) (o : ConvOp) : Bool :=
  decide (o.space < 2) || (s.pathTo (o.space - 2) && !s.inDoubt (o.space - 2))

/-- CRECV, CPOLL and CSTATE, which are served while another operation holds the conversation (R318). -/
def ConvOp.served (o : ConvOp) : Bool := o.kind == .recv || o.kind == .poll || o.kind == .state

/-- A CLEAVE that this device sends of its own (R322). -/
def ConvOp.own (o : ConvOp) : Bool := o.kind == .leave && decide (o.lanes = 0) && o.src.isNone

/-- Two operations of one conversation. -/
def ConvOp.same (o p : ConvOp) : Bool := o.space == p.space && o.pa == p.pa

/-- An operation waits at its Bellwether behind a held one (R318). -/
def State.behindHeld (s : State) (o : ConvOp) : Bool := !o.served && s.convs.any fun p => p.held && p.same o

/-- An operation of the same group to the same home stands before it, which keeps the order of issue (R286, R332). One that has reached
its Bellwether and waits there bars only what waits with it (R318). The device's own CLEAVEs for a group keep their order whatever their homes
(R322). -/
def State.convBehind (s : State) (idx : Nat) (o : ConvOp) : Bool :=
  (s.convs.take idx).any fun p =>
    p.org.gid == o.org.gid && p.org.ctx == o.org.ctx && p.src.isSome == o.src.isSome &&
      ((p.own && o.own) || (p.space == o.space && !p.held && !p.parked && (!s.behindHeld p || (p.same o && !o.served))))

/-- An answer to an operation with its cause, or its completion. -/
def State.convAnswer (s : State) (c : ConvAt) (o : ConvOp) (r : Except (BitVec 8) State) (f : Group → Group) : State :=
  match r with
  | .error e => s.convRefuse c o e
  | .ok s1 => s1.convDone o true [] f

/-- The evaluation of an operation, which has left the list of those outstanding; a CSEND or CCHOOSE whose mailbox is full is
not done here. -/
def State.convEval (s : State) (c : ConvAt) (o : ConvOp) : State :=
  match o.kind with
  | .recv => s.evalRecv c o
  | .poll => s.evalRecv c o
  | .deleg => s.convAnswer c o (s.evalDeleg c o) (unbind o.dreg)
  | .leave => s.convAnswer c o (s.evalLeave c o) (unbind o.dreg)
  | .send => s.convAnswer c o ((s.evalSend c o).map fun t => s.acceptSend c o t) id
  | .choose => s.convAnswer c o ((s.evalSend c o).map fun t => s.acceptSend c o t) id
  | .state => s.convDone o false (toBytes 8 (s.convStatus c)) id
  | _ =>
    match s.evalJoin c o with
    | (s1, .error e) => s1.convRefuse c o e
    | (s1, .ok ep) =>
      let s2 := s1.convDone o true (toBytes 2 ep) fun g => g.cvset o.dreg (cvMake o.role o.base.toNat ep)
      if o.src.isSome then s2 else s2.acquire o.core 3 true

/-- A CLEAVE of the device's own whose home refuses it, or has been reached by no path for the limit, fails, and is dropped (R322, R324,
R332). -/
def State.leaveLost (s : State) (o : ConvOp) : Bool :=
  o.own && decide (2 ≤ o.space) && (s.pathLost (o.space - 2) ||
    (s.convReach o && (s.homeCheck (o.space - 2) o.org.world true .use o.pa 128).isSome))

/-- A CRECV that is evaluated again, in a page that is not its world's any more (R84, R85). -/
def State.convLost (s : State) (o : ConvOp) : Bool := o.again && o.space == spLocal && !potPass s.mem o.org.world true o.pa

/-- What the Bellwether reads of the object for an operation, as offsets and lengths: the header, the status word and the role's entry; the
state index that a validation looks at; the transitions of the state, and the entries and mailboxes of the destinations; the mailbox entry
that is taken (R316 to R318, R325, R327). -/
def State.convReads (s : State) (c : ConvAt) (o : ConvOp) : List (Nat × Nat) :=
  let cur := stCur (s.convStatus c)
  let e := s.convGet c (0x240 + 4 * cur) 4
  let state : List (Nat × Nat) := [(0x240 + 4 * cur, 4), (0x640 + 8 * fld e 0 10, 8 * fld e 16 11)]
  let role : List (Nat × Nat) := if o.role < 16 then [(roleOff o.role, 32)] else []
  match o.kind with
  | .state => [(8, 8)]
  | .leave => (0, 16) :: role
  | .deleg => (0, 16) :: role ++ state
  | .recv => (0, 16) :: role ++ (if 0 < s.mailCount c o.role then [(mailOff o.role (s.convGet c (roleOff o.role + 19) 1), 64)] else [])
  | .poll => (0, 16) :: role ++ (if 0 < s.mailCount c o.role then [(mailOff o.role (s.convGet c (roleOff o.role + 19) 1), 64)] else [])
  | .join => (0, 16) :: role ++ (if stLive (s.convStatus c) then [] else [(0x240, 4 * s.convStates c)])
  | .accept => (0, 16) :: role ++ (if stLive (s.convStatus c) then [] else [(0x240, 4 * s.convStates c)])
  | _ =>
    (0, 16) :: role ++ state ++
      match s.evalSend c o with
      | .ok t => (trDest t).map fun r => (roleOff r, 32)
      | .error _ => []

/-- An operation of a discarded group that a forced reset has withdrawn: it is dropped, never evaluated (R389). -/
def ConvOp.discarded (o : ConvOp) : Bool := o.withdrawn && o.orphan

/-- BELLWETHER_OPERATION (R318): the operation of this number is evaluated and answered; while another holds the conversation
only CRECV and CPOLL are. A CSEND or CCHOOSE that meets a full mailbox is held. After the last CLEAVE of an exiting
group the group leaves its slot (R344). -/
def execBellwetherOperation (idx : Nat) (s : State) : Out :=
  match s.convs[idx]? with
  | none => .next s
  | some o =>
    let c := o.conv
    if s.leaveLost o then .next ((s.convDrop idx).leaveSlot o.key)
    else if o.discarded || o.held || o.parked || !s.convReach o || s.convBehind idx o || s.behindHeld o then .next s
    else
      let s0 := s.convRead c (s.convReads c o)
      if s.convLost o then .next ((s.convDrop idx).convRefuse c o cOwnership)
      else
      let full :=
        match o.kind, s.evalSend c o with
        | .send, .ok t => if s.mailFull c t then some t else none
        | .choose, .ok t => if s.mailFull c t then some t else none
        | _, _ => none
      match full with
      | some t =>
        let s1 := s0.setHeld c true
        .next { s1 with convs := s1.convs.set idx { o with held := true, target := BitVec.ofNat 64 t } }
      | none => .next (((s0.convDrop idx).convEval c o).leaveSlot o.key)

/-- HELD_OPERATION_ACCEPT (R318): every destination has space, and the held operation is accepted as it was evaluated. -/
def execHeldOperationAccept (idx : Nat) (s : State) : Out :=
  match s.convs[idx]? with
  | none => .next s
  | some o =>
    let c := o.conv
    if o.discarded || !o.held || !s.convReach o || s.mailFull c o.target.toNat then .next s
    else
      let s0 := s.convRead c ((8, 8) :: (trDest o.target.toNat).map fun r => (roleOff r, 32))
      let s1 := ((s0.convDrop idx).setHeld c false).acceptSend c o o.target.toNat
      .next (s1.convDone o true [] id)

/-- An operation that has not been answered is dropped, and HELD is cleared if it held the conversation (R333). -/
def State.convWithdraw (s : State) (idx : Nat) (o : ConvOp) : State :=
  let s1 := s.convDrop idx
  if o.held then s1.setHeld o.conv false else s1

/-- BELLWETHER_WITHDRAWAL (R333): the withdrawal finds the operation unanswered; the instruction issues again later. -/
def execBellwetherWithdrawal (idx : Nat) (s : State) : Out :=
  match s.convs[idx]? with
  | none => .next s
  | some o =>
    if !o.withdrawn || !s.convReach o then .next s
    else
      let s1 := s.convWithdraw idx o
      match s1.convGroup o with
      | none => .next s1
      | some g => .next (s1.setGroup o.key (g.onLanes o.lanes fun _ x =>
          if x.st = .parked .conv then { x with st := .ready } else x))

end Sys2Proof.Machine
end

