-- ==== Sys2Proof/Machine/Launch.lean ====
section
/-! DEFINITION. The spawn record (14_execution_and_scheduling.md R336, R337) and launch queues as records enter them (R338). -/

namespace Sys2Proof.Machine

open Sys2Proof.Bits

/-- Grid dimensions and JOIN of a spawn record (Table 14.2). -/
def recX (b : List Byte) : Nat := pk b 16 2
def recY (b : List Byte) : Nat := pk b 18 2
def recZ (b : List Byte) : Nat := pk b 20 2
def recPrio (b : List Byte) : Nat := pk b 22 1 % 4
def recScr (b : List Byte) : Nat := pk b 23 1
def recCnt (b : List Byte) (r : Nat) : Nat := pk b (24 + 2 * r) 1
def recBlk (b : List Byte) (r : Nat) : Nat := pk b (25 + 2 * r) 1
def recJoin (b : List Byte) : Nat := pk b 32 8

/-- Teams of the grid. -/
def recTeams (b : List Byte) : Nat := recX b * recY b * recZ b

/-- (role, blocks) of each group of a team in the order of the group index (R335, R336). -/
def recGroups (b : List Byte) : List (Nat × Nat) :=
  (List.range 4).flatMap fun r => List.replicate (recCnt b r) (r, recBlk b r)

/-- The groups that go to port `p`: group i goes to port i mod 4 (R342). -/
def onPort {α : Type} (p : Nat) (l : List α) : List α :=
  ((List.range l.length).zip l).filterMap fun x => if x.1 % 4 = p then some x.2 else none

/-- A malformed spawn record (R337): a limit of Table 14.2 fails, or a team cannot fit an empty core. -/
def recBad (b : List Byte) : Bool :=
  let in16 (x : Nat) : Bool := decide (1 ≤ x) && decide (x ≤ 65535)
  let gs := recGroups b
  !(decide (fld (pk b 0 8) 0 44 % 4 = 0) && in16 (recX b) && in16 (recY b) && in16 (recZ b) && decide (recTeams b ≤ 65536) &&
    decide (1 ≤ recScr b) && decide (recScr b ≤ 128) && decide (1 ≤ gs.length) && decide (gs.length ≤ 32) &&
    ((List.range 3).all fun r => decide (recCnt b r ≠ 0) || decide (recCnt b (r + 1) = 0)) &&
    (gs.all fun g => decide (1 ≤ g.2) && decide (g.2 ≤ 48)) && decide (recJoin b % 8 = 0) &&
    (List.range 4).all fun p => decide (((onPort p gs).map (·.2)).foldl (· + ·) 0 ≤ Config.poolBlocks))

/-- A launch queue of the device. -/
def State.lqueue (s : State) (n : Nat) : LaunchQueue := s.queues.getD n LaunchQueue.fresh

/-- Replace a launch queue. -/
def State.setQueue (s : State) (n : Nat) (q : LaunchQueue) : State := { s with queues := s.queues.set n q }

/-- Whether queue `n` is bound to a context (R338). -/
def State.queueBound (s : State) (n ctx : Nat) : Bool := decide (n < 64) && (s.lqueue n).ctx == some ctx

/-- A queue holds 64 records (R338). -/
def LaunchQueue.full (q : LaunchQueue) : Bool := decide (64 ≤ q.recs.length)

/-- A record enters a queue. While the queue held no head it did not wait (R341). -/
def State.enqueue (s : State) (n : Nat) (r : LaunchRec) : State :=
  let q := s.lqueue n
  s.setQueue n { q with recs := q.recs ++ [r], since := if q.recs = [] then s.cycle.toNat else q.since,
                        raised := if q.recs = [] then 0 else q.raised }

/-- The error-queue record of a record that is discarded (R337, R340). -/
def State.recordRefused (s : State) (ctx : Nat) (r : LaunchRec) (cause : BitVec 8) : State :=
  s.errRecord ctx (BitVec.ofNat 64 (recJoin r.bytes)) r.peer cause 0 (s.groupGone ctx r.who) false r.pc r.who

end Sys2Proof.Machine
end

