-- ==== Sys2Proof/Machine/Names.lean ====
section
/-! DEFINITION. The Swizzle Unit: directory and ROT searches, reservation of window ranges, swizzling and unswizzling
(03_names_and_swizzling.md R43 to R56, R66), and what a quiescent point does (R59). -/

namespace Sys2Proof.Machine

open Sys2Proof.Bits

/-- A directory entry (Table 3.3) with its address. -/
structure DirEnt where
  addr   : Nat
  obj    : Nat
  size   : Nat
  home   : Nat
  dev    : Nat
  policy : Nat
  kind   : Nat
  rights : Nat
  lease  : Nat
  valid  : Bool
deriving DecidableEq, Repr

/-- Read a directory entry at its address, as its bytes stand, whatever errors memory holds there (log 75). -/
def dirRead (m : Memory) (addr : Nat) : DirEnt :=
  let b := readPage m spLocal addr 32
  let byte (k : Nat) : Nat := (b.getD k 0).toNat
  { addr := addr, obj := ofBytes (b.take 8), size := fld (ofBytes ((b.drop 8).take 8)) 0 44,
    home := ofBytes ((b.drop 16).take 8), dev := byte 24, policy := byte 25, kind := byte 26 % 8, rights := byte 27,
    lease := byte 28, valid := bit (byte 29) 0 }

/-- The valid binding of a realm (R51); of several the first (log 68). -/
def Context.binding (c : Context) (realm : Nat) : Option Binding :=
  c.realms.find? fun b => b.valid && b.realm == realm && decide (4 ≤ b.log2n) && decide (b.log2n ≤ 24)

/-- The search of a directory (R52): the addresses of the entries read, and the entry, or a miss, or the cause a walk meets. DIRBASE is
used as it stands, and an address that is no memory raises PAGE_PROTECTION (log 75). -/
def dirProbe (m : Memory) (world : Nat) (b : Binding) (obj start : Nat) : List Nat → List Nat × Except (BitVec 8) (Option DirEnt)
  | [] => ([], .ok none)
  | k :: r =>
    let addr := b.dirBase + 64 * ((start + k) % 2 ^ b.log2n)
    match walkerPass m world addr false with
    | some c => ([], .error c)
    | none =>
      let e := dirRead m addr
      if !e.valid then ([addr], .ok none)
      else if e.obj = obj then ([addr], .ok (some e))
      else
        let rest := dirProbe m world b obj start r
        (addr :: rest.1, rest.2)

/-- `DirFind` (R52): a miss, another kind, a reserved policy and an object that is not materialised leave the name
unresolved. A POLICY byte above 3 counts as reserved (log 69). The reads count at memory (R91). -/
def State.dirFind (s : State) (world : Nat) (b : Binding) (obj kind : Nat) : State × Except (BitVec 8) DirEnt :=
  let p := dirProbe s.mem world b obj (fld obj 0 32 ^^^ fld obj 32 32) (List.range 16)
  (s.readEntries world s.nocPort (p.1.map fun a => (a, 32)),
   match p.2 with
   | .error c => .error c
   | .ok none => .error cNameUnresolved
   | .ok (some e) =>
     if e.kind ≠ kind ∨ 3 ≤ e.policy ∨ !(decide (e.dev < 16) || e.dev == 0xF0) then .error cNameUnresolved else .ok e)

/-- The indexes that a search of the ROT examines (R54). -/
def rotProbes (c : Context) (realm obj : Nat) : List Nat :=
  (List.range 16).map fun k => ((fld obj 0 32 ^^^ fld obj 32 32 ^^^ realm) + k) % 2 ^ c.rotLog2

/-- The entries of a search of the ROT, or the cause that a page of it meets. -/
def rotScan (m : Memory) (c : Context) : List Nat → Except (BitVec 8) (List RotEnt)
  | [] => .ok []
  | k :: r =>
    match walkerPass m c.world (c.rotBase + 32 * k) false with
    | some e => .error e
    | none =>
      match rotScan m c r with
      | .error e => .error e
      | .ok l => .ok (rotRead m c k :: l)

/-- The entries that a search of the ROT reads: all of its probes, up to one whose page the walker may not read (R54, R91). -/
def State.rotReads (s : State) (c : Context) (ks : List Nat) : State :=
  s.readEntries c.world s.nocPort (((ks.map fun k => c.rotBase + 32 * k).takeWhile fun a => (walkerPass s.mem c.world a false).isNone).map
    fun a => (a, 32))

/-- Write a ROT entry. -/
def State.rotWrite (s : State) (c : Context) (e : RotEnt) : State := s.devWrite c.world (c.rotBase + 32 * e.idx) e.bytes

/-- Write the HOLD field of an entry's state word (Table 3.6). -/
def State.holdWrite (s : State) (c : Context) (idx n : Nat) : State := s.devWrite c.world (c.rotBase + 32 * idx + 12) (toBytes 2 n)

/-- Write the ST field of an entry's state word; the reserved bit of its byte is written zero (R6). -/
def State.stWrite (s : State) (c : Context) (idx st : Nat) : State :=
  let a := c.rotBase + 32 * idx + 8
  s.devWrite c.world a (toBytes 1 (s.readNat spLocal a 1 % 128 / 4 * 4 + st % 4))

/-! ## Window translation entries (R55) -/

/-- The table levels of a walk to a level-4 entry: lowest VA bit indexed, bits, and the alignment and space of the table
below (R55, Table 4.2). -/
def wtLevels : List (Nat × Nat × Nat × Nat) := [(47, 9, 8192, 8192), (38, 9, 8192, 8192), (29, 9, 4096, 4096), (21, 8, 4096, 4096)]

/-- The address of the level-4 entry of a window page, with missing tables taken from the pool from `next` on: the state
with the tables linked so far, the pool's next free address, and the entry's address or the cause. A present entry is followed as it
stands (log 75). -/
def wtReach (c : Context) (va : Nat) : Nat → List (Nat × Nat × Nat × Nat) → Nat → State → State × Nat × Except (BitVec 8) Nat
  | tbl, [], next, s => (s, next, .ok (tbl + 16 * fld va 16 5))
  | tbl, (lo, w, align, space) :: r, next, s =>
    let ea := tbl + 16 * fld va lo w
    match walkerPass s.mem c.world ea true with
    | some e => (s, next, .error e)
    | none =>
      let e := ofBytes (readPage s.mem spLocal ea 16)
      let s := s.devRead c.world ea 16
      if pteP e then wtReach c va (pteAddr e) r next s
      else
        let place := (next + align - 1) / align * align
        if c.wtPool + c.wtPoolSz < place + space then (s, next, .error cWindowExhausted)
        else
          match walkerPass s.mem c.world place false with
          | some e => (s, next, .error e)
          | none =>
            let s1 := s.devWrite c.world place (List.replicate space 0)
            wtReach c va place r (place + space) (s1.devWrite c.world ea (toBytes 16 (place + 1)))

/-- The addresses of the level-4 entries of some pages, with missing tables linked (R55). -/
def wtEntries (c : Context) : List Nat → Nat → State → State × Nat × Except (BitVec 8) (List Nat)
  | [], next, s => (s, next, .ok [])
  | va :: r, next, s =>
    match wtReach c va c.wroot wtLevels next s with
    | (s1, next1, .error e) => (s1, next1, .error e)
    | (s1, next1, .ok ea) =>
      match walkerPass s1.mem c.world ea true with
      | some e => (s1, next1, .error e)
      | none =>
        match wtEntries c r next1 s1 with
        | (s2, next2, .error e) => (s2, next2, .error e)
        | (s2, next2, .ok l) => (s2, next2, .ok (ea :: l))

/-- Write the level-4 entries of the pages of a new range, once every one is reached: ROTV = 1 and ROTIDX, P = 0 (R55). -/
def wtFill (c : Context) (idx : Nat) (pages : List Nat) (next : Nat) (s : State) : State × Nat × Except (BitVec 8) Unit :=
  match wtEntries c pages next s with
  | (s1, next1, .error e) => (s1, next1, .error e)
  | (s1, next1, .ok l) => (l.foldl (fun t ea => t.devWrite c.world ea (toBytes 16 (2 ^ 84 + idx % 2 ^ 20 * 2 ^ 64))) s1, next1, .ok ())

/-- An object's size rounded up to whole pages. -/
def roundPage (n : Nat) : Nat := (n + 65535) / 65536 * 65536

/-- `RotInsert` (R47, R48, R54 to R56): the new LIVE entry at the context's cursor. A reservation that fails leaves the cursor
and the ROT; tables already linked stay. -/
def State.rotInsert (s : State) (ctx realm obj : Nat) (free : Option RotEnt) (d : DirEnt) : State × Except (BitVec 8) RotEnt :=
  match s.ctx? ctx, free with
  | none, _ => (s, .error cWindowExhausted)
  | _, none => (s, .error cWindowExhausted)
  | some c, some f =>
    let span := roundPage d.size + 65536
    if Config.windowEnd < c.cursor + span then (s, .error cWindowExhausted)
    else
      let pages := (List.range (span / 65536)).map fun k => c.cursor + 65536 * k
      match wtFill c f.idx pages c.wtNext s with
      | (s1, next, .error e) => (s1.setCtx { c with wtNext := next }, .error e)
      | (s1, next, .ok _) =>
        let own := s1.fabNum.getD 0
        let claims := d.policy == 0 && bit d.rights 1
        let policy := if claims && d.lease != 0xFF && d.lease != own then 1 else d.policy
        let s2 := if claims && d.lease == 0xFF then (s1.devRead c.world (d.addr + 28) 1).devWrite c.world (d.addr + 28) (toBytes 1 own) else s1
        let e : RotEnt := { idx := f.idx, obj := obj, hold := 0, realm := realm, rights := d.rights % 16, kind := d.kind,
                            policy := policy, st := 1, base := c.cursor, size := d.size }
        ((s2.setCtx { c with cursor := c.cursor + span, wtNext := next }).rotWrite c e, .ok e)

/-- `Swizzle` (R66): a name to a direct pointer. -/
def State.swizzle (s : State) (ctx : Nat) (n : Nat) : State × Except (BitVec 8) (BitVec 64) :=
  if !bit n 127 then
    (s, if fld n 64 63 ≠ 0 then .error cNameUnresolved else .ok (BitVec.ofNat 64 n))
  else
    let kind := fld n 124 3
    let realm := fld n 108 16
    let obj := fld n 44 64
    let off := fld n 0 44
    let finish (e : RotEnt) : Except (BitVec 8) (BitVec 64) :=
      if e.kind ≠ kind then .error cNameUnresolved
      else if e.size < off then .error cObjectBounds
      else .ok (BitVec.ofNat 64 (e.base + off))
    if 3 < kind then (s, .error cNameUnresolved)
    else
      match s.ctx? ctx with
      | none => (s, .error cNameRights)
      | some c =>
        match c.binding realm with
        | none => (s, .error cNameRights)
        | some b =>
          let s := s.rotReads c (rotProbes c realm obj)
          match rotScan s.mem c (rotProbes c realm obj) with
          | .error e => (s, .error e)
          | .ok es =>
            match es.find? fun e => e.st != 0 && e.realm == realm && e.obj == obj with
            | some e => (s, finish e)
            | none =>
              match s.dirFind c.world b obj kind with
              | (s, .error e) => (s, .error e)
              | (s, .ok d) =>
                match s.rotInsert ctx realm obj (es.find? fun e => e.st == 0) d with
                | (s1, .error e) => (s1, .error e)
                | (s1, .ok e) => (s1, finish e)

/-- `Unswizzle` (R66): a pointer to its name. -/
def State.unswizzle (s : State) (c : Context) (a : Nat) : Except (BitVec 8) Nat :=
  if !inWindow a then .ok a
  else
    match s.rangeOf c a with
    | .error e => .error e
    | .ok none => .error cObjectBounds
    | .ok (some e) =>
      if e.size < a - e.base then .error cObjectBounds
      else .ok (2 ^ 127 + e.kind * 2 ^ 124 + e.realm * 2 ^ 108 + e.obj * 2 ^ 44 + (a - e.base) % 2 ^ 44)

/-! ## Quiescent points and window resets (R59) -/

/-- The indexes of a context's ROT entries that are not FREE or hold a count, in ascending order: ST stands in byte 8 of an entry, HOLD
in bytes 12 and 13. -/
def usedRot (m : Memory) (c : Context) : List Nat :=
  ((m.filter fun p => decide (c.rotBase ≤ p.1) && decide (p.1 < c.rotBase + 32 * 2 ^ c.rotLog2) &&
    (((p.1 - c.rotBase) % 32 == 8 && p.2.toNat % 4 != 0) || (p.1 - c.rotBase) % 32 / 2 == 6) &&
    !clearedBit m p.1 && (walkerPass m c.world p.1 false).isNone).map fun p => (p.1 - c.rotBase) / 32).eraseDups

/-- The entry at which the name walk of a window page ends, whatever its P bit holds; none where a table lies in a page that the walker
may not read. -/
def wtEnd (m : Memory) (world va : Nat) : Nat → List (Nat × Nat × Bool × Bool × Nat) → Option Nat
  | _, [] => none
  | tbl, (lo, w, mayLeaf, always, _) :: r =>
    let ea := tbl + 16 * fld va lo w
    if (walkerPass m world ea true).isSome then none
    else
      let e := ofBytes (readPage m spLocal ea 16)
      if always || (mayLeaf && pteLeaf e) then some ea
      else if !pteP e then none
      else wtEnd m world va (pteAddr e) r

/-- A DEPARTED entry becomes FREE, with ROTV = 0 in each of its window translation entries. -/
def State.freeRange (s : State) (c : Context) (e : RotEnt) : State :=
  let pages := (List.range (roundPage e.size / 65536 + 1)).map fun k => e.base + 65536 * k
  let s1 := pages.foldl (fun t va =>
    match wtEnd t.mem c.world va c.wroot ptLevels with
    | none => t
    | some ea =>
      let x := t.readNat spLocal ea 16
      let t1 := t.devRead c.world ea 16
      if pteRotV x then t1.devWrite c.world ea (toBytes 16 (x - 2 ^ 84)) else t1) s
  (s1.stWrite c e.idx 0).holdWrite c e.idx 0

/-- The actions of a quiescent point (R59): DEPARTED entries become FREE, every HOLD becomes zero. -/
def State.atQuiescence (s : State) (c : Context) : State :=
  (usedRot s.mem c).foldl (fun t k =>
    let e := rotRead t.mem c k
    let t := t.devRead c.world (c.rotBase + 32 * k) 32
    if e.st ≤ 1 then t.holdWrite c k 0 else t.freeRange c e) s

end Sys2Proof.Machine
end

