-- ==== Sys2Proof/Machine/Engine.lean ====
section
/-! DEFINITION. Request engines: reading ring slots and shared queues, starting packets, and the pieces they move
(05_copies_and_chunk_barriers.md R113, R118, R120, R121, R127 to R131), and SPAWN packets (14_execution_and_scheduling.md
R339). -/

namespace Sys2Proof.Machine

open Sys2Proof.Bits

/-! ## Accesses of an engine -/

/-- How an engine's access to device memory comes out: its location, a replayable cause, another cause, or a wait for a
path to a peer. -/
inductive EngAcc
  | at_ (l : Loc)
  | fault (cause : BitVec 8)
  | fail (cause : BitVec 8)
  | wait (peer : Nat)
deriving DecidableEq, Repr

/-- The checks of an engine's access, made in a context and world (R84, R113, Table 5.8). -/
def State.engAcc (s : State) (world : Nat) (c : Context) (acc : Acc) (va n : Nat) : EngAcc :=
  match s.resolve c c.priv acc va n with
  | .error e => if replayable e then .fault e else .fail e
  | .ok l =>
    match s.reach world c.priv acc l n with
    | .ok => if decide (2 ≤ l.space) && s.behind world (l.space - 2) then .wait (l.space - 2) else .at_ l
    | .refused _ => .fail cRemoteLoadFailed
    | .noPath => .wait (l.space - 2)
    | .doubt => .wait (l.space - 2)

/-- An engine at a NoC port reads the bytes of a location. -/
def State.engFetch (s : State) (world port hint : Nat) (l : Loc) (n : Nat) : State × List Byte :=
  let bs := s.readBytes l.space l.pa n
  let s1 := s.account world port false (if l.nc then 3 else hint) [(l.space, l.pa, n)]
  (if l.space = spLocal then s1.correct l.pa n else s1, bs)

/-- A core's engine reads the bytes of a location. -/
def State.engRead (s : State) (world core hint : Nat) (l : Loc) (n : Nat) : State × List Byte :=
  s.engFetch world (clusterPort core) hint l n

/-- An engine at a NoC port writes the bytes of a location; bytes that ECC or an integrity tag takes are recorded (R92, R93). -/
def State.engStore (s : State) (o : Origin) (port hint va : Nat) (l : Loc) (bs : List Byte) : State :=
  let s1 := s.account o.world port true (if l.nc then 3 else hint) [(l.space, l.pa, bs.length)]
  if l.space = spLocal then
    let (s2, lost) := s1.storeLocal [(l.pa, bs)]
    lost.foldl (fun a b => a.orgRecord o (BitVec.ofInt 64 ((va : Int) + b.1 - l.pa)) 0xFF b.2.2 b.2.1 false) s2
  else s1.writeBytes l.space l.pa bs

/-- A core's engine writes the bytes of a location. The core's L1 gives their lines up: an acquire of the bytes by a thread of the core
is followed by loads that see them (R264, R276). -/
def State.engWrite (s : State) (o : Origin) (core hint va : Nat) (l : Loc) (bs : List Byte) : State :=
  (s.l1DropRange core l.space l.pa bs.length).engStore o (clusterPort core) hint va l bs

/-- Whether work that waits on a fault may go on: it waits on none, or its LRESUME has come (R400). -/
def State.mayRetry (s : State) (stall : Option Nat) : Bool :=
  match stall with
  | none => true
  | some k => s.signalled.contains k

/-- The LRESUME of a wait is used up by the retry. -/
def State.useSignal (s : State) (stall : Option Nat) : State :=
  match stall with
  | none => s
  | some k => { s with signalled := s.signalled.filter fun x => x != k }

/-! ## Acquiring packets -/

/-- The earliest SUBMITTED slot of a ring: its number, place and submitter. -/
def firstSubmitted (ring : List RingSlot) : Option (Nat × Nat × Origin) :=
  (List.range 8).foldl (fun a k =>
    match ring.getD k .free with
    | .submitted p o =>
      match a with
      | none => some (k, p, o)
      | some b => if p < b.2.1 then some (k, p, o) else a
    | _ => a) none

/-- The team of a core that the round robin serves next (R118): the first after the one served last. -/
def State.nextRingTeam (s : State) (core : Nat) : Option Team :=
  let ts := s.teams.filter fun t => t.core == core && (firstSubmitted t.ring).isSome
  let later := ts.filter fun t => decide ((s.core core).rrTeam < t.tid)
  let least (l : List Team) : Option Team := l.foldl (fun a t =>
    match a with
    | none => some t
    | some b => if t.tid < b.tid then some t else a) none
  match least later with
  | some t => some t
  | none => least ts

/-- RING_SLOT_READ (R118): a slot's packet enters the engine's queue of 32 and the slot is FREE. -/
def execRingSlotRead (core : Nat) (s : State) : Out :=
  if Config.cores ≤ core then .fault .noSuchUnit
  else if 32 ≤ (s.core core).queue.length then .next s
  else
    match s.nextRingTeam core with
    | none => .next s
    | some t =>
      match firstSubmitted t.ring with
      | none => .next s
      | some (k, place, o) =>
        let p : Packet :=
                  { bytes := teamPacket s t (t.ringStart + 64 * k), org := o, queue := none, place := place, stall := none, cancel := false }
        let c := s.core core
        let s1 := s.setTeam { t with ring := t.ring.set k .free }
        .next (s1.setCore core { c with queue := c.queue ++ [p], rrTeam := t.tid })

/-- PEER of a queue packet (R129): who published the block that holds its bytes 0–7. -/
def State.pubPeer (s : State) (l : Loc) : BitVec 8 :=
  let x := sget s.pubs (l.pa / 64)
  if l.space ≠ spLocal ∨ x = 0 then 0xFF else if x = 0xF0 then 0xF0 else x - 1

/-- Replace a shared queue's record. -/
def State.setShared (s : State) (n : Nat) (x : SharedQueue) : State := { s with shared := s.shared.set n (some x) }

/-- A shared queue's SPAWN packet is in the engine's queue: the shared queue stalls behind it (R339). -/
def Core.spawnWaits (c : Core) (queue : Nat) : Bool := c.queue.any fun p => p.queue == some queue && pkKind p.bytes == 0x20

/-- SHARED_QUEUE_SLOT_READ (R120): once slot RDIDX holds a nonzero KIND its packet is acquired, its header is zeroed and
RDIDX goes on. An absent page posts a fault, and the queue waits; any other cause holds the queue where it stands. -/
def execSharedQueueSlotRead (queue : Nat) (s : State) : Out :=
  match s.shared.getD queue none with
  | none => .next s
  | some q =>
    match s.ctx? q.ctx with
    | none => .next s
    | some c =>
      let k := s.core q.core
      let o : Origin := { team := none, ctx := c.num, world := c.world, gid := 0, pc := 0, port := 0, slot := 0, peer := 0xFF }
      if 32 ≤ k.queue.length ∨ k.spawnWaits queue ∨ !s.mayRetry q.stall then .next s
      else
        let s0 := (s.useSignal q.stall).setShared queue { q with stall := none }
        let stop (va : Nat) (x : EngAcc) : Out :=
          match x with
          | .fault e =>
            let (s1, w) := ((s.useSignal q.stall).fillTlbs c [va]).repost o q.core (BitVec.ofNat 64 va) e 4 q.stall
            .next (s1.setShared queue { q with stall := some w })
          | _ => .next (s0.fillTlbs c [va])
        let rva := q.desc + 128
        match s.engAcc c.world c .read rva 8 with
        | .at_ rl =>
          let i := ofBytes (s.readBytes rl.space rl.pa 8)
          let sva := q.desc + 4096 + 64 * (i % 2 ^ q.n)
          match s.engAcc c.world c .read sva 64 with
          | .at_ sl =>
            let b := s.readBytes sl.space sl.pa 64
            let s0 := (((s0.fillTlbs c [rva, sva]).engRead c.world q.core 0 rl 8).1.engRead c.world q.core 0 sl 64).1
            if pkKind b = 0 then .next s0
            else
              match s.engAcc c.world c .write sva 8, s.engAcc c.world c .write rva 8 with
              | .at_ _, .at_ _ =>
                let o1 : Origin := { o with peer := s.pubPeer sl }
                let s1 := (s0.engWrite o1 q.core 0 sva sl (List.replicate 8 0)).engWrite o1 q.core 0 rva rl (toBytes 8 (i + 1))
                let (s2, place) := s1.takePlace q.core []
                let p : Packet :=
                  { bytes := b, org := o1, queue := some queue, place := place, stall := none, cancel := false }
                let k2 := s2.core q.core
                .next (s2.setCore q.core { k2 with queue := k2.queue ++ [p] })
              | .at_ _, x => stop rva x
              | x, _ => stop sva x
          | x => stop sva x
        | x => stop rva x

/-! ## Starting copies and fills -/

/-- The packet that the engine starts next: the first of its queue but for the SPAWN packets of shared queues, which wait
for their launch queues. -/
def Core.nextPacket (c : Core) : Option Packet := c.queue.find? fun p => !(p.queue.isSome && pkKind p.bytes == 0x20)

/-- Take a packet out of the engine's queue. -/
def State.unqueue (s : State) (core place : Nat) : State :=
  let c := s.core core
  s.setCore core { c with queue := c.queue.filter fun p => p.place != place }

/-- The team that a packet's scratchpad ranges lie in. -/
def State.packetTeam (s : State) (p : Packet) : Option Team := p.org.team.bind fun n => s.team? n

/-- A scratchpad range of a copy or fill runs past the team's ring (R129). -/
def rangeBad (t : Option Team) (b : List Byte) : Bool :=
  let below (sp : Int × Int) : Bool :=
    match t with
    | some t => belowRing t sp
    | none => false
  (!pkDdev b && !below (rowsOf b).dstSpan) || (pkSscr b && pkKind b != 3 && !below (rowsOf b).srcSpan)

/-- Start the next packet when its kind is one of these (R113, R121, R127, R129). One that is both malformed and out of range takes
ILLEGAL_OPERAND (log 77). -/
def startCopy (core : Nat) (mine : List Byte → Bool) (s : State) : Out :=
  if Config.cores ≤ core then .fault .noSuchUnit
  else
    match (s.core core).nextPacket with
    | none => .next s
    | some p =>
      if !mine p.bytes then .next s
      else
        let s1 := s.unqueue core p.place
        if copyBad p.bytes p.queue.isSome then .next (s1.packetError p core false cIllegalOperand)
        else if rangeBad (s.packetTeam p) p.bytes then .next (s1.packetError p core false cScratchRange)
        else if (s.core core).crowded p.place then .next s
        else
          let c := s1.core core
          .next (s1.setCore core { c with
            active := c.active ++ [{ pkt := p, todo := [(0, (rowsOf p.bytes).total)], stall := none }] })

/-- COPY (R111); it also ends the packets of reserved kinds, and KICKed packets of KIND 0x00 and 0x20 (R121). -/
def execCopy (core : Nat) (s : State) : Out :=
  startCopy core (fun b => let k := pkKind b; !(k == 2 || k == 3 || k == 0x10 || k == 0x18)) s
/-- COPY3D (R112). -/
def execCopy3d (core : Nat) (s : State) : Out := startCopy core (fun b => pkKind b == 2) s
/-- FILL (R111). -/
def execFill (core : Nat) (s : State) : Out := startCopy core (fun b => pkKind b == 3) s

/-! ## Pieces -/

/-- Take a piece out of the ranges still to move: none where it does not lie within one of them. -/
def takeRange (start len : Nat) : List (Nat × Nat) → Option (List (Nat × Nat))
  | [] => none
  | (a, n) :: r =>
    if a ≤ start ∧ start + len ≤ a + n then
      some ((if a < start then [(a, start - a)] else []) ++
        (if start + len < a + n then [(start + len, a + n - (start + len))] else []) ++ r)
    else (takeRange start len r).map fun x => (a, n) :: x

/-- The parts of a range of the linear order by row. -/
def Rows.parts (r : Rows) (x : Nat × Nat) : List (Nat × Nat) :=
  (List.range ((x.1 + x.2 - 1) / r.len - x.1 / r.len + 1)).map fun k =>
    let lo := max x.1 ((x.1 / r.len + k) * r.len)
    let hi := min (x.1 + x.2) ((x.1 / r.len + k + 1) * r.len)
    (lo, hi - lo)

/-- A chunk of the core's scratchpad that the ranges still write. -/
def stillWrites (r : Rows) (base : Nat) (todo : List (Nat × Nat)) (chunk : Nat) : Bool :=
  todo.any fun x => (r.parts x).any fun y =>
    (chunksOf (base + (r.dstAt y.1).toNat) y.2).contains chunk

/-- An address of a row as a device virtual address. -/
def vaOf64 (x : Int) : Nat := wrap 64 x

/-- A piece's side in device memory lies within one 64 KiB page. -/
def onePage (dev : Bool) (va len : Nat) : Bool := !dev || decide (va % 65536 + len ≤ 65536)

/-- Where the bytes of a piece come from. -/
inductive PieceSrc
  | bytes (bs : List Byte)
  | dev (l : Loc)
deriving DecidableEq, Repr

/-- Replace a started packet. -/
def State.setActive (s : State) (core idx : Nat) (x : Copying) : State :=
  let c := s.core core
  s.setCore core { c with active := c.active.set idx x }

/-- A started packet ends. -/
def State.endActive (s : State) (core place : Nat) : State :=
  let c := s.core core
  s.setCore core { c with active := c.active.filter fun x => x.pkt.place != place }

/-- What stops a piece before a byte of it moves (R130, Table 5.8). -/
def pieceStop (s : State) (core idx va : Nat) (x : Copying) (r : EngAcc) : State :=
  match r with
  | .fault e =>
    let (s1, w) := (s.useSignal x.stall).repost x.pkt.org core (BitVec.ofNat 64 va) e 4 x.stall
    s1.setActive core idx { x with stall := some w }
  | .fail e => ((s.useSignal x.stall).endActive core x.pkt.place).packetError x.pkt core false e
  | .wait p =>
    let s1 := (s.useSignal x.stall).setActive core idx { x with stall := none }
    { s1 with remotes := s1.remotes ++
      [{ kind := .copy x.pkt.place, peer := p, core := core, org := x.pkt.org, lanes := 0, va := BitVec.ofNat 64 va,
         doubt := s.pathTo p, since := (s.link p).lostAt, ready := false, priv := false, sent := false, block := 0 }] }
  | .at_ _ => s

/-- A piece has been written: it is counted, finished chunks lose the writer, and the packet ends with its last byte (R127,
R131). -/
def pieceDone (s : State) (core idx : Nat) (x : Copying) (todo : List (Nat × Nat)) (len : Nat) (chunks : List Nat)
    (base : Nat) : State :=
  let r := rowsOf x.pkt.bytes
  let s1 := if todo = [] then s.endActive core x.pkt.place else s.setActive core idx { x with todo := todo, stall := none }
  let s2 := s1.packetUpdate x.pkt core false len none
  if chunks = [] then s2
  else s2.writerDone core x.pkt.place fun k => chunks.contains k && !stillWrites r base todo k

/-- The packet waits for a path to a peer. -/
def State.copyWaits (s : State) (core place : Nat) : Bool :=
  s.remotes.any fun r => r.core == core && r.kind == .copy place

/-- PIECE_ARRIVAL (R113): bytes `start` to `start + len − 1` of the linear order of the started packet `idx` arrive: at most
512, of one row, and of one page of each side in device memory. -/
def execPieceArrival (core idx start len : Nat) (s : State) : Out :=
  if Config.cores ≤ core then .fault .noSuchUnit
  else
    match (s.core core).active[idx]? with
    | none => .next s
    | some x =>
      let b := x.pkt.bytes
      let r := rowsOf b
      let o := x.pkt.org
      match takeRange start len x.todo, s.ctx? o.ctx with
      | some todo, some c =>
        let fill := pkKind b == 3
        let base := ((s.packetTeam x.pkt).map (·.base)).getD 0
        let src := r.srcAt start
        let dst := r.dstAt start
        let fits := decide (1 ≤ len) && decide (len ≤ 512) && decide (start / r.len = (start + len - 1) / r.len) &&
          onePage (!fill && !pkSscr b) (vaOf64 src) len && onePage (pkDdev b) (vaOf64 dst) len
        let here := !pkSscr b || !absent (s.core core) (base + src.toNat) len
        let vas := (if fill || pkSscr b then [] else [vaOf64 src]) ++ (if pkDdev b then [vaOf64 dst] else [])
        if !fits || !here || !s.mayRetry x.stall || s.copyWaits core x.pkt.place then .next s
        else if s.walksWait c vas then .next (s.queueWalks c vas)
        else
          let from_ : Except (Nat × EngAcc) PieceSrc :=
            if fill then .ok (.bytes ((List.range len).map fun i => (toBytes 8 (pk b 8 8)).getD ((vaOf64 dst + i) % 8) 0))
            else if pkSscr b then .ok (.bytes (spadRead (s.core core) (base + src.toNat) len))
            else
              match s.engAcc o.world c .read (vaOf64 src) len with
              | .at_ l => .ok (.dev l)
              | y => .error (vaOf64 src, y)
          match from_ with
          | .error (va, y) => .next (pieceStop (s.fillTlbs c [va]) core idx va x y)
          | .ok p =>
            let get (s : State) : State × List Byte :=
              match p with
              | .bytes bs => (s, bs)
              | .dev l => s.engRead o.world core (pkHint b) l len
            if pkDdev b then
              match s.engAcc o.world c .write (vaOf64 dst) len with
              | .at_ l =>
                let (s1, bs) := get ((s.useSignal x.stall).fillTlbs c vas)
                .next (pieceDone (s1.engWrite o core (pkHint b) (vaOf64 dst) l bs) core idx x todo len [] base)
              | y => .next (pieceStop (s.fillTlbs c vas) core idx (vaOf64 dst) x y)
            else
              let (s1, bs) := get ((s.useSignal x.stall).fillTlbs c vas)
              let at_ := base + dst.toNat
              .next (pieceDone (s1.spadWrite core at_ bs) core idx x todo len (chunksOf at_ len) base)
      | _, _ => .next s

/-! ## SPAWN packets (R339) -/

/-- The first SPAWN packet of a shared queue in the engine's queue whose fault, if it waits on one, may be retried. -/
def Core.nextSpawn (c : Core) (ready : Option Nat → Bool) : Option Packet :=
  c.queue.find? fun p => p.queue.isSome && pkKind p.bytes == 0x20 && ready p.stall

/-- A SPAWN packet's record: read, checked, and entered in the launch queue of the shared queue's registration. -/
def spawnFrom (core queue : Nat) (p : Packet) (s : State) : State :=
  match s.shared.getD queue none, s.ctx? p.org.ctx with
  | some q, some c =>
    let va := pk p.bytes 8 8
    let s0 := s.useSignal p.stall
    let drop (cause : BitVec 8) : State :=
      (s0.unqueue core p.place).orgRecord p.org (BitVec.ofNat 64 va) p.org.peer cause 0 false
    if va % 64 ≠ 0 then drop cMisaligned
    else
      match s.engAcc c.world c .read va 64 with
      | .fault e =>
        let (s1, w) := (s0.fillTlbs c [va]).repost p.org core (BitVec.ofNat 64 va) e 4 p.stall
        let k := s1.core core
        s1.setCore core { k with queue := k.queue.map fun x => if x.place = p.place then { x with stall := some w } else x }
      | .fail e => drop e
      | .wait n => if s.pathLost n then drop cRemoteLoadFailed else s
      | .at_ l =>
        let (s1, bs) := (s0.fillTlbs c [va]).engRead c.world core 0 l 64
        let r : LaunchRec := { bytes := bs, pc := 0, who := none, peer := 0xFF }
        if !s.queueBound q.lq c.num then drop cIllegalOperand
        else if recBad bs then (s1.unqueue core p.place).recordRefused c.num r cIllegalOperand
        else if (s.lqueue q.lq).full then s
        else (s1.unqueue core p.place).enqueue q.lq r
  | _, _ => s.unqueue core p.place

/-- SPAWN_PACKET (R339). -/
def execSpawnPacket (core : Nat) (s : State) : Out :=
  if Config.cores ≤ core then .fault .noSuchUnit
  else
    match (s.core core).nextSpawn s.mayRetry with
    | none => .next s
    | some p =>
      match p.queue with
      | none => .next s
      | some n => .next (spawnFrom core n p s)

end Sys2Proof.Machine
end

