-- ==== Sys2Proof/Machine/Probe.lean ====
section
/-! DEFINITION. Wait-for edges, probes and DEADLOCK (15_traps_and_preemption.md R390, R391; 13_conversations.md R334). -/

namespace Sys2Proof.Machine

open Sys2Proof.Bits

/-- Where a barrier lies, as one number: a device location, or an absolute scratchpad offset of a core. -/
inductive BarKey
  | spad (core at_ : Nat)
  | dev (loc : Nat)
deriving DecidableEq, Repr

/-- The barrier that a packet is counted on. -/
def State.packetBarKey (s : State) (o : Origin) (b : List Byte) : Option BarKey :=
  let (dev, addr) := packetBar b
  if dev then
    match s.ctx? o.ctx with
    | none => none
    | some c =>
      match s.resolve6 c c.priv .atomic addr 16 with
      | .ok l => some (.dev (locKey l.space l.pa))
      | .error _ => none
  else (o.team.bind fun n => s.team? n).map fun t => .spad t.core (t.base + addr)

/-- Packets, with their submitters, that have been submitted and have not finished. -/
def State.inFlight (s : State) : List (Origin × List Byte) :=
  (s.teams.flatMap fun t => (List.range 8).filterMap fun k =>
    match t.ring.getD k .free with
    | .submitted _ o => some (o, teamPacket s t (t.ringStart + 64 * k))
    | _ => none) ++
  (s.cores.flatMap fun c => (c.queue ++ c.search ++ c.net ++ c.active.map (·.pkt)).map fun p => (p.org, p.bytes)) ++
  (s.dogs.flatMap fun d => (d.inbound ++ d.admission ++ d.active).map fun q => (q.pkt.org, q.pkt.bytes)) ++
  (s.conns.flatMap fun k => k.sends.map fun n => (n.pkt.org, n.pkt.bytes))

/-- The barriers of the drains in the sequencers' queues. -/
def State.drainBars (s : State) : List BarKey :=
  ((List.range s.cores.length).zip s.cores).flatMap fun p =>
    (p.2.plate.seq ++ p.2.plate.waiters.map (·.op)).filterMap fun o =>
      match o.kind with
      | .mdrain _ _ _ _ bar _ _ => (o.org.team.bind fun n => s.team? n).map fun t => .spad p.1 (t.base + bar)
      | _ => none

/-- A packet, a drain or an update counted on a barrier is still in flight (Table 15.9). -/
def State.countsOn (s : State) (k : BarKey) : Bool :=
  (s.inFlight.any fun p => s.packetBarKey p.1 p.2 == some k) || s.drainBars.contains k ||
  (s.barWaits.any fun w => s.packetBarKey w.org ([0, 1] ++ List.replicate 54 0 ++ toBytes 8 w.va) == some k) ||
  s.remotes.any fun r =>
    match r.kind with
    | .update bar _ _ _ => s.packetBarKey r.org ([0, 1] ++ List.replicate 54 0 ++ toBytes 8 bar) == some k
    | _ => false

/-- All lanes of a group that have not exited. -/
def liveLanes (g : Group) : LaneSet := ~~~ g.exitedLanes

/-- The groups of a team that have not arrived at a barrier (R366, R367), each with all its lanes that have not exited. -/
def missing (p : Wait → Bool) (gs : List (Nat × Group)) : List (Nat × LaneSet) :=
  (gs.filter fun x => !arrivedAt p x.2).map fun x => (x.1, liveLanes x.2)

/-- The groups of this device with an identity word (R321). -/
def State.byIdent (s : State) (who : Nat) : List (Nat × Group) := s.groups.filter fun x => (identWord s x.2.gid).toNat == who

/-- The identity word of a holder that is a party on a peer (R321). -/
def State.farHolder (s : State) (who : Nat) : Bool := who % 16 != s.fabNum.getD 0

/-- The holders of roles on this device: none where a role has no holder, or one of this device that is not resident, at which a probe
stops (R334, R390). -/
def State.holders (s : State) (c : ConvAt) (rs : List Nat) : Option (List (Nat × LaneSet)) :=
  let who (r : Nat) : Nat := s.convGet c (roleOff r) 8
  if rs.all fun r => s.roleState c r == 1 && (s.farHolder (who r) || decide (s.byIdent (who r) ≠ [])) then
    some (((rs.filter fun r => !s.farHolder (who r)).flatMap fun r => s.byIdent (who r)).map fun x => (x.1, liveLanes x.2))
  else none

/-- The identity words of the holders of roles that are parties on peers. -/
def State.farHolders (s : State) (c : ConvAt) (rs : List Nat) : List Nat :=
  ((rs.map fun r => s.convGet c (roleOff r) 8).filter s.farHolder).eraseDups

/-- The operation that a lane of a group waits for. -/
def State.convOf (s : State) (key : Nat) (g : Group) (l : Nat) : Option (Nat × ConvOp) :=
  ((List.range s.convs.length).zip s.convs).find? fun p => p.2.key == key && p.2.org.gid == g.gid && inSet p.2.lanes l && !p.2.orphan

/-- The conversation at a location number. -/
def convAtKey (loc : Nat) : ConvAt := { space := loc / 2 ^ 60, pa := loc % 2 ^ 60, world := 0, hint := 0 }

/-- The roles whose holders the edge of a lane blocked at a conversation leads to (R334). -/
def State.edgeRoles (s : State) (key : Nat) (g : Group) (l : Nat) : Option (ConvAt × List Nat) :=
  match (g.lane l).st with
  | .parked .conv =>
    match s.convOf key g l with
    | some (_, o) =>
      if o.held then some (o.conv, (trDest o.target.toNat).filter fun r => decide (8 ≤ s.mailCount o.conv r)) else none
    | none => none
  | .parked (.mailbox loc _ _) =>
    let c := convAtKey loc
    some (c, ((s.convTrans c (stCur (s.convStatus c))).map trSend).eraseDups)
  | _ => none

/-- The parties on peers that the edge of a lane leads to, by identity word. -/
def State.farEdge (s : State) (key : Nat) (g : Group) (l : Nat) : List Nat :=
  match s.edgeRoles key g l with
  | some (c, rs) => s.farHolders c rs
  | none => []

/-- The set of lanes that the edge of a parked lane's sub-group leads to; none where it publishes no edge, or where a probe
stops (Table 15.9). -/
def State.edge (s : State) (key : Nat) (g : Group) (l : Nat) : Option (List (Nat × LaneSet)) :=
  match s.team? g.team with
  | none => none
  | some t =>
    let team : List (Nat × LaneSet) := (s.teamGroups t).map fun x => (x.1, liveLanes x.2)
    let bar (k : BarKey) : Option (List (Nat × LaneSet)) := if s.countsOn k then none else some team
    match (g.lane l).st with
    | .parked (.barrier a none _) => bar (.spad t.core (t.base + a))
    | .parked (.barrier _ (some loc) _) => bar (.dev loc)
    | .parked (.barrierMask a _ _) => bar (.spad t.core (t.base + a))
    | .parked (.rejoin j) => some [(key, g.jget j)]
    | .parked (.tbar _) => some (missing Wait.isTbar (s.teamGroups t))
    | .parked (.rbar _) => some (missing Wait.isRbar ((s.teamGroups t).filter fun x => gidRole x.2.gid == gidRole g.gid))
    | .parked .conv => (s.edgeRoles key g l).bind fun x => s.holders x.1 x.2
    | .parked (.mailbox _ _ _) => (s.edgeRoles key g l).bind fun x => s.holders x.1 x.2
    | _ => none

/-- The lanes of a parked lane's sub-group: those parked with it at the same instruction since the same cycle. -/
def unitOf (g : Group) (l : Nat) : LaneSet :=
  let x := g.lane l
  laneSet fun k => (g.lane k).st == x.st && (g.lane k).pc == x.pc && (g.lane k).since == x.since

/-- The world of a group. -/
def State.groupWorld (s : State) (g : Group) : Nat := ((s.team? g.team).map fun t => s.teamWorld t).getD 1

/-- PROBE_TIMER (R391): each 2^20 cycles that a sub-group stays blocked it sends a probe along its edge. -/
def execProbeTimer (core port slot lane : Nat) (s : State) : Out :=
  if Config.cores ≤ core ∨ Config.ports ≤ port ∨ Config.slots ≤ slot ∨ 32 ≤ lane then .fault .noSuchUnit
  else
    let key := slotKey core port slot
    match s.group? key with
    | none => .next s
    | some g =>
      let x := g.lane lane
      let d := s.cycle.toNat - x.since
      match s.edge key g lane with
      | none => .next s
      | some e =>
        if d < Config.probeCycles ∨ d % Config.probeCycles ≠ 0 ∨ g.halted then .next s
        else
          .next { s with probes := s.probes ++
            [{ origin := some (key, unitOf g lane), ident := identWord s g.gid, since := x.since, world := s.groupWorld g, hops := 1,
               at_ := e, far := s.farEdge key g lane }] }

/-- Whether a lane is parked. -/
def LaneState.isParked (x : LaneState) : Bool :=
  match x with
  | .parked _ => true
  | _ => false

/-- A set of lanes stops a probe: one of them is READY, LATE, TRAPPED, REPLAYING or HALTED, or its group has left. -/
def State.probeStops (s : State) (set : List (Nat × LaneSet)) : Bool :=
  set.any fun p =>
    match s.group? p.1 with
    | none => true
    | some g => g.halted || (lanesOf p.2).any fun l => !(g.lane l).st.isParked && (g.lane l).st != .exited

/-- Where DEADLOCK's TADDR points: the barrier, the conversation's window base, or 0 (R391). -/
def State.deadlockAddr (s : State) (key : Nat) (g : Group) (l : Nat) : BitVec 64 :=
  match (g.lane l).st with
  | .parked (.barrier a _ _) => BitVec.ofNat 64 a
  | .parked (.barrierMask a _ _) => BitVec.ofNat 64 a
  | .parked (.mailbox _ _ base) => BitVec.ofNat 64 base
  | .parked .conv => ((s.convOf key g l).map fun p => p.2.base).getD 0
  | _ => 0

/-- DEADLOCK at the origin's instruction (R391): an arrival at a rejoin mask is undone and a held operation withdrawn, and
the lanes trap. -/
def State.deadlock (s : State) (key : Nat) (m : LaneSet) (hops : Nat) : State :=
  match s.group? key with
  | none => s
  | some g =>
    match s.team? g.team, (lanesOf m).head? with
    | some t, some l =>
      let s1 :=
        match (g.lane l).st, s.convOf key g l with
        | .parked .conv, some (i, o) => s.convWithdraw i o
        | .parked (.mailbox _ _ _), some (i, _) => s.convDrop i
        | _, _ => s
      let g1 := match (g.lane l).st with
        | .parked (.rejoin j) => g.jset j (g.jget j ||| m)
        | _ => g
      let (g2, ps) := takeFaults g1 t (s.teamWorld t) key (g.lane l).pc s.cycle.toNat
        (trapSet m cDeadlock (s.deadlockAddr key g l) (BitVec.ofNat 64 hops) 7) []
      (s1.setGroup key g2).addPosts ps
    | _, _ => s

/-- The parked sub-groups among a set of lanes: slot key and first lane of each. -/
def State.unitsIn (s : State) (set : List (Nat × LaneSet)) : List (Nat × Nat) :=
  set.flatMap fun p =>
    match s.group? p.1 with
    | none => []
    | some g => (lanesOf p.2).filterMap fun l =>
        if (g.lane l).st.isParked ∧ (lanesOf (unitOf g l &&& p.2)).head? = some l then some (p.1, l) else none

/-- A probe leaves for the devices of the parties on peers that it has come to: one request each, which takes the next end-to-end number;
where no path exists it is dropped (R293, R334; log 28). -/
def State.probeOut (s : State) (p : Probe) : State :=
  p.far.foldl (fun a who => if a.pathTo (who % 16) then a.sendReq (who % 16) p.world else a) s

/-- A probe of a peer reaches a party on this device: its origin is on another device, or is a sub-group here to which it returns (R334,
R391). -/
def State.probeIn (s : State) (world : Nat) (ident : BitVec 64) (since hops : Nat) (who : BitVec 64) : State :=
  let origin := (s.byIdent ident.toNat).head?.map fun x =>
    (x.1, laneSet fun l => (x.2.lane l).st.isParked && (x.2.lane l).since == since)
  match s.byIdent who.toNat with
  | [] => s
  | xs => { s with probes := s.probes ++
      [{ origin := origin, ident := ident, since := since, world := world, hops := hops, at_ := xs.map fun x => (x.1, liveLanes x.2),
         far := [] }] }

/-- PROBE_HOP (R390, R391): a probe reaches its set of lanes, and is dropped, returns to its origin, or goes on along the edges
of the parked sub-groups there. A party on a peer is reached by a request to its device. -/
def execProbeHop (idx : Nat) (s : State) : Out :=
  match s.probes[idx]? with
  | none => .next s
  | some p =>
    let s1 := { s with probes := s.probes.eraseIdx idx }
    let waiting (o : Nat × LaneSet) : Bool :=
      match s.group? o.1 with
      | none => false
      | some g => identWord s g.gid == p.ident && (lanesOf o.2).all fun l => (g.lane l).st.isParked && (g.lane l).since == p.since
    let back := p.origin.filter fun o => p.at_.any fun x => x.1 == o.1 && decide (x.2 &&& o.2 ≠ 0)
    if s.probeStops p.at_ ∨ 64 < p.hops then .next s1
    else
    match back with
    | some o => .next (if waiting o then s1.deadlock o.1 o.2 p.hops else s1)
    | none =>
      let go := (s.unitsIn p.at_).filterMap fun u =>
        match s.group? u.1 with
        | none => none
        | some g =>
          let x := g.lane u.2
          let me := identWord s g.gid
          if x.since < p.since ∨ (x.since = p.since ∧ me.toNat < p.ident.toNat) then none
          else (s.edge u.1 g u.2).map fun e => { p with hops := p.hops + 1, at_ := e, far := s.farEdge u.1 g u.2 }
      let s2 := s1.probeOut p
      .next { s2 with probes := s2.probes ++ go }

end Sys2Proof.Machine
end

