-- ==== Sys2Proof/Machine/Fabric.lean ====
section
/-! DEFINITION. The fabric: requests of peers as this device performs them (12_fabric_and_network.md R285, R286, R293), the end
of this device's own waiting requests (R287, R288), links going down and up (R292, R299), and the flits that they receive
(R294 to R299). -/

namespace Sys2Proof.Machine

open Sys2Proof.Bits

/-! ## Incoming requests -/

/-- Who published the slots of local memory whose first 8 bytes a write reaches (R129). -/
def State.publish (s : State) (pa n : Nat) (who : BitVec 8) : State :=
  { s with pubs := (List.range ((pa + n + 63) / 64 - pa / 64)).foldl (fun a k =>
      if pa < (pa / 64 + k) * 64 + 8 then sset a (pa / 64 + k) who else a) s.pubs }

/-- The TY code of an atomic of `w` bytes in a request. -/
def reqTy (w : Nat) : Nat := if w = 4 then 10 else 11

/-- The home's check of an incoming request of `n` bytes that reads them, or else writes the ranges `rs`, against its own page ownership
table and its memory's errors (R285, R286). -/
def State.servedCheck (s : State) (world : Nat) (priv reads : Bool) (pa n : Nat) (rs : List (Nat × Nat)) : Option (BitVec 8) :=
  refusal s.mem s.eccBad s.tagBad s.conf world priv reads pa n rs

/-- The home counts what an incoming request reads or writes at memory, where the LLC does not serve it; it allocates nothing (R87,
R91, R285). -/
def State.servedRead (s : State) (world pa n : Nat) : State := (s.correct pa n).readLocal world ioPort 3 [(pa, n)]
def State.servedWrite (s : State) (world pa n : Nat) : State := s.wroteLocal world ioPort 3 [(pa, n)]

/-- The home's slice records a release write of a peer's core (R275). -/
def State.servedRelease (s : State) (src pa : Nat) (rel : Option Nat) : State :=
  match rel with
  | some core => { s with release := sset s.release (locKey spLocal pa / 128) (BitVec.ofNat 16 (256 * src + core + 1)) }
  | none => s

/-- What serving a request comes to: its response now, with data and cause; a response later; or it is not performed yet, and comes
again. -/
inductive Served
  | now (s : State) (data : List Byte) (cause : BitVec 8)
  | later (s : State)
  | wait (s : State)
deriving DecidableEq, Repr

/-- The promotion that a peer's acquire needs has been asked for. -/
def State.homePromo? (s : State) (world tgt src : Nat) (seq : BitVec 32) : Option Remote :=
  s.remotes.find? fun r => r.kind == .homePromo (tgt % 256) src seq && r.peer == tgt / 256 && r.org.world == world

/-- An acquire with PROMO of a peer's core waits for the core that the slice recorded for its line (R275): a core of this device until it
has no store left that a peer has not acknowledged, a peer's core until it has answered the promotion request that the slice sends to it.
The acquire is served after the answer. -/
def State.servedPromo (s : State) (src world : Nat) (seq : BitVec 32) (pa : Nat) (promo : Option Nat) (serve : State → Served) : Served :=
  match promo.bind fun c => s.promoTo src c spLocal pa with
  | none => serve s
  | some tgt =>
    if tgt / 256 = s.fabNum.getD 0 then (if s.openStores (tgt % 256) then .wait s else serve s)
    else
      match s.homePromo? world tgt src seq with
      | some r => if r.ready then serve { s with remotes := s.remotes.erase r } else .wait s
      | none =>
        let org : Origin :=
          { team := none, ctx := 0, world := world, gid := 0, pc := 0, port := 0, slot := 0, peer := BitVec.ofNat 8 src }
        let r : Remote :=
          { kind := .homePromo (tgt % 256) src seq, peer := tgt / 256, core := 0, org := org, lanes := 0, va := 0, doubt := false,
            since := (s.link (tgt / 256)).lostAt, ready := false, priv := true, sent := s.pathTo (tgt / 256), block := 1 }
        .wait (({ s with remotes := s.remotes ++ [r] } : State).sendReq (tgt / 256) world)

/-- A request that its home's check passes is served; a refusal changes nothing. -/
def Served.check (s : State) (c : Option (BitVec 8)) (r : Served) : Served :=
  match c with
  | some e => .now s [] e
  | none => r

/-- A peer group's monitor is taken off; an MWAIT parked there returns (R107, R109). -/
def State.endMon (s : State) (src world : Nat) (who : BitVec 64) : State :=
  let mine (m : PeerMon) : Bool := m.src == src && m.world == world && m.who == who
  (s.peerMons.filter mine).foldl (fun a m =>
    match m.wait with
    | some (q, p, w) => a.respond src world q (a.readBytes spLocal p w) 0
    | none => a) { s with peerMons := s.peerMons.filter fun m => !mine m }

/-- MWAIT of a peer's group at this slice (R108): answered at once, or armed until a write. -/
def State.serveWatch (s : State) (src world : Nat) (seq : BitVec 32) (pa w : Nat) (x who : BitVec 64) : Served :=
  let old := s.peerMons.find? fun m => m.src == src && m.world == world && m.who == who
  let got := s.readBytes spLocal pa w
  let mine := (old.map fun m => m.line == pa / 128 && m.written).getD false
  if mine then .now (s.endMon src world who) got 0
  else if ofBytes got ≠ x.toNat % 2 ^ (8 * w) ∨
      (s.monitorsFull spLocal pa && !(old.map fun m => sliceOf (m.line * 128) == sliceOf pa).getD false) then .now s got 0
  else
    let s1 := s.endMon src world who
    .later { s1 with peerMons := s1.peerMons ++
      [{ src := src, world := world, who := who, line := pa / 128, written := false, wait := some (seq, pa, w) }] }

/-- A conversation operation of a peer's group goes to its Bellwether on this device, which answers it (R332). -/
def State.serveConv (s : State) (src world : Nat) (seq : BitVec 32) (o : ConvReq) : State :=
  let org : Origin :=
    { team := none, ctx := 0, world := world, gid := o.who, pc := 0, port := 0, slot := 0, peer := BitVec.ofNat 8 src }
  { s with convs := s.convs ++
    [{ kind := o.kind, core := 0, org := org, lanes := 0, space := spLocal, pa := o.pa, base := o.base, role := o.role, mkind := o.mkind,
       count := o.pay.length, pay := o.pay, who := o.who, epoch := o.epoch, target := o.target, dreg := 0, areg := 0, held := false,
       withdrawn := false, orphan := false, parked := false, src := some (src, seq), again := false }] }

/-- The withdrawal of a peer's operation reaches its Bellwether: one that has not been answered is dropped (R333). -/
def State.serveWithdraw (s : State) (src world : Nat) (seq : BitVec 32) : Served :=
  match s.convs.findIdx? fun o => o.src == some (src, seq) && o.org.world == world with
  | none => .now s [0] 0
  | some k =>
    match s.convs[k]? with
    | some o => .now (s.convWithdraw k o) [1] 0
    | none => .now s [0] 0

/-- An incoming request is performed or refused (R285, R286). -/
def State.serve (s : State) (src world : Nat) (seq : BitVec 32) (req : FabricReq) : Served :=
  let who := BitVec.ofNat 8 (src + 1)
  match req with
  | .load pa n priv promo =>
    .check s (s.servedCheck world priv true pa n []) (s.servedPromo src world seq pa promo fun s =>
      .now (s.servedRead world pa n) (s.readBytes spLocal pa n) 0)
  | .store pa bs priv rel =>
    .check s (s.servedCheck world priv false pa bs.length [(pa, bs.length)])
      (.now ((((s.servedWrite world pa bs.length).writeBytes spLocal pa bs).publish pa bs.length who).servedRelease src pa rel) [] 0)
  | .atomic op pa w b c priv rel promo =>
    .check s (s.servedCheck world priv true pa w []) (s.servedPromo src world seq pa promo fun s =>
      let (old, wrote, s1) := (s.servedRead world pa w).atomAt spLocal pa w (reqTy w) op (b.toNat % 2 ^ (8 * w)) (c.toNat % 2 ^ (8 * w))
      .now (if wrote then ((s1.servedWrite world pa w).publish pa w who).servedRelease src pa rel else s1) (toBytes w old) 0)
  | .arm pa g priv =>
    .check s (s.servedCheck world priv false pa 1 [])
      (let s1 := s.endMon src world g
       .now { s1 with peerMons := s1.peerMons ++
         [{ src := src, world := world, who := g, line := pa / 128, written := false, wait := none }] } [] 0)
  | .watch pa w x g priv =>
    .check s (s.servedCheck world priv true pa w []) ((s.servedRead world pa w).serveWatch src world seq pa w x g)
  | .disarm g => .now (s.endMon src world g) [] 0
  | .promote core => if s.openStores core then .wait s else .now s [] 0
  | .conv o => .check s (s.servedCheck world o.priv true o.pa 128 []) (.later (s.serveConv src world seq o))
  | .withdraw q => s.serveWithdraw src world q
  | .probe ident since hops who => .now (s.probeIn world ident since hops who) [] 0

/-- INCOMING_FABRIC_REQUEST (R285, R286, R293): the next request of a source and world is performed once and its response
kept; a request that has been answered is answered again from the responses kept, and one ahead of its turn waits. -/
def execIncomingFabricRequest (src world : Nat) (seq : BitVec 32) (req : FabricReq) (s : State) : Out :=
  if 16 ≤ src ∨ 16 ≤ world then .fault .noSuchUnit
  else if some src = s.fabNum ∨ !s.pathTo src then .next s
  else
    let k := e2eKey src world
    let want := sget s.rxE2e k
    let took (t : State) : State := { t with rxE2e := sset t.rxE2e k (want + 1) }
    if seq = want then
      match s.serve src world seq req with
      | .now s1 data cause => .next ((took s1).respond src world seq data cause)
      | .later s1 => .next (took s1)
      | .wait s1 => .next s1
    else
      match s.kept.find? fun x => x.src == src && x.world == world && x.seq == seq with
      | some x =>
        let bs := if x.cause = 0 then x.data else x.cause :: x.data
        .next (({ s with reply := bs } : State).sendTo src bs)
      | none => .next s

/-! ## Waiting requests of this device -/

/-- An earlier request to the same peer under the same world has not been answered (R286). -/
def State.notFirst (s : State) (idx : Nat) (r : Remote) : Bool :=
  (s.remotes.take idx).any fun x => x.peer == r.peer && x.org.world == r.org.world && !x.isPromo && s.unmade x

/-- A waiting request leaves. -/
def State.dropRemote (s : State) (idx : Nat) : State := { s with remotes := s.remotes.eraseIdx idx }

/-- The turn of a request has come: its lanes issue their access again. Where its group has left, it is over. -/
def State.wakeRemote (s : State) (idx : Nat) (r : Remote) : State :=
  match s.remoteGroup r with
  | none => s.dropRemote idx
  | some (key, g) =>
    let s1 : State := { s with remotes := s.remotes.set idx { r with ready := true } }
    s1.setGroup key (g.onLanes r.lanes fun _ x => if x.waitsPeer then { x with st := .ready } else x)

/-- Lanes of a group that wait on a peer trap REMOTE_LOAD_FAILED at the instruction they stand at (R287). -/
def State.remoteTrap (s : State) (key : Nat) (m : LaneSet) (va info : BitVec 64) (access : Nat) : State :=
  match s.group? key with
  | none => s
  | some g =>
    match s.team? g.team, (lanesOf m).head? with
    | some t, some l =>
      let (g1, ps) := takeFaults g t (s.teamWorld t) key (g.lane l).pc s.cycle.toNat (trapSet m cRemoteLoadFailed va info access) []
      (s.setGroup key g1).addPosts ps
    | _, _ => s

/-- The lanes of a request that still wait for it. -/
def waitingLanes (g : Group) (m : LaneSet) : LaneSet := laneSet fun l => inSet m l && (g.lane l).waitsPeer

/-- The core that a promotion waits for (R275). -/
def promoCore (r : Remote) : Nat :=
  match r.kind with
  | .promo c => c
  | .homePromo c _ _ => c
  | _ => 0

/-- The promotion of a request is answered: by a core of this device when it has no store left that a peer has not acknowledged, by a
peer's core over a path (R275). -/
def State.promoAnswered (s : State) (r : Remote) : Bool :=
  if r.peer = s.fabNum.getD 0 then !s.openStores (promoCore r) else s.pathTo r.peer && !s.inDoubt r.peer

/-- REMOTE_RESPONSE (R287, R293): a path exists, and the request of this number, the first of its peer and world, is sent, unless it
has been, and answered; a promotion is answered when its core has completed its stores (R275). -/
def execRemoteResponse (idx : Nat) (s : State) : Out :=
  match s.remotes[idx]? with
  | none => .next s
  | some r =>
    let woken : State := { s with remotes := s.remotes.set idx { r with ready := true } }
    if r.ready then .next s
    else if r.isPromo then .next (if s.promoAnswered r then (if r.lanes = 0 then woken else s.wakeRemote idx r) else s)
    else if !s.pathTo r.peer || s.inDoubt r.peer || s.notFirst idx r then .next s
    else
      let s1 := s.dropRemote idx
      match r.kind with
      | .load => .next (s.wakeRemote idx r)
      | .atomic => .next (s.wakeRemote idx r)
      | .promo _ => .next s
      | .homePromo _ _ _ => .next s
      | .store w ps va rel =>
        let s2 := if r.sent then s1 else s1.sendBlock r.org.world (clusterPort r.core) r.peer true w
        match s2.storeRefused r w ps with
        | some c => .next (s2.orgRecord r.org va (BitVec.ofNat 8 r.peer) c w false)
        | none => .next (s2.peerWrite r.core r.peer rel ps)
      | .update bar n err search => .next (s1.devUpdate r.org r.core search bar n err none r.sent)
      | .copy _ => .next s1

/-- Each byte of a store in doubt holds its old or its new value (R287). -/
def State.maybeStore (s : State) (r : Remote) (w : Nat) (ps : List (Nat × List Byte)) : State :=
  if (s.storeRefused r w ps).isSome then s
  else
    ps.foldl (fun a p => (List.range p.2.length).foldl (fun a k =>
      let (b, a1) := a.freeBit
      if b then a1.peerWrite r.core r.peer false [(p.1 + k, [p.2.getD k 0])] else a1) a) s

/-- TINFO[15:8] of a request that meets the limit (R287). -/
def State.requestCode (s : State) (r : Remote) : Nat := if r.doubt then 0xF2 else s.limitCode r.peer

/-- A group's parked wait on peer memory ends when no path has existed for the limit (R287, R109). -/
def State.waitLimit (s : State) (key : Nat) : State :=
  match s.group? key with
  | none => s
  | some g =>
    let lost (sp : Nat) : Bool := decide (2 ≤ sp) && s.pathLost (sp - 2)
    let mon := laneSet fun l => (g.lane l).st == .parked .monitor
    if mon ≠ 0 ∧ lost g.mon.space then
      (s.setGroup key { g with mon := { g.mon with armed := false } }).remoteTrap key mon (BitVec.ofNat 64 g.mon.va)
        (remoteInfo (g.mon.space - 2) 0xF0) 0
    else
      match lanes32.find? fun l => match (g.lane l).st with
          | .parked (.barrier _ (some k) _) => lost (k / 2 ^ 60)
          | _ => false with
      | none => s
      | some l =>
        match (g.lane l).st with
        | .parked (.barrier a (some k) _) =>
          let m := laneSet fun j => (g.lane j).st == (g.lane l).st && (g.lane j).pc == (g.lane l).pc
          s.remoteTrap key m (BitVec.ofNat 64 a) (remoteInfo (k / 2 ^ 60 - 2) 0xF0) 3
        | _ => s

/-- REMOTE_PATH_LIMIT (R287, R288, R130): request `idx` meets the limit; a number past the requests names the slot key of a
group whose parked wait meets it. -/
def execRemotePathLimit (idx : Nat) (s : State) : Out :=
  match s.remotes[idx]? with
  | none => .next (s.waitLimit (idx - s.remotes.length))
  | some r =>
    if r.ready || r.peer == s.fabNum.getD 0 || !s.pathLost r.peer then .next s
    else
      let s1 := s.dropRemote idx
      let peer := BitVec.ofNat 8 r.peer
      let trapLoad : Out :=
        match s1.remoteGroup r with
        | none => .next s1
        | some (key, g) => .next (s1.remoteTrap key (waitingLanes g r.lanes) r.va (remoteInfo r.peer (s.requestCode r)) 0)
      match r.kind with
      | .homePromo _ _ _ => .next s
      | .promo _ => trapLoad
      | .load => trapLoad
      | .atomic =>
        if r.doubt then .next s
        else
          match s1.remoteGroup r with
          | none => .next s1
          | some (key, g) => .next (s1.remoteTrap key (waitingLanes g r.lanes) r.va (remoteInfo r.peer (s.requestCode r)) 3)
      | .store w ps va _ =>
        let s2 := if r.doubt then s1.maybeStore r w ps else s1
        .next (s2.orgRecord r.org va peer cRemoteLoadFailed w r.doubt)
      | .update bar _ _ _ =>
        .next (s1.orgRecord r.org (BitVec.ofNat 64 bar) (r.org.recordPeer (spPeer r.peer)) cRemoteLoadFailed 0 r.doubt)
      | .copy place =>
        match (s1.core r.core).active.find? fun x => x.pkt.place == place with
        | none => .next s1
        | some x => .next ((s1.endActive r.core place).packetError x.pkt r.core false cRemoteLoadFailed)

/-! ## Links (R292, R293, R299) -/

/-- A request of this device that has not been answered leaves on the path that exists now (R293): one that had never been sent takes its
number and counts its block, and one that had is sent again, under the number it has. -/
def State.sendAgain (s : State) (again : Bool) (r : Remote) : State :=
  if r.block = 0 then s
  else if r.isPromo then (if r.sent then (if again then s.sendTo r.peer else s) else s.sendReq r.peer r.org.world)
  else if r.sent then (if again then s.sendTo r.peer else s)
  else
    match r.kind with
    | .store w _ _ _ => s.sendBlock r.org.world (clusterPort r.core) r.peer true w
    | _ => s.sendBlock r.org.world (clusterPort r.core) r.peer false r.block

/-- A request waits for its response on a path that exists. -/
def State.onPath (s : State) (r : Remote) : Bool := !r.ready && r.peer != s.fabNum.getD 0 && s.pathTo r.peer

/-- The links have changed: peers that have lost their last path note the cycle, and every request without an answer leaves, in its order,
on a path that is there now and was not, or that has changed (R293). -/
def State.relink (s0 s : State) : State :=
  let note (x : Link × Nat) : Link :=
    if s0.pathTo x.2 && !s.pathTo x.2 then { x.1 with lostAt := s.cycle.toNat } else x.1
  let s1 : State := { s with links := (s.links.zip (List.range s.links.length)).map note }
  let s2 := s1.remotes.foldl (fun a r => if s1.onPath r then a.sendAgain (s0.route r.peer != s1.route r.peer) r else a) s1
  let copy (r : Remote) : Bool := match r.kind with
    | .copy _ => true
    | _ => false
  { s2 with remotes := s2.remotes.map fun r =>
      if s1.onPath r then { r with doubt := r.doubt || !r.isPromo, sent := r.sent || !copy r } else r }

/-- A link's keys are erased (R299). -/
def Link.erase (l : Link) : Link :=
  { l with tx := { l.tx with live0 := false, live1 := false }, rx := { l.rx with live0 := false, live1 := false } }

/-- LINK_DOWN (R292): training fails, or the peer is in reset and has lost its keys with it. -/
def execLinkDown (peer : Nat) (reset : Bool) (s : State) : Out :=
  if 16 ≤ peer then .fault .noSuchUnit
  else if some peer = s.fabNum ∨ s.fabN ≤ peer then .next s
  else
    let l := { s.link peer with up := false, reset := reset }
    .next (s.relink (s.setLink peer (if reset || decide (8 ≤ l.fails) then l.erase else l)))

/-- A link as a new exchange of R296 brings it up. -/
def Link.bringUp (l : Link) : Link :=
  { l with up := true, reset := false, txSeq := 0, rxSeq := 0, tx := Keys.bringUp, rx := Keys.bringUp, retry := [], nakSent := false,
           fails := 0, switchAt := none, ksOwed := false, sendq := [] }

/-- LINK_UP (R293, R299): a direct link returns, after a new exchange where its keys were erased. -/
def execLinkUp (peer : Nat) (s : State) : Out :=
  if 16 ≤ peer then .fault .noSuchUnit
  else if some peer = s.fabNum ∨ s.fabN ≤ peer ∨ s.fabNum = none then .next s
  else
    let l := s.link peer
    let l1 := if (l.tx.live false || l.tx.live true) && decide (l.fails < 8) then { l with up := true, reset := false, fails := 0 } else l.bringUp
    .next (s.relink (s.setLink peer l1))

/-! ## Flits received (R295 to R298) -/

/-- The receiver's invocation counter of a flit: the smallest value not yet used whose low 31 bits are ICL (R295). -/
def rebuild (next icl : Nat) : Nat := next + (icl + 2 ^ 31 - next % 2 ^ 31) % 2 ^ 31

/-- Whether a flit authenticates: its tag verifies under the slot it names, that slot is live, and its TYPE is one of Table 12.3
(R294, R296). -/
def Link.verifies (l : Link) (f : Flit) : Bool := f.auth && l.rx.live f.ks && decide (1 ≤ f.ty.toNat) && decide (f.ty.toNat ≤ 5)

/-- A flit belongs to the row of a TYPE; one of a TYPE that Table 12.3 does not list, which fails authentication, is met by any row. -/
def flitRow (ty : Nat) (f : Flit) : Bool := f.ty.toNat == ty || decide (f.ty.toNat < 1) || decide (5 < f.ty.toNat)

/-- The SEQ that the payload of an ACK or NAK carries, big-endian in flit bytes 8 to 10 (Table 12.3). -/
def payloadSeq (f : Flit) : BitVec 24 := BitVec.ofNat 24 (ofBytes (f.payload.take 3).reverse)

/-- The counter of the slot moves past an accepted flit's. -/
def Link.accepted (l : Link) (f : Flit) : Link :=
  { l with rx := l.rx.setCtr f.ks (rebuild (l.rx.ctr f.ks) f.icl.toNat + 1) }

/-- A failed authentication is logged with the link and the SEQ, and whether the link goes down with it (R298, R299). -/
def State.logFlit (s : State) (peer : Nat) (seq : Nat) (down : Bool) : State :=
  s.logAdd 0x02 0xFF (BitVec.ofNat 16 (s.linkDir peer).1) (toBytes 4 seq ++ [if down then 1 else 0])

/-- The link to a peer while it is up. -/
def State.upLink (s : State) (peer : Nat) : Option Link := if (s.link peer).isUp then some (s.link peer) else none

/-- A NAK and an ACK of a SEQ are sent (R297). -/
def Link.sendNak (l : Link) (id : Nat × Bool) : Link := l.emit id tyNak 0 (beBytes 3 l.rxSeq.toNat)
def Link.sendAck (l : Link) (id : Nat × Bool) (seq : BitVec 24) : Link := l.emit id tyAck 0 (beBytes 3 seq.toNat)

/-- A sequenced flit (R297): accepted in order, or discarded with a NAK of the SEQ that is expected. `take` is what its
acceptance does to the link, and `act` to the machine; an ACK may follow at once or later. -/
def sequenced (s : State) (peer : Nat) (f : Flit) (take : Link → Link) (act : State → State) : Out :=
  if 16 ≤ peer then .fault .noSuchUnit
  else
    match s.upLink peer with
    | none => .next s
    | some l =>
      let id := s.linkDir peer
      if !l.verifies f then
        let here := f.seq == l.rxSeq
        let fails := if here then l.fails + 1 else l.fails
        let l1 : Link := { l with fails := fails, nakSent := true }
        .next ((s.relink (s.setLink peer (if here || !l.nakSent then l1.sendNak id else l1))).logFlit peer f.seq.toNat (decide (8 ≤ fails)))
      else if f.seq ≠ l.rxSeq then
        let l1 : Link := { l with nakSent := true }
        .next (s.setLink peer (if l.nakSent then l1 else l1.sendNak id))
      else
        let (ack, s1) := s.freeBit
        let l1 := take { l.accepted f with rxSeq := l.rxSeq + 1, nakSent := false, fails := 0 }
        .next (act (s1.setLink peer (if ack then l1.sendAck id f.seq else l1)))

/-- A device that traffic passes through sends the flit's payload on under the key of its own link to the flit's destination, and
changes nothing in it (R292). Where that link is down the flit is lost, and its source sends the request again (R293). -/
def State.forward (s : State) (f : Flit) : State :=
  if some f.dest = s.fabNum ∨ !(s.link f.dest).isUp then s
  else s.setLink f.dest ((s.link f.dest).sendData (s.linkDir f.dest) f.payload)

/-- DATA (R292, R297). -/
def execData (peer : Nat) (flit : Flit) (s : State) : Out :=
  if peer < 16 ∧ !flitRow tyData flit then .next s else sequenced s peer flit id fun t => t.forward flit

/-- KEYSWITCH (R296): the other slot is erased and takes the next generation. -/
def execKeyswitch (peer : Nat) (flit : Flit) (s : State) : Out :=
  if peer < 16 ∧ !flitRow tyKeyswitch flit then .next s
  else sequenced s peer flit (fun l => { l with rx := { l.rx with cur := flit.ks }.reload (!flit.ks) }) id

/-- A flit without a sequence number: one that does not authenticate is discarded and logged. -/
def unsequenced (s : State) (peer : Nat) (f : Flit) (take : Link → Link) : Out :=
  if 16 ≤ peer then .fault .noSuchUnit
  else
    match s.upLink peer with
    | none => .next s
    | some l =>
      if !l.verifies f then .next (s.logFlit peer 0 false)
      else .next (s.setLink peer (take (l.accepted f)))

/-- Flits of the retry buffer after the one that an ACK names; all of them stay where it is not there. -/
def ackTail (seq : BitVec 24) (l : List Unacked) : List Unacked :=
  if l.any fun u => u.seq == seq then (l.dropWhile fun u => u.seq != seq).drop 1 else l

/-- A cumulative ACK frees the flits up to the SEQ that it names, and what waits for their room is sent; when it covers the KEYSWITCH the
old slot is erased (R296, R297). -/
def Link.acked (l : Link) (id : Nat × Bool) (seq : BitVec 24) : Link :=
  let l1 := { l with retry := ackTail seq l.retry }
  (if l1.switchAt.isSome ∧ l1.retry.all (fun u => !u.ks) then l1.switched else l1).pump id

/-- ACK (R296, R297). -/
def execAck (peer : Nat) (flit : Flit) (s : State) : Out :=
  if peer < 16 ∧ !flitRow tyAck flit then .next s else unsequenced s peer flit fun l => l.acked (s.linkDir peer) (payloadSeq flit)

/-- NAK (R297): the flits from its SEQ on are sent again, in order, each under a new invocation of the current slot. -/
def execNak (peer : Nat) (flit : Flit) (s : State) : Out :=
  if peer < 16 ∧ !flitRow tyNak flit then .next s
  else unsequenced s peer flit fun l => l.resend (s.linkDir peer) (l.retry.dropWhile fun u => u.seq != payloadSeq flit)

/-- IDLE (R297). -/
def execIdle (peer : Nat) (flit : Flit) (s : State) : Out :=
  if peer < 16 ∧ !flitRow tyIdle flit then .next s else unsequenced s peer flit id

/-- REKEY_SWITCH (R296): a slot that is used up gives way to the other one, and the KEYSWITCH leaves where the retry buffer has room. -/
def execRekeySwitch (peer : Nat) (s : State) : Out :=
  if 16 ≤ peer then .fault .noSuchUnit
  else
    match s.upLink peer with
    | none => .next s
    | some l => .next (s.setLink peer (l.pump (s.linkDir peer)))

/-- LINK_AUTH_FAILURE_LIMIT (R299): the keys of a link that 8 failures have taken down (`Link.isUp`) are erased. -/
def execLinkAuthFailureLimit (peer : Nat) (s : State) : Out :=
  if 16 ≤ peer then .fault .noSuchUnit
  else
    let l := s.link peer
    if l.fails < 8 ∨ !l.up then .next s else .next (s.relink (s.setLink peer { l.erase with up := false }))

end Sys2Proof.Machine
end

