-- ==== Sys2Proof/Machine/NetEng.lean ====
section
/-! DEFINITION. Network ports: an NWRI as its sender sends it and its target performs it, acknowledgements, congestion and
failure (12_fabric_and_network.md R300 to R306). -/

namespace Sys2Proof.Machine

open Sys2Proof.Bits

/-! ## Connections -/

/-- The connection of an id, and a state with one replaced. -/
def State.conn? (s : State) (id : Nat) : Option Conn := s.conns.find? fun k => k.id == id
def State.setConn (s : State) (k : Conn) : State := { s with conns := s.conns.map fun x => if x.id == k.id then k else x }

/-- Fields of a NET packet (Table 12.7). -/
def nLen (b : List Byte) : Nat := pkLen b
def nSrc (b : List Byte) : Nat := pk b 8 8
def nTva (b : List Byte) : BitVec 64 := BitVec.ofNat 64 (pk b 16 8)
def nTbar (b : List Byte) : Nat := pk b 24 8
def nConn (b : List Byte) : Nat := pk b 36 2
def nSscr (b : List Byte) : Bool := bit (pk b 0 8) 9

/-- The packets of an NWRI of a length (R300). -/
def packetsOf (len : Nat) : Nat := (len + 4095) / 4096

/-- The first PSN not acknowledged, the number of packets outstanding, and those in flight. -/
def Conn.una (k : Conn) : BitVec 24 :=
  match k.sends with
  | [] => k.psn
  | n :: _ => n.psn0 + BitVec.ofNat 24 (n.acked / 4096)
def Conn.outstanding (k : Conn) : Nat := (k.psn - k.una).toNat
def Conn.inFlight (k : Conn) : Nat := (k.nxt - k.una).toNat

/-- The transport header of data packet `j` of an NWRI (Table 12.5). -/
def dataHeader (k : Conn) (n : Nwri) (j : Nat) : List Byte :=
  let b := n.pkt.bytes
  let last := n.total ≤ 4096 * (j + 1)
  [if last then 0x02 else 0x01, 0] ++ beBytes 2 k.peerId ++ beBytes 4 (n.psn0 + BitVec.ofNat 24 j).toNat ++ beBytes 2 k.realm ++
    [BitVec.ofNat 8 (k.world % 16), 0] ++ beBytes 4 (if last then pk b 32 4 else 0) ++ beBytes 8 (pk b 16 8 + 4096 * j) ++
    beBytes 8 (pk b 24 8) ++ beBytes 4 n.total ++ List.replicate 4 0

/-- A frame of a connection as it leaves: the headers up to UDP's, the UDP destination port, the transport header, the payload, and in
confidential mode the tag under the connection's key (R300). -/
def frameBytes (udp : BitVec 16) (k : Conn) (psn : Nat) (h p : List Byte) : List Byte :=
  Config.frameHead k.id k.peerAddr psn ++ beBytes 2 udp.toNat ++ h ++ p ++
    (if k.keyed then (List.range 16).map (Config.netTagByte k.id psn h p) else [])

/-- A data packet as it leaves. -/
def packetBytes (udp : BitVec 16) (k : Conn) (n : Nwri) (j : Nat) : List Byte :=
  frameBytes udp k (n.psn0.toNat + j) (dataHeader k n j) ((n.data.drop (4096 * j)).take 4096)

/-- The NWRI that a PSN belongs to. -/
def Conn.nwriAt (k : Conn) (psn : BitVec 24) : Option Nwri :=
  k.sends.find? fun n => decide ((psn - n.psn0).toNat < packetsOf n.total)

/-- `m` packets from a PSN on go out in order. -/
def Conn.frames (k : Conn) (udp : BitVec 16) (psn : BitVec 24) (m : Nat) : Conn :=
  { k with wire := (List.range m).filterMap fun i =>
      let q := psn + BitVec.ofNat 24 i
      (k.nwriAt q).map fun n => packetBytes udp k n (q - n.psn0).toNat }

/-- Packets that have not been sent leave while the window has room for them (R304). -/
def Conn.pump (k : Conn) (udp : BitVec 16) : Conn :=
  let k0 := if (k.nxt - k.una).toNat < 2 ^ 23 then k else { k with nxt := k.una }
  let m := min k0.cwnd k0.outstanding - k0.inFlight
  { k0.frames udp k0.nxt m with nxt := k0.nxt + BitVec.ofNat 24 m }

/-- The packets sent from a PSN on go out again, as many as the window takes (go-back-N, R304). -/
def Conn.goBack (k : Conn) (udp : BitVec 16) (psn : BitVec 24) : Conn :=
  let m := (k.nxt - psn).toNat
  if m < 2 ^ 23 then k.frames udp psn (min k.cwnd m) else k

/-- An NWRI fails (R305): its local barrier takes ERROR and the context's error queue a record. -/
def State.nwriFail (s : State) (port : Nat) (p : Packet) (core : Nat) (cause : BitVec 8) : State :=
  (s.packetUpdate p core false 0 (some cRemoteLoadFailed)).orgRecord p.org (nTva p.bytes) (BitVec.ofNat 8 (0xE0 + port)) cause 0
    false

/-- A connection fails, and every NWRI on it (R304, R305). -/
def State.connFail (s : State) (k : Conn) : State :=
  k.sends.foldl (fun a n => a.nwriFail k.port n.pkt n.core cRemoteLoadFailed) (s.setConn { k with failed := true, sends := [] })

/-! ## Sending (R306) -/

/-- A malformed NET packet (R306). -/
def netBad (s : State) (p : Packet) : Bool :=
  let b := p.bytes
  pkKind b != 0x18 || nLen b == 0 || decide (0x1000000 < nLen b) || decide (nTbar b % 16 ≠ 0) ||
    (p.queue.isSome && (!pkBdev b || nSscr b)) ||
    !(match s.conn? (nConn b) with
      | some k => k.ctx == p.org.ctx
      | none => false)

/-- A byte range cut at 64 KiB pages. -/
def allCuts : Nat → Nat → Nat → List (Nat × Nat)
  | 0, _, _ => []
  | f + 1, va, n =>
    let k := inPage va n
    if k = 0 then [] else (va, k) :: allCuts f (va + k) (n - k)

/-- Where the pieces of a source in device memory lie, or the first that does not pass its checks. -/
def sourceLocs (s : State) (c : Context) (world : Nat) : List (Nat × Nat) → Except (Nat × EngAcc) (List (Nat × Loc × Nat))
  | [] => .ok []
  | (va, n) :: r =>
    match s.engAcc world c .read va n with
    | .at_ l => (sourceLocs s c world r).map fun x => (va, l, n) :: x
    | x => .error (va, x)

/-- The port reads a source in device memory: the state and the bytes. -/
def sourceRead (s : State) (c : Context) (world : Nat) (ls : List (Nat × Loc × Nat)) : State × List Byte :=
  ls.foldl (fun a x =>
    let r := (a.1.fillTlbs c [x.1]).engFetch world ioPort 0 x.2.1 x.2.2
    (r.1, a.2 ++ r.2)) (s, [])

/-- An NWRI leaves on its connection with the bytes that it carries: its packets take the next PSNs, and go as the window lets them
(R300, R304, R305). -/
def State.nwriStart (s : State) (k : Conn) (p : Packet) (core : Nat) (bs : List Byte) : State :=
  if k.failed then s.nwriFail k.port p core cRemoteLoadFailed
  else
    let n := packetsOf (nLen p.bytes)
    let x : Nwri := { pkt := p, core := core, psn0 := k.psn, total := nLen p.bytes, acked := 0, data := bs }
    let k1 : Conn :=
      { k with psn := k.psn + BitVec.ofNat 24 n, sends := k.sends ++ [x], lastAct := if k.sends = [] then s.cycle.toNat else k.lastAct }
    (s.meter k.world 5 (nLen p.bytes)).setConn (k1.pump s.udpPort)

/-- Put a packet's wait on a fault into the port or the request engine's queue. -/
def State.stallNet (s : State) (core place : Nat) (w : Option Nat) : State :=
  let c := s.core core
  let f (p : Packet) : Packet := if p.place = place then { p with stall := w } else p
  s.setCore core { c with net := c.net.map f, queue := c.queue.map f }

/-- NET_PACKET (R306, R308): the first packet of the core's network port, or, where the port holds none, the NET packet that
the request engine has reached, is validated and sent. -/
def execNetPacket (core : Nat) (s : State) : Out :=
  if Config.cores ≤ core then .fault .noSuchUnit
  else
    let c := s.core core
    let pick : Option (Packet × Bool) :=
      match c.net with
      | p :: _ => some (p, true)
      | [] => (c.nextPacket.bind fun p => if pkKind p.bytes = 0x18 then some p else none).map fun p => (p, false)
    match pick with
    | none => .next s
    | some (p, port) =>
      let b := p.bytes
      let s1 := (if port then s.setCore core { c with net := c.net.drop 1 } else s.unqueue core p.place).useSignal p.stall
      if netBad s p then .next (s1.packetError p core false cIllegalOperand)
      else
        match s.conn? (nConn b), s.ctx? p.org.ctx with
        | some k, some x =>
          if nSscr b then
            match s.packetTeam p with
            | none => .next s1
            | some t =>
              if t.ringStart < nSrc b + nLen b then .next (s1.packetError p core false cScratchRange)
              else if absent c (t.base + nSrc b) (nLen b) then .next s
              else
                let s2 := s1.nocCount (clusterPort core) ioPort p.org.world (nLen b)
                .next (s2.nwriStart k p core (sread c.spad (t.base + nSrc b) (nLen b)))
          else if !s.mayRetry p.stall then .next s
          else
            let cuts := allCuts 258 (nSrc b) (nLen b)
            match sourceLocs s x p.org.world cuts with
            | .ok ls =>
              let r := sourceRead s1 x p.org.world ls
              .next (r.1.nwriStart k p core r.2)
            | .error (va, .fault e) =>
              let (s2, w) := (s.useSignal p.stall).repost p.org core (BitVec.ofNat 64 va) e 4 p.stall
              .next (s2.stallNet core p.place (some w))
            | .error (_, .wait n) =>
              if !s.pathLost n then .next s
              else .next (s1.packetError p core false cRemoteLoadFailed)
            | .error (_, .fail e) => .next (s1.packetError p core false e)
            | .error (_, .at_ _) => .next s
        | _, _ => .next s1

/-! ## Acknowledgements at the sender (R304, R305) -/

/-- One packet is acknowledged: its bytes are counted on the local barrier, and the NWRI ends with its last. -/
def State.ackOne (s : State) (id : Nat) : State :=
  match s.conn? id with
  | none => s
  | some k =>
    match k.sends with
    | [] => s
    | n :: r =>
      let m := min 4096 (n.total - n.acked)
      let sends := if n.total ≤ n.acked + m then r else { n with acked := n.acked + m } :: r
      (s.setConn { k with sends := sends }).packetUpdate n.pkt n.core false m none

/-- The window after `n` packets are acknowledged without ECE: each cwnd of them adds 1. -/
def growWindow : Nat → Nat → Nat → Nat × Nat
  | 0, cwnd, credit => (cwnd, credit)
  | n + 1, cwnd, credit =>
    if cwnd ≤ credit + 1 then growWindow n (min 1024 (cwnd + 1)) 0 else growWindow n cwnd (credit + 1)

/-- What still holds a second decrease back after an acknowledgement up to `psn`: the first PSN sent after the decrease, until it has been
acknowledged (R304). -/
def Conn.holds (k : Conn) (psn : BitVec 24) : Option (BitVec 24) := k.holdDec.filter fun h => decide (2 ^ 23 ≤ (psn - h).toNat)

/-- The window after an acknowledgement of `n` packets up to `psn` (R304). -/
def Conn.window (k : Conn) (psn : BitVec 24) (n : Nat) (ece : Bool) : Conn :=
  if ece then
    if (k.holds psn).isNone then { k with cwnd := max 1 (k.cwnd / 2), credit := 0, holdDec := some k.nxt }
    else k
  else
    let w := growWindow n k.cwnd k.credit
    { k with cwnd := w.1, credit := w.2, holdDec := k.holds psn }

/-- A connection sends what its window lets it. -/
def State.pumpConn (s : State) (id : Nat) : State :=
  match s.conn? id with
  | none => s
  | some k => s.setConn (k.pump s.udpPort)

/-- The connection of an answer's frame: one that does not match a connection's port and peer address, or whose tag does not verify in
confidential mode, is ignored (R300). -/
def State.answered (s : State) (f : NetSrc) : Option Conn :=
  (s.conn? f.conn).filter fun k => k.port == f.port && k.peerAddr == f.addr && s.netUp.getLsbD k.port && (!k.keyed || f.auth)

/-- NET_ACK (R304, R306): packets up to `psn` are acknowledged. -/
def execNetAck (frame : NetSrc) (psn : BitVec 24) (ece : Bool) (s : State) : Out :=
  match s.answered frame with
  | none => .next s
  | some k =>
    let n := (psn - k.una).toNat + 1
    if k.failed ∨ k.inFlight < n then .next s
    else
      let k1 := { k.window psn n ece with silences := 0, lastAct := s.cycle.toNat, rnrUntil := none }
      .next (((List.range n).foldl (fun a _ => a.ackOne frame.conn) (s.setConn k1)).pumpConn frame.conn)

/-- NET_NAK (R304, R305): without a cause the packets from `psn` on are sent again; with one the NWRI fails. -/
def execNetNak (frame : NetSrc) (psn : BitVec 24) (cause : BitVec 8) (s : State) : Out :=
  match s.answered frame with
  | none => .next s
  | some k =>
    if k.failed then .next s
    else
      let k1 := { k with silences := 0, lastAct := s.cycle.toNat }
      if cause = 0 then .next (s.setConn (k1.goBack s.udpPort psn))
      else
        match k.nwriAt psn with
        | none => .next s
        | some n =>
          let k2 : Conn := { k1 with sends := k.sends.filter fun x => x.psn0 != n.psn0 }
          .next ((s.setConn (k2.pump s.udpPort)).nwriFail k.port n.pkt n.core cause)

/-- RNR (R301): the sender waits 10 µs. -/
def execRnr (frame : NetSrc) (psn : BitVec 24) (s : State) : Out :=
  match s.answered frame with
  | none => .next s
  | some k =>
    if k.failed ∨ (k.nwriAt psn).isNone then .next s
    else .next (s.setConn { k with rnrUntil := some (s.cycle.toNat + 24000), silences := 0, lastAct := s.cycle.toNat })

/-- RNR_RETRY_TIMER (R301): the wait is over and the packets are sent again. -/
def execRnrRetryTimer (conn : Nat) (s : State) : Out :=
  match s.conn? conn with
  | none => .next s
  | some k =>
    match k.rnrUntil with
    | none => .next s
    | some t => if s.cycle.toNat < t then .next s else
        let k1 : Conn := { k with rnrUntil := none, lastAct := s.cycle.toNat }
        .next (s.setConn (k1.goBack s.udpPort k.una))

/-- NET_SILENCE_TIMEOUT (R304): after 240,000 cycles of silence the packets are sent again; the seventh silence in a row fails
the connection. -/
def execNetSilenceTimeout (conn : Nat) (s : State) : Out :=
  match s.conn? conn with
  | none => .next s
  | some k =>
    if k.failed ∨ k.sends = [] ∨ k.rnrUntil.isSome ∨ s.cycle.toNat < k.lastAct + 240000 then .next s
    else if 7 ≤ k.silences + 1 then .next (s.connFail { k with silences := k.silences + 1 })
    else
      let k1 : Conn := { k with silences := k.silences + 1, lastAct := s.cycle.toNat }
      .next (s.setConn (k1.goBack s.udpPort k.una))

/-- NET_PORT_DOWN (R304): the connections of the port fail. -/
def execNetPortDown (port : Nat) (s : State) : Out :=
  if 8 ≤ port then .fault .noSuchUnit
  else
    let s1 := { s with netUp := s.netUp &&& ~~~ (BitVec.twoPow 8 port) }
    .next ((s.conns.filter fun k => k.port == port && !k.failed).foldl (fun a k => a.connFail k) s1)

/-! ## The target (R301 to R303) -/

/-- The transport header of an answer (Table 12.5). -/
def answerHeader (k : Conn) (op psn cause : Nat) (ece : Bool) : List Byte :=
  [BitVec.ofNat 8 op, if ece then 1 else 0] ++ beBytes 2 k.peerId ++ beBytes 4 psn ++ beBytes 2 k.realm ++
    [BitVec.ofNat 8 k.world, BitVec.ofNat 8 cause] ++ List.replicate 28 0

/-- The frame of an answer. -/
def answerBytes (udp : BitVec 16) (k : Conn) (op psn cause : Nat) (ece : Bool) : List Byte :=
  frameBytes udp k psn (answerHeader k op psn cause ece) []

/-- Steps 4 to 6 of Table 4.11 for a write of the bound context (R301). -/
def State.netCheck (s : State) (c : Context) (va n : Nat) : Except (BitVec 8) Loc :=
  match s.translate c va with
  | .cause e => .error e
  | .absent _ _ => .error cPageNotPresent
  | .leaf pte size =>
    if !pteW pte || (!c.priv && !pteU pte) then .error cPageProtection
    else
      let pa := pteAddr pte + va % 2 ^ size
      let l : Loc := { space := peerSpace s (ptePeer pte), pa := pa, nc := pteNc pte }
      if l.space = spLocal then
        if isCarve pa then .error cOwnership
        else if !isMemPa pa then .error cPageProtection
        else if !potPass s.mem c.world c.priv pa then .error cOwnership
        else .ok l
      else
        match s.reach c.world c.priv .write l n with
        | .ok => .ok l
        | .refused e => .error e
        | _ => .error cRemoteLoadFailed

/-- The locations of the pieces of a packet's bytes. -/
def netPieces (s : State) (c : Context) : List (Nat × Nat) → Except (BitVec 8) (List (Nat × Loc × Nat))
  | [] => .ok []
  | (va, n) :: r =>
    match s.netCheck c va n with
    | .error e => .error e
    | .ok l => (netPieces s c r).map fun x => (va, l, n) :: x

/-- Whether a notify ring has space (R303): the state that has read its indexes, and the answer. -/
def State.ringSpace (s : State) (world : Nat) (q : RingReg) : State × Bool :=
  let (s1, w) := s.ringGet world q.desc 8
  let (s2, r) := s1.ringGet world (q.desc + 128) 8
  (s2, decide ((w + 2 ^ 64 - r) % 2 ^ 64 < 2 ^ q.n))

/-- The notify entry of an NWRI is deposited, and NPOLLs parked on the ring evaluate again (R303, R309). -/
def State.notify (s : State) (c : Context) (k : Conn) (q : RingReg) (imm : BitVec 32) : State :=
  let (s0, w) := s.ringGet c.world q.desc 8
  let e := 2 ^ 63 + k.id % 65536 * 2 ^ 32 + imm.toNat
  let s1 := (s0.ringPut c.world (q.desc + 4096 + 8 * (w % 2 ^ q.n)) (toBytes 8 e)).ringPut c.world q.desc (toBytes 8 (w + 1))
  s1.mapGroups fun _ g =>
    if ((s1.team? g.team).map (·.ctx)) = some c.num then g.wake (fun x => x == .ring k.ring) (fun x => x.pc) else g

/-- A data packet is refused with a cause: the NWRI is over, and the next one's first packet is expected (R301, R305). -/
def State.netRefuse (s : State) (k : Conn) (p : NetPkt) (cause : BitVec 8) : State :=
  let skip := packetsOf (p.mlen.toNat - k.rxGot)
  let s1 := s.setConn { k with rxPsn := p.psn + BitVec.ofNat 24 (max 1 skip), rxGot := 0 }
  { s1 with reply := answerBytes s.udpPort k 0x11 p.psn.toNat cause.toNat false }

/-- A data packet at its target (R301, R302). -/
def netData (p : NetPkt) (last : Bool) (s : State) : Out :=
  match s.conn? p.dconn.toNat with
  | none => .next s
  | some k =>
    match s.ctx? k.ctx with
    | none => .next s
    | some c =>
      if k.failed ∨ k.port ≠ p.port ∨ k.peerAddr ≠ p.addr ∨ !s.netUp.getLsbD p.port ∨ (k.keyed ∧ !p.auth) ∨ 4096 < p.data.length then .next s
      else
        let k0 := { k with ece := k.ece || p.ecn }
        let s0 := s.setConn k0
        if p.psn ≠ k.rxPsn then
          -- out of order: the sender resends; a packet that has been performed is not performed again
          if (p.psn - k.rxPsn).toNat < 2 ^ 23 then .next { s0 with reply := answerBytes s.udpPort k 0x11 k.rxPsn.toNat 0 false } else .next s0
        else if p.world.toNat ≠ k.world ∨ p.realm.toNat ≠ k.realm then
          .next ((s0.logAdd 0x04 (BitVec.ofNat 8 k.world) 0xFFFF ([1] ++ toBytes 2 k.id)).netRefuse k0 p cNameRights)
        else
          let tbar := if p.tbar.toNat % 16 = 0 then s.netCheck c p.tbar.toNat 16 else .error cMisaligned
          match netPieces s c (pageCutsOf p.tva.toNat p.data.length), tbar with
          | .error e, _ => .next (s0.netRefuse k0 p e)
          | _, .error e => .next (s0.netRefuse k0 p e)
          | .ok ls, .ok bl =>
              match (c.rings.find? fun r => r.1 == k.ring).map (·.2) with
              | none => .next { s0 with reply := answerBytes s.udpPort k 0x12 p.psn.toNat 0 false }
              | some q =>
                let (sr, room) := if k.rxGot = 0 then s0.ringSpace c.world q else (s0, true)
                if !room then .next { sr with reply := answerBytes s.udpPort k 0x12 p.psn.toNat 0 false }
                else
                  let o : Origin := { team := none, ctx := c.num, world := c.world, gid := 0, pc := 0, port := 0, slot := 0,
                                      peer := BitVec.ofNat 8 (0xE0 + k.port) }
                  let s1 := (ls.foldl (fun (a : State × List Byte) x =>
                    (a.1.engStore o ioPort 0 x.1 x.2.1 (a.2.take x.2.2), a.2.drop x.2.2)) (sr.fillTlbs c (p.tbar.toNat :: ls.map (·.1)), p.data)).1
                  let loc := BarLoc.dev bl.space bl.pa
                  let at_ := [(bl.space, bl.pa, 16)]
                  let sb := s1.account c.world ioPort false 0 at_
                  let sc := if bl.space = spLocal then sb.account c.world ioPort true 0 at_ else sb
                  let s2 := if p.data = [] then s1 else sc.barPut loc ((sc.barGet loc).arrive p.data.length)
                  let s3 := s2.meter k.world 5 p.data.length
                  let s4 := if last then s3.notify c k q p.imm else s3
                  let s5 := s4.setConn { k0 with ece := false, rxPsn := k.rxPsn + 1,
                                                 rxGot := if last then 0 else k.rxGot + p.data.length }
                  .next { s5 with reply := answerBytes s.udpPort k 0x10 p.psn.toNat 0 k0.ece }
where
  /-- The pieces of a packet's bytes by page. -/
  pageCutsOf (va n : Nat) : List (Nat × Nat) := allCuts 3 va n

/-- NWRI_MIDDLE (R301). -/
def execNwriMiddle (pkt : NetPkt) (s : State) : Out := netData pkt false s
/-- NWRI_LAST (R302). -/
def execNwriLast (pkt : NetPkt) (s : State) : Out := netData pkt true s

end Sys2Proof.Machine
end

