-- ==== Sys2Proof/Machine/Plate.lean ====
section
/-! DEFINITION. The PLATE major (09_plate.md R216, R229, R231, R234 to R236). -/

namespace Sys2Proof.Machine

open Sys2Proof.Bits

/-- A register operand of a PLATE instruction: a g register or %zero (R234). -/
def plateOk (x : Src) : Bool :=
  match x with
  | .g _ => true
  | .zero => true
  | _ => false

/-- The chunks that an operation writes, absolute (R225). -/
def PlateKind.chunks (k : PlateKind) : List Nat :=
  match k with
  | .mdrain ty _ _ dst _ _ count => chunksOf dst (256 * count * memW ty)
  | _ => []

/-- An operation enters the sequencer queue (R216). -/
def State.plateEnter (s : State) (core : Nat) (op : PlateOp) : State :=
  let c := s.core core
  s.setCore core { c with plate := { c.plate with seq := c.plate.seq ++ [op] } }

/-- While the queue has room, operations of parked issuers enter in the order they parked, and their lanes go on past the
instruction, in a new region (R216, R234). At most `n` enter. -/
def plateAdmit (core : Nat) : Nat → State → State
  | 0, s => s
  | n + 1, s =>
    let pl := (s.core core).plate
    match pl.waiters with
    | [] => s
    | w :: r =>
      if 16 ≤ pl.seq.length then s
      else
        let c := s.core core
        let s1 := (s.setCore core { c with plate := { pl with waiters := r } }).plateEnter core w.op
        let key := slotKey core w.port w.slot
        let s2 :=
          match s1.group? key with
          | none => s1
          | some g => s1.setGroup key (g.onLanes w.lanes fun _ x =>
              if x.st = .parked .plateQueue then { x with st := .ready, pc := x.pc + 12, tregion := x.pc + 12 } else x)
        plateAdmit core n s2

/-- Submit an operation, or park on a full queue (R216). At its issue it takes its place in the core's order of issue, in which it reads
what was written before (R231), and a drain registers as a writer of its chunks (R225). -/
def plateSubmit (s : State) (i : Iss) (kind : PlateKind) : State × Eff :=
  let (s1, place) := s.takePlace i.core kind.chunks
  let op : PlateOp := { kind := kind, org := i.origin s, place := place, stage := .waiting, step := 0 }
  let c := s1.core i.core
  if c.plate.seq.length < 16 ∧ c.plate.waiters = [] then (s1.plateEnter i.core op, { i.eff with region := true })
  else
    (s1.setCore i.core { c with plate := { c.plate with
        waiters := c.plate.waiters ++ [{ port := i.port, slot := keySlot i.key, lanes := i.sub, op := op }] } },
     { i.eff with parks := [(i.sub, .plateQueue)] })

/-- Issue a PLATE instruction: a pending error of an earlier MLOOP comes first, and then it does nothing else (R229). -/
def plateIssue (s : State) (f : FmtW) (bad ok : Bool) (body : Iss → State → State × Eff) : Out :=
  issueMem s (headW f false bad []) false (fun _ => ok) fun i s =>
    match i.g.plateErr with
    | some e =>
      (s.updGroup i fun g => { g with plateErr := none },
       { i.eff with traps := trapSet i.sub e.cause (BitVec.ofNat 64 e.step) e.pc 7 })
    | none => body i s

/-- A trap of the sub-group (R236). -/
def plateTrap (s : State) (i : Iss) (cause : BitVec 8) (addr : Nat) : State × Eff :=
  (s, { i.eff with traps := trapSet i.sub cause (BitVec.ofNat 64 addr) 0 7 })

/-- ENGR (R218, R236). -/
def execEngr (f : FmtW) (s : State) : Out :=
  let a := src10 f.m.a
  let gq4 := f.m.ty == 14
  plateIssue s f (!(f.m.ty == 14 || f.m.ty == 0)) (plateOk a) fun i s =>
    let o := (i.uni a).toNat
    let size := if gq4 then 34816 else 66560
    if o % 512 ≠ 0 then plateTrap s i cMisaligned o
    else if i.t.ringStart < o + size then plateTrap s i cScratchRange o
    else plateSubmit s i (.engr gq4 (i.t.base + o))

/-- The first value that is not a multiple of its unit. -/
def firstOff : List (Nat × Nat) → Option Nat
  | [] => none
  | (x, m) :: r => if x % m ≠ 0 then some x else firstOff r

/-- MLOOP (R220, R236, Table 9.7). -/
def execMloop (f : FmtW) (s : State) : Out :=
  let sa := src10 f.m.a
  let sb := src10 f.m.b
  let sc := src10 f.m.c
  plateIssue s f (decide (4 ≤ f.aux.toNat)) (plateOk sa && plateOk sb && plateOk sc) fun i s =>
    let a := (i.uni sa).toNat
    let b := (i.uni sb).toNat
    let c := (i.uni sc).toNat
    let mbase := fld a 0 20
    let xbase := fld a 20 20
    let minc := fld b 0 20
    let xinc := fld b 20 20
    let steps := fld c 0 16
    if fld a 40 24 ≠ 0 ∨ fld b 40 24 ≠ 0 ∨ fld c 30 34 ≠ 0 ∨ fld c 22 2 ≠ 0 ∨ steps = 0 then plateTrap s i cPlateFormat 0
    else
      match firstOff [(mbase, 256), (minc, 256), (xbase, 8), (xinc, 8)] with
      | some x => plateTrap s i cMisaligned x
      | none =>
        if i.t.ringStart < mbase + (steps - 1) * minc + 2048 then plateTrap s i cScratchRange mbase
        else if i.t.ringStart < xbase + (steps - 1) * xinc + 32 then plateTrap s i cScratchRange xbase
        else
          plateSubmit s i
            (.mloop f.aux.toNat (i.t.base + mbase) (i.t.base + xbase) minc xinc (fld c 24 6) (fld c 16 6) steps)

/-- The rows of MDRAIN and MCLR: FIRST and COUNT, none where they are refused (Table 9.7, R236). -/
def rowsField (b : Nat) : Option (Nat × Nat) :=
  if fld b 15 49 ≠ 0 ∨ fld b 6 2 ≠ 0 ∨ fld b 8 7 = 0 ∨ 64 < fld b 0 6 + fld b 8 7 then none else some (fld b 0 6, fld b 8 7)

/-- MDRAIN (R225, R236). -/
def execMdrain (f : FmtW) (s : State) : Out :=
  let sa := src10 f.m.a
  let sb := src10 f.m.b
  let sc := src10 f.m.c
  let ty := f.m.ty.toNat
  let x := f.aux.toNat
  let barFits := plateOk sc || (sc.isImm && barOk sc false)
  plateIssue s f (!(ty == 10 || ty == 8 || ty == 9 || ty == 12) || decide (6 ≤ x % 8))
    (plateOk sa && plateOk sb && barFits) fun i s =>
    let ba := barAddr i sc
    let b := (i.uni sb).toNat
    let dst := (i.uni sa).toNat
    if ba % 16 ≠ 0 then plateTrap s i cMisaligned ba
    else if i.t.ringStart < ba + 16 then plateTrap s i cScratchRange ba
    else
      match rowsField b with
      | none => plateTrap s i cPlateFormat b
      | some (first, count) =>
        if dst % 256 ≠ 0 then plateTrap s i cMisaligned dst
        else if i.t.ringStart < dst + 256 * count * memW ty then plateTrap s i cScratchRange dst
        else plateSubmit s i (.mdrain ty (x % 8) (bit x 3) (i.t.base + dst) ba first count)

/-- MCLR (R224, R236). -/
def execMclr (f : FmtW) (s : State) : Out :=
  let sb := src10 f.m.b
  plateIssue s f false (plateOk sb) fun i s =>
    let b := (i.uni sb).toNat
    match rowsField b with
    | none => plateTrap s i cPlateFormat b
    | some (first, count) => plateSubmit s i (.mclr first count)

/-- An engrave is in progress (Table 9.8). -/
def Plate.engraving (p : Plate) : Bool :=
  p.seq.any fun o =>
    match o.stage with
    | .engraving _ => true
    | _ => false

/-- The bank at the front, and the one at the back (R215). -/
def Plate.frontBank (p : Plate) : CellBank := if p.front then p.bank1 else p.bank0
def Plate.backBank (p : Plate) : CellBank := if p.front then p.bank0 else p.bank1

/-- The status word (Table 9.8). -/
def Plate.status (p : Plate) : BitVec 64 :=
  let ff := match p.frontBank.fmt with
    | .empty => 0
    | .gq4 => 1
    | .s8 => 2
  BitVec.ofNat 64 (p.seq.length % 32 * 2 ^ 8 + (if p.front then 2 ^ 18 else 0) + (if p.engraving then 2 ^ 19 else 0) +
    ff * 2 ^ 20 + fld p.sticky.toNat 22 5 * 2 ^ 22 + popc 64 p.invalid.toNat * 2 ^ 32 +
    (8 - p.bank0.retired.length) * 2 ^ 40 + (8 - p.bank1.retired.length) * 2 ^ 44)

/-- The number of the last operation in the queue, and one: an MSTAT waits for the operations before it (R232). Operations enter in the
order of their places. -/
def Plate.last (p : Plate) : Nat := ((p.seq.map fun o => o.place + 1).max?).getD 0

/-- MSTAT (R232, R235): with WAIT the sub-group parks until every operation queued before it has finished, and is marked to
read and complete when it wakes. Lanes that stand at it and have not waited stay there, and have not completed it. -/
def execMstat (f : FmtW) (s : State) : Out :=
  let x := f.aux.toNat
  let clr := bit x 1
  plateIssue s f (decide (4 ≤ x)) (dgOk f.m.d.toNat) fun i s =>
    let c := s.core i.core
    let back := (laneSet fun l => (i.g.lane l).ret) &&& i.sub
    if bit x 0 ∧ back = 0 ∧ c.plate.seq ≠ [] then (s, { i.eff with parks := [(i.sub, .plateIdle c.plate.last)] })
    else
      let s1 := if clr then s.setCore i.core { c with plate := { c.plate with sticky := 0 } } else s
      let s2 := s1.updGroup i fun g => (g.gset f.m.d.toNat c.plate.status).await (.g f.m.d.toNat) i.sub
      (s2, { i.eff with region := clr, left := if back = 0 then 0 else i.sub &&& ~~~ back })

end Sys2Proof.Machine
end

