-- ==== Sys2Proof/Machine/Ring.lean ====
section
/-! DEFINITION. The command and completion rings in host memory (16_host_security_bringup.md R403, R404). -/

namespace Sys2Proof.Machine

open Sys2Proof.Bits

/-- Entries of the command ring: 2^LOG2N. -/
def HostIf.entries (h : HostIf) : Nat := 2 ^ (h.cqBase.toNat % 16)

/-- The command at CQHEAD. -/
def State.command (s : State) : List Byte :=
  s.readBytes spHost (s.host.cqBase.toNat / 4096 * 4096 + 64 * (s.host.cqHead.toNat % s.host.entries)) 64

/-- Parameter `n` of a command. -/
def cmdP (b : List Byte) (n : Nat) : Nat := pk b (8 + 8 * n) 8

/-- Status codes (Table 16.4). -/
abbrev stOk : Nat := 0
abbrev stBadParam : Nat := 1
abbrev stBusy : Nat := 2
abbrev stNotPermitted : Nat := 3
abbrev stNoResource : Nat := 4
abbrev stEntropyFailed : Nat := 5

/-- The firmware team may begin the command at CQHEAD: one is pending, none is in progress, and its completion overwrites
none that the driver has not consumed (R404). -/
def State.cmdDue (s : State) : Bool :=
  s.ready && s.host.cqHead != s.host.tail && s.host.busy.isNone &&
    decide ((s.host.cqHead - s.host.cplHead).toNat < s.host.entries)

/-- The completion of the command at CQHEAD is written, and CQHEAD goes on; PHASE flips on each wrap (R403, R404). -/
def State.complete (s : State) (status result : Nat) : State :=
  let h := s.host
  let k := h.cqHead.toNat % h.entries
  let tag := (h.busy.map fun b => toBytes 4 b.1.toNat).getD ((s.command.drop 4).take 4)
  let bytes := tag ++ [BitVec.ofNat 8 status, 0, 0, if h.phase then 1 else 0] ++ toBytes 8 result
  let s1 := s.writeBytes spHost (h.cplBase.toNat / 4096 * 4096 + 16 * k) bytes
  { s1 with host := { h with cqHead := h.cqHead + 1, busy := none,
                             phase := if k + 1 = h.entries then !h.phase else h.phase } }

end Sys2Proof.Machine
end

