-- ==== Sys2Proof/Machine/Sys.lean ====
section
/-! DEFINITION. The SYS major (15_traps_and_preemption.md R392 to R401; control registers: 06_registers_and_scratchpad.md
R139). -/

namespace Sys2Proof.Machine

open Sys2Proof.Bits

/-! ## TRAP, BKPT, ECALL and TRET -/

/-- A trap of the active lanes with TINFO the code (R393). -/
def softTrap (s : State) (f : FmtW) (cause : BitVec 8) : Out :=
  issue s (headW f false false []) (fun _ => true) fun i s =>
    (s, { i.eff with traps := trapSet (i.act f.m.g.toNat) cause 0 (f.imm.setWidth 64) 7 })

/-- TRAP (R393). -/
def execTrap (f : FmtW) (s : State) : Out := softTrap s f cSoftwareTrap
/-- BKPT (R393). -/
def execBkpt (f : FmtW) (s : State) : Out := softTrap s f cBreakpoint

/-- The issuing group is in service mode, and in a handler (R372). -/
def State.inService (s : State) : Bool := (s.iss?.map fun i => i.t.service).getD false
def State.inHandler (s : State) : Bool := (s.iss?.map fun i => decide (i.g.tmask ≠ 0)).getD false

/-- ECALL (R393): its entry is posted whatever TRAPV holds, TREGION moves past it, and the lanes wait TRAPPED. -/
def execEcall (f : FmtW) (s : State) : Out :=
  let a := src10 f.m.a
  issueMem s (headW f false (!f.m.rb || s.inService) []) false (fun _ => a.isG) fun i s =>
    let p : Posting :=
      { world := s.teamWorld i.t, ctx := i.t.ctx, va := i.uni a, priv := decide (i.g.tmask ≠ 0), port := i.port,
        slot := keySlot i.key, core := i.core, access := 6, cause := cSoftwareTrap, gid := i.g.gid, lanes := i.sub,
        svc := false, tpc := i.pci, wait := none }
    ((s.updGroup i fun g => g.onLanes i.sub fun _ x =>
      { x with st := .trapped true, pc := i.pci, tcause := cSoftwareTrap, tpc := i.pci, taddr := 0,
               tinfo := BitVec.ofNat 64 (2 ^ 63) + f.imm.setWidth 64, tregion := i.run.pc + 12, skip := false, ret := false, kept := none, seen := 0,
               since := i.now }).addPosts [p],
     { i.eff with left := i.sub })

/-- A group whose lanes are each EXITED or marked saved (R387). -/
def Group.allSaved (g : Group) : Bool :=
  !g.allExited && lanes32.all fun l => (g.lane l).st == .exited || (g.lane l).saved

/-- A group whose lanes are all saved leaves its slot (R387): the team keeps its budget and its exited lanes, the bound roles
stay with it, and a pending Plate error is recorded (R229). -/
def State.groupSaved (s : State) (key : Nat) : State :=
  match s.group? key with
  | none => s
  | some g =>
    match s.team? g.team with
    | none => s
    | some t =>
      if g.allSaved then
        let t1 := { t with savedGrp := t.savedGrp ++ [(gidGroup g.gid, g.curBudget, g.exitedLanes, g.cv)] }
        (((s.recordPlateErr t g false).setTeam t1).vacate t1 key g).checkBarriers t.tid
      else s

/-- TRET (R394). -/
def tret (s : State) (f : FmtW) (action : Nat) : Out :=
  let h := headW f false (!f.m.rb || decide (4 ≤ f.aux.toNat) || (s.inService && !s.inHandler)) []
  let out := issueMem s { h with priv := .priv } false (fun _ => true) fun i s =>
    let m := i.act f.m.g.toNat &&& i.g.tmask
    if action = 3 ∧ (lanesOf m).any fun l => !(i.g.lane l).bySave then
      (s, { i.eff with traps := trapSet i.sub cIllegalOperand 0 0 7 })
    else (s.updGroup i fun g => g.leaveHandler m action, { i.eff with left := m })
  match out, s.iss? with
  | .next s1, some i => .next ((if action = 2 then s1.checkBarriers i.t.tid else s1).groupSaved i.key)
  | x, _ => x

/-- TRET.retry (R394). -/
def execTretRetry (f : FmtW) (s : State) : Out := tret s f 0
/-- TRET.skip (R394). -/
def execTretSkip (f : FmtW) (s : State) : Out := tret s f 1
/-- TRET.exit (R394). -/
def execTretExit (f : FmtW) (s : State) : Out := tret s f 2
/-- TRET.save (R394, R387). -/
def execTretSave (f : FmtW) (s : State) : Out := tret s f 3

/-! ## Control registers (R395, Table 6.2) -/

/-- The number of a control register that Table 6.2 lists, if IMM20 gives one. -/
def csrNum (f : FmtW) : Option Nat :=
  let n := f.imm.toNat
  if [0x000, 0x001, 0x002, 0x003, 0x010, 0x011, 0x012, 0x013, 0x014, 0x020, 0x021].contains n then some n else none

/-- Registers held for each lane. -/
def csrLane (n : Nat) : Bool := decide (0x010 ≤ n) && decide (n ≤ 0x014)

/-- Registers with access ROP. -/
def csrRop (n : Nat) : Bool := decide (0x010 ≤ n)

/-- A per-lane register's value. -/
def Lane.csr (x : Lane) (n : Nat) : BitVec 64 :=
  match n with
  | 0x010 => x.tcause.setWidth 64
  | 0x011 => x.tpc
  | 0x012 => x.taddr
  | 0x013 => x.tinfo
  | _ => x.tregion

/-- A per-lane register written. -/
def Lane.csrSet (x : Lane) (n : Nat) (v : BitVec 64) : Lane :=
  match n with
  | 0x010 => { x with tcause := v.setWidth 8 }
  | 0x011 => { x with tpc := v }
  | 0x012 => { x with taddr := v }
  | 0x013 => { x with tinfo := v }
  | _ => { x with tregion := v }

/-- A group or device register's value. -/
def csrGroup (i : Iss) (cycle : BitVec 64) (n : Nat) : BitVec 64 :=
  match n with
  | 0x000 => i.g.fmode.setWidth 64
  | 0x001 => i.g.fflags.setWidth 64
  | 0x002 => cycle
  | 0x003 => i.g.gid
  | 0x020 => i.g.tmask.setWidth 64
  | _ => i.g.trapv

/-- CSRD (R395). One of FFLAGS takes the flags of the instructions issued before it, and waits for more (R169). -/
def execCsrd (f : FmtW) (s : State) : Out :=
  let n := csrNum f
  let lane := (n.map csrLane).getD false
  let d := f.m.d.toNat
  let h := headW f lane false []
  issueMem s { h with priv := if (n.map csrRop).getD false then .priv else .user } false
    (fun i => n.isSome && if lane then dvOk d i.g.budget else dgOk d) fun i s =>
      let k := n.getD 0
      if lane then
        let m := i.act f.m.g.toNat
        let (g, e) := writeDst i.g i.eff d f.m.nw m fun l => (i.g.lane l).csr k
        (s.setGroup i.key (if f.m.nw then g else g.await (.v d) m), e)
      else
        let s1 := lateG s i d (csrGroup i s.cycle k)
        (if k = 1 then s1.updGroup i fun g =>
          { g with csrd := g.csrd ++ [{ reg := d, late := 0, seed := s.tick, next := 0, shut := false }] } else s1, i.eff)

/-- CSWR (R395; access: R7, R139, R168 to R170). -/
def execCswr (f : FmtW) (s : State) : Out :=
  let n := csrNum f
  let lane := (n.map csrLane).getD false
  let b := src10 f.m.b
  let h := headW f false false (if lane then [b] else [])
  issueMem s { h with priv := if (n.map fun k => csrRop k || k == 0).getD false then .priv else .user } false
    (fun i => n.isSome && if lane then srcsOk i [b] else b.uniform) fun i s =>
      let k := n.getD 0
      if lane then
        (s.updGroup i fun g => g.onLanes (i.act f.m.g.toNat) fun l x => x.csrSet k (i.read b l 15), i.eff)
      else
        let v := i.uni b
        match k with
        | 0x000 =>
          if fmodeOk v.toNat then
            (s.updGroup i fun g =>
              { g with fmode := BitVec.ofNat 32 (g.fmode.toNat % 256 + fld v.toNat 8 6 * 256),
                       fmodeNext := some (BitVec.ofNat 32 (v.toNat % 32)) }, i.eff)
          else (s, { i.eff with traps := trapSet i.sub cIllegalOperand 0 0 7 })
        | 0x001 => (s.updGroup i fun g => { g with fflags := g.fflags &&& ~~~ (v.setWidth 32) }, i.eff)
        | 0x020 => (s.updGroup i fun g => { g with tmask := v.setWidth 32 }, i.eff)
        | 0x021 => (s.updGroup i fun g => { g with trapv := v &&& ~~~ 3 }, i.eff)
        | _ => (s, i.eff)

/-! ## TSTATE (R396) -/

/-- The item of TSTATE: 0x00 to 0x19. -/
def tstateOk (f : FmtW) : Bool := decide (f.imm.toNat ≤ 0x19)

/-- TSTATE.rd. -/
def execTstateRd (f : FmtW) (s : State) : Out :=
  let h := headW f false false []
  issueMem s { h with priv := .priv } false (fun _ => tstateOk f && dgOk f.m.d.toNat) fun i s =>
    let n := f.imm.toNat
    let x : BitVec 64 :=
      if n < 8 then i.g.cvget n
      else if n < 16 then (i.g.jget (n - 8)).setWidth 64
      else if n < 24 then (i.g.kget (n - 16)).setWidth 64
      else if n = 24 then BitVec.ofNat 64 i.g.curBudget
      else i.g.exitedLanes.setWidth 64
    (lateG s i f.m.d.toNat x, i.eff)

/-- The bits of a role register that are not reserved (Table 13.8). -/
def cvBits : BitVec 64 := 0x8FFFFFFFFFFFFFFF

/-- TSTATE.wr; the reserved bits of a role register ignore it (R6). -/
def execTstateWr (f : FmtW) (s : State) : Out :=
  let b := src10 f.m.b
  let h := headW f false false []
  issueMem s { h with priv := .priv } false (fun _ => decide (f.imm.toNat < 0x18) && b.isG) fun i s =>
    let n := f.imm.toNat
    let v := i.uni b
    (s.updGroup i fun g =>
      if n < 8 then g.cvset n (v &&& cvBits) else if n < 16 then g.jset (n - 8) (v.setWidth 32) else g.kset (n - 16) (v.setWidth 32), i.eff)

/-! ## TLBINV and POTSET (R397, R398) -/

/-- TLBINV: the matching entries leave every TLB, of the walks in flight none installs its result, and the sub-group parks until they
have finished (R397). -/
def tlbinv (s : State) (f : FmtW) (kind : Nat) : Out :=
  let a := src10 f.m.a
  let c := src10 f.m.c
  let h := headW f false (!f.m.rb || decide (fld f.aux.toNat 0 2 = 3)) []
  issueMem s { h with priv := .service } true (fun _ => a.isG && c.isG) fun i s =>
    let va := (i.uni a).toNat
    let asid := (i.uni c).toNat % 65536
    let gone (e : TlbEntry) : Bool :=
      match kind with
      | 0 => e.asid == asid && e.va == va / 2 ^ e.size * 2 ^ e.size
      | 1 => e.asid == asid
      | _ => true
    let s1 := s.acquire i.core 2 true
    ({ s1 with tlb := s1.tlb.filter (fun e => !gone e),
               walks := s1.walks.map fun w => if w.leaf.isSome then { w with install := false } else w }, { i.eff with parks := [(i.sub, .tlbinv)] })

/-- TLBINV.page. -/
def execTlbinvPage (f : FmtW) (s : State) : Out := tlbinv s f 0
/-- TLBINV.asid. -/
def execTlbinvAsid (f : FmtW) (s : State) : Out := tlbinv s f 1
/-- TLBINV.all. -/
def execTlbinvAll (f : FmtW) (s : State) : Out := tlbinv s f 2

/-- The LLC lines of a 64 KiB page under a world are written back and invalidated (R85). -/
def State.llcDropPage (s : State) (world pa : Nat) : State :=
  (s.llc.filter fun l => l.world == world && l.line / 512 == pa / 65536).foldl (fun a l => a.llcDrop l) s

/-- POTSET (R398). -/
def execPotset (f : FmtW) (s : State) : Out :=
  let a := src10 f.m.a
  let b := src10 f.m.b
  let h := headW f false (!f.m.rb) []
  issueMem s { h with priv := .service } false (fun _ => a.isG && b.isG) fun i s =>
    let pa := (i.uni a).toNat
    let e := (i.uni b).toNat % 2 ^ 32
    let old := potEntry s.mem pa
    let own := s.teamWorld i.t
    let trap (c : BitVec 8) : State × Eff := (s, { i.eff with traps := trapSet i.sub c (i.uni a) 0 7 })
    if pa % 65536 ≠ 0 then trap cMisaligned
    else if !isMemPa pa then trap cPageProtection
    else if fld e 20 12 ≠ 0 ∨ fld e 12 4 ≠ 0 ∨ fld e 0 8 ≠ 0 ∨ 3 < fld e 8 4 then trap cIllegalOperand
    else if s.conf ∧ !i.t.firmware then trap cPrivileged
    else if !i.t.firmware ∧ ((potState old ≠ 0 ∧ potOwner old ≠ own) ∨ fld e 16 4 ≠ own ∨ 2 < fld e 8 4) then trap cOwnership
    else
      let s1 := s.llcDropPage (potOwner old) pa
      (s1.setBytes spLocal (potWrite s1.mem pa e), { i.eff with parks := [(i.sub, .potset (pa / 65536))] })

/-! ## HALT and LRESUME (R399, R400) -/

/-- The resident group that a GID and an ASID name. -/
def State.findGid (s : State) (gid : BitVec 64) (asid : Nat) : Option (Nat × Group) :=
  s.groups.find? fun p => p.2.gid == gid &&
    (((s.team? p.2.team).bind fun t => s.ctx? t.ctx).map (·.asid)) == some asid

/-- HALT. -/
def execHalt (f : FmtW) (s : State) : Out :=
  let a := src10 f.m.a
  let c := src10 f.m.c
  let h := headW f false false []
  issueMem s { h with priv := .service } false (fun _ => a.isG && c.isG && dgOk f.m.d.toNat) fun i s =>
    match s.findGid (i.uni a) ((i.uni c).toNat % 65536) with
    | some (k, g) =>
      if g.halted then (lateG s i f.m.d.toNat 0, i.eff)
      else (lateG (s.setGroup k { g with haltReq := true }) i f.m.d.toNat 1, i.eff)
    | none => (lateG s i f.m.d.toNat 0, i.eff)

/-- The waits on a fault of the engine operations of the contexts that satisfy `p` (R129, R130, R250, R339). -/
def State.engineWaits (s : State) (p : Nat → Bool) : List Nat :=
  let ofPkt (q : Packet) : List Nat := if p q.org.ctx then q.stall.toList else []
  (s.cores.flatMap fun c =>
    (c.active.flatMap fun x => if p x.pkt.org.ctx then x.stall.toList else []) ++ c.queue.flatMap ofPkt ++
      c.search.flatMap ofPkt ++ c.net.flatMap ofPkt) ++
  (s.dogs.flatMap fun d => (d.inbound ++ d.admission ++ d.active).flatMap fun q =>
    if p q.pkt.org.ctx then q.stall.toList else []) ++
  (s.shared.flatMap fun q =>
    match q with
    | some x => if p x.ctx then x.stall.toList else []
    | none => [])

/-- LRESUME signals the engine operations of an ASID that wait on a fault (R400): each may retry once; barrier updates
retry at once. -/
def State.signal (s : State) (asid : Nat) : State :=
  let mine (n : Nat) : Bool := ((s.ctx? n).map (·.asid)) == some asid
  let s1 := { s with signalled := (s.signalled ++ s.engineWaits mine).eraseDups,
                     barWaits := s.barWaits.filter fun w => !mine w.org.ctx }
  (s.barWaits.filter fun w => mine w.org.ctx).foldl (fun a w =>
    a.devUpdate w.org w.core w.search w.va w.bytes w.err (some w.stall)) s1

/-- A group leaves HALTED; the deadlines of its context count again when no group of it is halted (R383). -/
def State.unhalt (s : State) (key : Nat) (g : Group) : State :=
  (s.setGroup key { g with halted := false }).restartDeadline (((s.team? g.team).map (·.ctx)).getD 0)

/-- The lanes of a group that an action of LRESUME changes (R400). -/
def Group.resumes (g : Group) (m : LaneSet) (action : Nat) : LaneSet :=
  m &&& ~~~ g.tmask &&& g.lanesIn fun x =>
    match x.st with
    | .trapped _ => action != 0
    | .replaying => action == 0 || action == 3
    | _ => false

/-- The action of LRESUME on a group: how many lanes changed, and the state after it. -/
def State.resumeLanes (s : State) (key : Nat) (g : Group) (m : LaneSet) (action : Nat) : Nat × State :=
  let r := g.resumes m action
  let n := (lanesOf r).length
  let ready (pc : Lane → BitVec 64) (skip : Bool) : State :=
    s.setGroup key (g.onLanes r fun _ x => { x with st := .ready, pc := pc x, skip := skip, saved := false })
  match action with
  | 0 => (n, ready (·.pc) false)
  | 1 => (n, ready (·.tpc) false)
  | 2 => (n, ready (·.tpc) true)
  | _ =>
    let ctx := ((s.team? g.team).map (·.ctx)).getD 0
    let s1 := (lanesOf r).foldl (fun a l =>
      let x := g.lane l
      a.errRecord ctx x.taddr 0xFF x.tcause 0 false false x.tpc (some g.gid)) s
    let g1 := ((s1.group? key).getD g).exitLanes r
    let s2 := s1.setGroup key g1
    (n, if g1.allExited then s2.groupExit key else if n = 0 then s2 else s2.checkBarriers g.team)

/-- LRESUME (R400). -/
def lresume (s : State) (f : FmtW) (action : Nat) : Out :=
  let a := src10 f.m.a
  let b := src10 f.m.b
  let c := src10 f.m.c
  let h := headW f false (decide (5 ≤ f.aux.toNat)) []
  issueMem s { h with priv := .service } true
    (fun _ => a.isG && (action == 4 || b.isG) && c.isG && dgOk f.m.d.toNat) fun i s =>
      let asid := (i.uni c).toNat % 65536
      let s1 := s.signal asid
      match s1.findGid (i.uni a) asid with
      | none => (lateG s1 i f.m.d.toNat 0, i.eff)
      | some (k, g) =>
        if action = 4 then
          if g.halted then (lateG (s1.unhalt k g) i f.m.d.toNat 1, i.eff) else (lateG s1 i f.m.d.toNat 0, i.eff)
        else
          let (n, s2) := s1.resumeLanes k g ((i.uni b).setWidth 32) action
          (lateG s2 i f.m.d.toNat (BitVec.ofNat 64 n), i.eff)

/-- LRESUME.replay. -/
def execLresumeReplay (f : FmtW) (s : State) : Out := lresume s f 0
/-- LRESUME.retry. -/
def execLresumeRetry (f : FmtW) (s : State) : Out := lresume s f 1
/-- LRESUME.skip. -/
def execLresumeSkip (f : FmtW) (s : State) : Out := lresume s f 2
/-- LRESUME.kill. -/
def execLresumeKill (f : FmtW) (s : State) : Out := lresume s f 3
/-- LRESUME.run. -/
def execLresumeRun (f : FmtW) (s : State) : Out := lresume s f 4

end Sys2Proof.Machine
end

