-- ==== Sys2Proof/Machine/Team.lean ====
section
/-! DEFINITION. Teams and contexts as they end and leave the device: quiescence (03_names_and_swizzling.md R59), the end of a
team (14_execution_and_scheduling.md R345), pre-emption, saving and forced reset (15_traps_and_preemption.md R384 to
R389), and the fault queue (R377 to R381). -/

namespace Sys2Proof.Machine

open Sys2Proof.Bits

/-! ## Quiescence and the end of a pre-emption -/

/-- A context is quiescent when none of its teams is resident or saved and none of its grids waits to launch (R59). -/
def State.quiescent (s : State) (c : Context) : Bool :=
  !(s.teams.any fun t => t.ctx == c.num) && decide (c.savedTeams = []) &&
    !(s.queues.any fun q => q.ctx == some c.num && decide (q.recs ≠ []))

/-- The actions of a quiescent point, where one has been reached. -/
def State.quiesce (s : State) (ctx : Nat) : State :=
  match s.ctx? ctx with
  | none => s
  | some c => if s.quiescent c then s.atQuiescence c else s

/-- A pre-emption ends when no team of the context is resident (Table 15.7); a PREEMPT command that waits for it completes
(R403). -/
def State.preemptDone (s : State) (ctx : Nat) : State :=
  match s.ctx? ctx with
  | none => s
  | some c =>
    if (c.stage = .drain ∨ c.stage = .save) ∧ !(s.teams.any fun t => t.ctx == ctx) then
      let s1 := s.setCtx { c with stage := .saved, waiting := false }
      if c.waiting then s1.complete stOk (if c.savedTeams = [] then 0 else 1) else s1
    else s

/-! ## Engine work of a team -/

/-- A search packet whose result buffer lies in scratchpad, and one whose query vector does (Table 10.2). -/
def resultInSpad (b : List Byte) : Bool := !bit (pk b 0 8) 10
def queryInSpad (b : List Byte) : Bool := bit (pk b 0 8) 9

/-- Engine work of a team that its save waits for (R119, R233): packets submitted and not finished, and Plate operations. -/
def State.engineBusy (s : State) (t : Team) : Bool :=
  let mine (o : Origin) : Bool := o.team == some t.tid
  let c := s.core t.core
  (t.ring.any fun r => match r with
    | .submitted _ _ => true
    | _ => false) ||
  (c.queue.any fun p => mine p.org && pkKind p.bytes != 0x10) || (c.active.any fun x => mine x.pkt.org) ||
  (c.net.any fun p => mine p.org) || (s.conns.any fun k => k.sends.any fun n => mine n.pkt.org) ||
  (c.plate.seq.any fun o => mine o.org) || (s.barWaits.any fun w => mine w.org) ||
  s.remotes.any fun r => mine r.org && match r.kind with
    | .update _ _ _ _ => true
    | .copy _ => true
    | _ => false

/-- Engine work, a packet that the request engine still holds, or an access that is neither complete nor recorded (R281, R345). -/
def State.teamBusy (s : State) (t : Team) : Bool :=
  s.engineBusy t || ((s.core t.core).queue.any fun p => p.org.team == some t.tid) ||
    s.remotes.any fun r => r.org.team == some t.tid && !r.ready

/-- Queries of a team that a save ends first (R252): those with scratchpad results, and those with a scratchpad query vector
that are not accepted yet. -/
def State.saveQueries (s : State) (t : Team) : Bool :=
  let mine (p : Packet) : Bool := p.org.team == some t.tid && pkKind p.bytes == 0x10
  let early (p : Packet) : Bool := mine p && (resultInSpad p.bytes || queryInSpad p.bytes)
  let c := s.core t.core
  c.queue.any early || c.search.any early ||
    s.dogs.any fun d => (d.inbound ++ d.admission).any (fun q => early q.pkt) ||
      d.active.any fun q => mine q.pkt && resultInSpad q.pkt.bytes

/-- Those queries are marked to end CANCELLED (R252). -/
def State.cancelQueries (s : State) (t : Team) : State :=
  let mine (q : Query) : Bool := q.pkt.org.team == some t.tid
  { s with dogs := s.dogs.map fun d =>
      let early (q : Query) : Query :=
        if mine q && (resultInSpad q.pkt.bytes || queryInSpad q.pkt.bytes) then { q with cancel := true } else q
      { d with inbound := d.inbound.map early, admission := d.admission.map early,
               active := d.active.map fun q => if mine q && resultInSpad q.pkt.bytes then { q with cancel := true } else q } }

/-- Queries of a team that still target its scratchpad, by their result, their barrier or a query vector that has not been
read, are dropped when its allocation is freed (R252). -/
def State.dropQueries (s : State) (t : Team) : State :=
  let keep (p : Packet) (read : Bool) : Bool :=
    !(p.org.team == some t.tid && pkKind p.bytes == 0x10 &&
      (resultInSpad p.bytes || !pkBdev p.bytes || (queryInSpad p.bytes && !read)))
  let c := s.core t.core
  let s1 := s.setCore t.core { c with
    queue := c.queue.filter (fun p => keep p false), search := c.search.filter (fun p => keep p false),
    writers := c.writers.filter fun w => !(w.chunks.any fun k => decide (t.base ≤ 512 * k) && decide (512 * k < t.base + t.size)) }
  let ok (q : Query) : Bool := keep q.pkt (decide (q.qvec ≠ []))
  { s1 with dogs := s1.dogs.map fun d =>
      { d with inbound := d.inbound.filter ok, admission := d.admission.filter ok, active := d.active.filter ok } }

/-! ## The end of a team (R345) -/

/-- JOIN's decrement (R345): an atomic release of −1 in the team's world. None where it must wait for a path. -/
def State.joinDec (s : State) (t : Team) (c : Context) : Option State :=
  let va := recJoin t.record
  let w := s.teamWorld t
  let gid := mkGid t.seq t.index 0 0
  let lost (s : State) (peer : Nat) (cause : BitVec 8) : State :=
    s.errRecord t.ctx (BitVec.ofNat 64 va) (BitVec.ofNat 8 peer) cause 0 true false 0 (some gid)
  if va = 0 then some s
  else
    match s.resolve c c.priv .atomic va 8 with
    | .error e => some (lost s 0xFF e)
    | .ok l =>
      let at_ := [(l.space, l.pa, 8)]
      let s0 := (s.fillTlbs c [va]).account w ioPort false 0 at_
      match s.reach w c.priv .atomic l 8 with
      | .ok =>
        if decide (2 ≤ l.space) && s.behind w (l.space - 2) then none
        else
          let x := s0.readNat l.space l.pa 8
          let s1 := if l.space = spLocal then s0.account w ioPort true 0 at_ else s0
          some ((s1.writeNat l.space l.pa 8 ((x + 2 ^ 64 - 1) % 2 ^ 64)).noteRelease t.core true l)
      | .refused e => some (lost s0 (peerByte l.space) (if l.space = spHost then cRemoteLoadFailed else e))
      | .noPath => if s.pathLost (l.space - 2) then some (lost s (peerByte l.space) cRemoteLoadFailed) else none
      | .doubt => none

/-- TEAM_END (R345): once the last group has exited and the team's accesses and engine work are done, its queries are
dropped, its allocation is freed and JOIN is decremented. While JOIN waits for a path the team holds nothing more. -/
def execTeamEnd (team : Nat) (s : State) : Out :=
  match s.team? team with
  | none => .fault .noSuchUnit
  | some t =>
    if t.groups ≠ [] ∨ t.savedGrp ≠ [] ∨ s.teamBusy t then .next s
    else
      match s.ctx? t.ctx with
      | none => .fault .noSuchUnit
      | some c =>
        let s0 := (s.dropQueries t).setTeam { t with scr := 0 }
        match s0.joinDec t c with
        | none => .next s0
        | some s1 =>
          let s2 := { s1 with teams := s1.teams.filter fun x => x.tid != team }
          let s3 :=
            match t.saveRec, s2.ctx? t.ctx with
            | some k, some c => s2.setCtx { c with recs := c.recs.filter fun r => r.1 != k }
            | _, _ => s2
          .next ((s3.preemptDone t.ctx).quiesce t.ctx)

/-! ## Forced reset (R389) -/

/-- An outstanding store of a discarded team is either performed or not; the choice is free (R389). -/
def State.dropStore (s : State) (r : Remote) : State :=
  match r.kind with
  | .store w ps _ rel =>
    let (b, s1) := s.freeBit
    if b ∧ (s1.storeRefused r w ps).isNone then s1.peerWrite r.core r.peer rel ps else s1
  | _ => s

/-- The CLEAVEs of a discarded team's groups, resident and saved (R322, R389). -/
def State.leaveTeam (s : State) (t : Team) : State :=
  let role (i : Nat) : Nat := ((recGroups t.record).getD i (0, 0)).1
  let s1 := (s.teamGroups t).foldl (fun a p => if p.2.allExited then a else a.leaveRoles t p.1 p.2.gid p.2.cv true) s
  t.savedGrp.foldl (fun a x => a.leaveRoles t (slotKey t.core 0 0) (mkGid t.seq t.index x.1 (role x.1)) x.2.2.2 true) s1

/-- Operations have left a core's sequencer: parked issuers enter, and the MSTATs that waited behind them go on where no operation queued
before them remains (R216, R232). -/
def State.plateSettle (s : State) (core : Nat) : State :=
  let low := ((s.core core).plate.seq.map (·.place)).min?
  let passed (p : Nat) : Bool := (low.map fun x => decide (p ≤ x)).getD true
  let s1 := s.mapGroups fun key g =>
    if keyCore key = core then
      g.mapLanes fun _ x =>
        match x.st with
        | .parked (.plateIdle p) => if passed p then { x with st := .ready, ret := true } else x
        | _ => x
    else g
  plateAdmit core 16 s1

/-- Forced reset of a context: its lanes, packets, queries, operations and records are discarded in the order of R389, and
it becomes quiescent. -/
def State.forcedReset (s : State) (ctx : Nat) : State :=
  match s.ctx? ctx with
  | none => s
  | some c0 =>
    let teams := s.teams.filter fun t => t.ctx == ctx
    let mine (o : Origin) : Bool := o.ctx == ctx
    -- accesses in flight
    let s1 := (s.remotes.filter fun r => mine r.org).foldl (fun a r => a.dropStore r) s
    let s2 := { s1 with remotes := s1.remotes.filter (fun r => !mine r.org),
                        barWaits := s1.barWaits.filter (fun w => !mine w.org),
                        posts := s1.posts.filter (fun p => p.ctx != ctx) }
    -- conversation operations are withdrawn, then the CLEAVEs of the discarded groups
    let pull (o : ConvOp) : ConvOp :=
      if mine o.org && o.kind != .leave then { o with withdrawn := true, orphan := true } else o
    let s3 := { s2 with convs := s2.convs.map pull }
    let s4 := (teams ++ c0.savedTeams.map (·.2)).foldl (fun a t => a.leaveTeam t) s3
    -- the groups leave their slots
    let s5 : State := teams.foldl (fun a t => (a.teamGroups t).foldl (fun a p =>
      match a.team? t.tid with
      | some t' => a.vacate t' p.1 p.2
      | none => a) a) s4
    -- packets, queries and engine work
    let keepP (p : Packet) : Bool := !mine p.org
    let core (c : Core) : Core :=
      { c with queue := c.queue.filter keepP, active := c.active.filter (fun x => keepP x.pkt),
               search := c.search.filter keepP, net := c.net.filter keepP,
               plate := { c.plate with seq := c.plate.seq.filter fun o => !mine o.org } }
    let dog (d : Dog) : Dog :=
      { d with inbound := d.inbound.filter (fun q => keepP q.pkt), admission := d.admission.filter (fun q => keepP q.pkt),
               active := d.active.filter (fun q => keepP q.pkt), marks := d.marks.filter fun m => m.ctx != ctx }
    let shq (x : SharedQueue) : SharedQueue := if x.ctx = ctx then { x with stall := none } else x
    let lq (q : LaunchQueue) : LaunchQueue := if q.ctx = some ctx then { q with recs := [], accepted := none, nextTeam := 0 } else q
    let gone (k : Cancel) : Bool := teams.any fun t => t.groups.any fun g => g.2 == slotKey k.core k.port k.slot
    let conn (k : Conn) : Conn := { k with sends := k.sends.filter fun n => keepP n.pkt }
    let s6 := { s5 with cores := s5.cores.map core, dogs := s5.dogs.map dog, cancels := s5.cancels.filter (fun k => !gone k),
                        conns := s5.conns.map conn, shared := s5.shared.map (Option.map shq), queues := s5.queues.map lq }
    -- the writers of the teams' scratchpads, and the teams
    let s6a := (List.range Config.cores).foldl (fun a k =>
      if (s5.core k).plate.seq.any fun o => mine o.org then a.plateSettle k else a) s6
    let s7 := teams.foldl (fun a t => a.dropQueries t) s6a
    let s8 := { s7 with teams := s7.teams.filter fun t => t.ctx != ctx }
    let s9 := (teams ++ (c0.savedTeams.map (·.2))).foldl (fun a t =>
      a.errRecord ctx 0 0xFF cSaveRequest 0 true false 0 (some (mkGid t.seq t.index 0 0))) s8
    match s9.ctx? ctx with
    | none => s9
    | some c =>
      let stage := if c.stage = .drain ∨ c.stage = .save then PreStage.saved else PreStage.none
      let s10 := s9.setCtx { c with savedTeams := [], recs := [], stage := stage, waiting := false, stopped := none }
      let s11 := if c.waiting then s10.complete stOk 0 else s10
      s11.quiesce ctx

/-! ## Stages of a pre-emption (R384) -/

/-- Reference cycles of a number of microseconds. -/
def usCycles (n : Nat) : Nat := 2400 * n

/-- A pre-emption request: stage 1 begins (R384). -/
def State.beginPreempt (s : State) (c : Context) : State :=
  let s1 := s.setCtx { c with stage := .drain, deadline := s.cycle.toNat + c.t1,
                              stopped := if s.groups.any fun p => p.2.halted && ((s.team? p.2.team).map (·.ctx)) == some c.num
                                then some s.cycle.toNat else none }
  s1.preemptDone c.num

/-- The deadline of a context's stage has passed: it stands still while a group is halted (R383). -/
def Context.late (c : Context) (now : Nat) : Bool := c.stopped.isNone && decide (c.deadline ≤ now)

/-- The records of a context that are in use: one given to a restored team is free once every group of the team has left the
handler (R388). -/
def State.usedRecs (s : State) (c : Context) : List (Nat × Bool) :=
  c.recs.filter fun r => !r.2 || s.teams.any fun t => t.ctx == c.num && t.saveRec == some r.1 &&
    (s.teamGroups t).any fun p => p.2.tmask != 0

/-- The record of a restored team becomes free when every group of the team has left the handler, and stays free (R388). -/
def State.leaveRecord (s : State) (tid : Nat) : State :=
  match s.team? tid with
  | none => s
  | some t =>
    match t.saveRec, s.ctx? t.ctx with
    | some k, some c =>
      if c.recs.contains (k, true) && (s.teamGroups t).all (fun p => p.2.tmask == 0) then
        (s.setCtx { c with recs := c.recs.filter fun r => r.1 != k }).setTeam { t with saveRec := none }
      else s
    | _, _ => s

/-- The lowest records not in use, for a number of teams (R386). -/
def freeRecs (c : Context) (n : Nat) : List Nat :=
  ((List.range c.saveN).filter fun k => !(c.recs.any fun r => r.1 == k)).take n

/-- Stage 2 begins (R384, R386): each team takes the lowest free record. A team whose groups have all exited only ends. A
group with TRAPV = 0, or too few records, leads to stage 3 at once. -/
def State.beginSave (s : State) (c : Context) : State :=
  let teams := s.teams.filter fun t => t.ctx == c.num && (s.teamGroups t).any fun p => !p.2.allExited
  let stuck := teams.any fun t => (s.teamGroups t).any fun p => p.2.trapv == 0 && !p.2.allExited
  let ks := freeRecs { c with recs := s.usedRecs c } teams.length
  let c1 := { c with stage := .save, deadline := s.cycle.toNat + c.t2, recs := s.usedRecs c }
  if stuck ∨ ks.length < teams.length then (s.setCtx c1).forcedReset c.num
  else
    let s1 := s.setCtx { c1 with recs := c1.recs ++ ks.map fun k => (k, false) }
    (teams.zip ks).foldl (fun a p => (a.setTeam { p.1 with saveRec := some p.2, saveSent := false }).cancelQueries p.1) s1

/-- PREEMPT_T1_EXPIRY (Table 15.7). -/
def execPreemptT1Expiry (ctx : Nat) (s : State) : Out :=
  match s.ctx? ctx with
  | none => .fault .noSuchUnit
  | some c => if c.stage = .drain ∧ c.late s.cycle.toNat then .next (s.beginSave c) else .next s

/-- PREEMPT_T2_EXPIRY: stage 3 (Table 15.7). -/
def execPreemptT2Expiry (ctx : Nat) (s : State) : Out :=
  match s.ctx? ctx with
  | none => .fault .noSuchUnit
  | some c => if c.stage = .save ∧ c.late s.cycle.toNat then .next (s.forcedReset ctx) else .next s

/-- SLICE_EXPIRY (R406): the slice has elapsed since the last resume, and another context of the world has a record at a
queue's head that fits no core; `fits` is the placement rule. -/
def State.sliceDue (s : State) (c : Context) (fits : LaunchQueue → Bool) : Bool :=
  decide (c.stage = .none) && decide (c.slice ≠ 0) && decide (c.resumed + c.slice ≤ s.cycle.toNat) &&
    s.queues.any fun q =>
      match q.ctx with
      | none => false
      | some n => n != c.num && decide (q.recs ≠ []) && ((s.ctx? n).map (·.world)) == some c.world && !fits q

/-! ## The save record (R386, Table 15.8) -/

/-- A write of the device's own to a context's memory, in one page at a time: none where a check fails (R386). -/
def State.checkedWrite (s : State) (c : Context) (va : Nat) (bs : List Byte) : Option State :=
  let k := inPage va bs.length
  let piece (s : State) (va : Nat) (bs : List Byte) : Option State :=
    if bs = [] then some s
    else
      match s.resolve c true .write va bs.length with
      | .error _ => none
      | .ok l =>
        match s.reach c.world true .write l bs.length with
        | .ok =>
          let s0 := (s.fillTlbs c [va]).account c.world ioPort true 0 [(l.space, l.pa, bs.length)]
          if l.space = spLocal then
            let (s1, lost) := s0.storeLocal [(l.pa, bs)]
            if lost = [] then some s1 else none
          else some (s0.writeBytes l.space l.pa bs)
        | _ => none
  (piece s va (bs.take k)).bind fun s1 => piece s1 (va + k) (bs.drop k)

/-- Budget and exited lanes of a team's group `i`, resident, saved or gone. -/
def State.groupSave (s : State) (t : Team) (i : Nat) : Nat × LaneSet :=
  match t.groups.find? fun x => x.1 == i with
  | some x => ((s.group? x.2).map fun g => (g.curBudget, g.exitedLanes)).getD (0, BitVec.allOnes 32)
  | none =>
    match t.savedGrp.find? fun x => x.1 == i with
    | some x => (x.2.1, x.2.2.1)
    | none => (((recGroups t.record)[i]?.map (·.2)).getD 0, BitVec.allOnes 32)

/-- The header of a team's save record (Table 15.8). -/
def State.saveHeader (s : State) (t : Team) : List Byte :=
  let gs := (List.range 32).map fun i => if i < t.ngroups then s.groupSave t i else (0, 0)
  t.record ++ toBytes 8 (mkGid t.seq t.index 0 0).toNat ++ [BitVec.ofNat 8 t.ngroups, BitVec.ofNat 8 t.scr] ++
    List.replicate 6 0 ++ gs.map (fun g => BitVec.ofNat 8 g.1) ++ List.replicate 16 0 ++
    gs.flatMap fun g => toBytes 4 g.2.toNat

/-- SAVE_REQUEST (R384, R386): when the team's engine work is finished its record's header is written and the request goes
to every group. -/
def execSaveRequest (team : Nat) (s : State) : Out :=
  match s.team? team with
  | none => .fault .noSuchUnit
  | some t =>
    match s.ctx? t.ctx, t.saveRec with
    | some c, some k =>
      if c.stage ≠ .save ∨ t.saveSent ∨ s.engineBusy t ∨ s.saveQueries t then .next s
      else
        let va := c.saveBase + k * c.saveSz
        match s.checkedWrite c va (s.saveHeader t) with
        | none => .next (s.forcedReset c.num)
        | some s1 =>
          let s2 := s1.setTeam { t with saveSent := true }
          .next (t.groups.foldl (fun a x =>
            match a.group? x.2 with
            | some g => if g.allExited then a else a.setGroup x.2 { g with saveReq := some (BitVec.ofNat 64 va) }
            | none => a) s2)
    | _, _ => .next s

/-- TEAM_SAVED (R387): every group of the team is saved or has exited and its accesses are complete; the allocation is
freed. -/
def execTeamSaved (team : Nat) (s : State) : Out :=
  match s.team? team with
  | none => .fault .noSuchUnit
  | some t =>
    match s.ctx? t.ctx, t.saveRec with
    | some c, some k =>
      if t.groups ≠ [] ∨ t.savedGrp = [] ∨ s.teamBusy t then .next s
      else
        let s1 := { (s.dropQueries t) with teams := s.teams.filter fun x => x.tid != team }
        let s2 := s1.setCtx { c with savedTeams := c.savedTeams ++ [(k, t)] }
        .next (s2.preemptDone c.num)
    | _, _ => .next s

/-! ## The fault queue (R377 to R381) -/

/-- A fault queue entry (Table 15.4). -/
def Posting.bytes (p : Posting) (asid seq : Nat) (merged : Bool) : List Byte :=
  let flags := 1 + (if merged then 2 else 0) + (if p.priv then 4 else 0)
  let w := flags * 2 ^ 56 + p.port % 4 * 2 ^ 54 + p.slot % 16 * 2 ^ 50 + p.core % 65536 * 2 ^ 32 + asid % 65536 * 2 ^ 16 +
    p.access % 256 * 2 ^ 8 + p.cause.toNat
  toBytes 8 p.va.toNat ++ toBytes 8 w ++ toBytes 8 p.gid.toNat ++ toBytes 4 p.lanes.toNat ++ toBytes 4 seq

/-- One posting, where its world's queue has room: none while the ring is full, which is what AINC of WRIDX against RDIDX + 2^n finds
(R379, R103), or while the descriptor lies in a page that is not the world's any more (R84; log 75). -/
def State.post (s : State) (p : Posting) : Option State :=
  let asid := ((s.ctx? p.ctx).map (·.asid)).getD 0
  let ctx16 := toBytes 2 p.ctx
  if p.svc then
    some ((s.logAdd 0x06 (BitVec.ofNat 8 p.world) 0xFFFF (ctx16 ++ [p.cause] ++ toBytes 8 p.tpc.toNat ++ toBytes 8 p.va.toNat)).forcedReset
      p.ctx)
  else
    match (s.world p.world).faultq with
    | none => some ((s.logAdd 0x08 (BitVec.ofNat 8 p.world) 0xFFFF (p.bytes asid 0 false)).forcedReset p.ctx)
    | some q =>
      let (sw, w) := s.ringGet p.world q.desc 8
      let (s, r) := sw.ringGet p.world (q.desc + 128) 8
      if !s.ringPass p.world q.desc ∨ (r + 2 ^ q.n) % 2 ^ 64 ≤ w then none
      else
        let entry (i : Nat) : Nat := q.desc + 4096 + 32 * (i % 2 ^ q.n)
        let live := s.posted.filter fun e => e.world != p.world || decide (r ≤ e.index)
        let into := live.find? fun e => e.world == p.world && e.cause == p.cause && e.asid == asid && e.gid == p.gid &&
          e.page == p.va.toNat / 65536
        let s1 := match into with
          | some e =>
            let (s, m) := s.ringGet p.world (entry e.index + 24) 4
            s.ringPut p.world (entry e.index + 24) (toBytes 4 (m ||| p.lanes.toNat))
          | none => s
        let s2 := (s1.ringPut p.world q.desc (toBytes 8 ((w + 1) % 2 ^ 64))).ringPut p.world (entry w) (p.bytes asid w into.isSome)
        some { s2 with
          posted := if into.isSome then live
            else live ++ [{ world := p.world, index := w, cause := p.cause, asid := asid, gid := p.gid, page := p.va.toNat / 65536 }]
          waitIdx := match p.wait with
            | some k => s2.waitIdx ++ [(k, w)]
            | none => s2.waitIdx }

/-- The first posting that can be made, with those before it kept. -/
def postFirst (s : State) : List Posting → List Posting → Option State
  | _, [] => none
  | before, p :: r =>
    match { s with posts := before ++ r }.post p with
    | some s1 => some s1
    | none => postFirst s (before ++ [p]) r

/-- FAULT_QUEUE_POST (R379): a recorded fault reaches its world's queue. -/
def execFaultQueuePost (s : State) : Out := .next ((postFirst s [] s.posts).getD s)

end Sys2Proof.Machine
end

