-- ==== Sys2Proof/Machine/Place.lean ====
section
/-! DEFINITION. Acceptance of records, arbitration among launch queues, and the placement of new and saved teams
(14_execution_and_scheduling.md R340 to R343; 15_traps_and_preemption.md R388). -/

namespace Sys2Proof.Machine

open Sys2Proof.Bits

/-! ## The placement rule (R342) -/

/-- The lowest free scratchpad base for `scr` units on a core. A team that has given its allocation back, as one that still waits at its
JOIN has, holds no range (R345). -/
def State.freeBase (s : State) (core scr : Nat) : Option Nat :=
  ((List.range (129 - scr)).map fun k => 4096 * k).find? fun b =>
    !(s.teams.any fun t => t.core == core && t.scr ≠ 0 && decide (b < t.base + t.size) && decide (t.base < b + 4096 * scr))

/-- The free slots of a port in ascending order. -/
def State.freeSlots (s : State) (core port : Nat) : List Nat :=
  (List.range Config.slots).filter fun k => (s.group? (slotKey core port k)).isNone

/-- A core fits a team of `scr` units whose groups need `blks` blocks: the base. -/
def State.coreFits (s : State) (core scr : Nat) (blks : List Nat) : Option Nat :=
  if (List.range 4).all fun p =>
      decide ((onPort p blks).length ≤ (s.freeSlots core p).length) &&
        decide ((onPort p blks).foldl (· + ·) 0 ≤ ((s.core core).port p).pool) then s.freeBase core scr
  else none

/-- The first core of a world that fits, in circular order after the one of the last placement, with the base. -/
def State.findCore (s : State) (world scr : Nat) (blks : List Nat) : Option (Nat × Nat) :=
  let start := (s.lastCore.map (· + 1)).getD 0
  ((List.range Config.cores).map fun k => (start + k) % Config.cores).findSome? fun c =>
    if (s.core c).world = some world ∧ (s.core c).enabled then (s.coreFits c scr blks).map fun b => (c, b) else none

/-- The next team of a queue's head fits some core of its context's world. -/
def State.headFits (s : State) (q : LaunchQueue) : Bool :=
  match q.recs, q.ctx.bind fun n => s.ctx? n with
  | r :: _, some c => (s.findCore c.world (recScr r.bytes) ((recGroups r.bytes).map (·.2))).isSome
  | _, _ => false

/-! ## Acceptance (R340) -/

/-- The head of a queue leaves it. -/
def State.dropHead (s : State) (n : Nat) : State :=
  let q := s.lqueue n
  s.setQueue n { q with recs := q.recs.drop 1, accepted := none, nextTeam := 0 }

/-- Accept the head of a queue, or discard it. -/
def State.accept (s : State) (n : Nat) : State :=
  let q := s.lqueue n
  match q.recs, q.ctx with
  | r :: _, some ctx =>
    let s1 := { s with gridSeq := (s.gridSeq + 1) % 2 ^ 24 }
    let (s2, e) := s1.swizzle ctx (pk r.bytes 0 16)
    let refuse (cause : BitVec 8) : State := ((s2.dropHead n).recordRefused ctx r cause).quiesce ctx
    match e, s2.ctx? ctx with
    | .error c, _ => refuse c
    | .ok a, some c =>
      let isCode := inWindow a.toNat && match s2.rangeOf c a.toNat with
        | .ok (some x) => x.kind == 1
        | _ => false
      if isCode then s2.setQueue n { s2.lqueue n with accepted := some (s.gridSeq, a), nextTeam := 0 }
      else refuse cNameUnresolved
    | .ok _, none => s2
  | _, _ => s

/-! ## Arbitration (R341) -/

/-- A queue's context lets its records be placed: it is in no stage of a pre-emption, and has no saved team that goes
first (R388). -/
def State.queueLive (s : State) (q : LaunchQueue) : Bool :=
  match q.ctx.bind fun n => s.ctx? n with
  | some c => c.stage == .none && decide (c.savedTeams = [])
  | none => false

/-- Whole milliseconds that a queue has gone without a placement while it held a head. -/
def LaunchQueue.waited (q : LaunchQueue) (now : Nat) : Nat := (now - q.since) / Config.msCycles

/-- A queue as it stands at a cycle: steps raised, and PINNED (R341). The waiting time of a pre-empted context's queue, and
of an empty one, is zero. -/
def State.aged (s : State) (q : LaunchQueue) : LaunchQueue :=
  let now := s.cycle.toNat
  let held : Bool := match q.ctx.bind fun n => s.ctx? n with
    | some c => c.stage != .none
    | none => true
  match q.recs with
  | [] => { q with since := now, raised := 0, pinned := false }
  | r :: _ =>
    if held then { q with since := now, raised := 0, pinned := false }
    else
      let k := q.waited now
      { q with raised := min k (3 - recPrio r.bytes), pinned := decide (4 - recPrio r.bytes ≤ k) }

/-- QUEUE_AGING: a queue's level and PINNED. -/
def execQueueAging (queue : Nat) (s : State) : Out :=
  if 64 ≤ queue then .fault .noSuchUnit else .next (s.setQueue queue (s.aged (s.lqueue queue)))

/-- The level of a queue: its head's PRIO and the steps raised. -/
def LaunchQueue.level (q : LaunchQueue) : Nat :=
  match q.recs with
  | [] => 0
  | r :: _ => recPrio r.bytes + q.raised

/-- Some queue is PINNED: then teams are placed only from PINNED queues (R341). -/
def State.anyPinned (s : State) : Bool := s.queues.any fun q => q.pinned && decide (q.recs ≠ [])

/-- The queue that receives the next placement: among the eligible ones, of PINNED queues only while there is one, the
highest level, then round robin after the last (R341). -/
def State.chooseQueue (s : State) : Option Nat :=
  let qs := (List.range 64).map fun n => (n, s.lqueue n)
  let pinned := s.anyPinned
  let ok := qs.filter fun q => (!pinned || q.2.pinned) && s.queueLive q.2 && s.headFits q.2
  let top := ok.foldl (fun m q => max m q.2.level) 0
  let best := (ok.filter fun q => q.2.level == top).map (·.1)
  let last := (s.lastQueue.map (· + 1)).getD 0
  match best.find? fun n => decide (last ≤ n) with
  | some n => some n
  | none => best.head?

/-- Every queue's level as it stands. -/
def State.ageAll (s : State) : State := { s with queues := s.queues.map s.aged }

/-- RECORD_ACCEPT (R340): the scheduler has chosen a queue whose head is not accepted yet. -/
def execRecordAccept (queue : Nat) (s : State) : Out :=
  if 64 ≤ queue then .fault .noSuchUnit
  else
    let s1 := s.ageAll
    if s1.chooseQueue = some queue ∧ (s1.lqueue queue).accepted.isNone then .next (s1.accept queue) else .next s1

/-! ## Placement -/

/-- A group as it is placed (R136, R343, R373): every lane READY at the entry point. -/
def newGroup (gid : BitVec 64) (tid blks : Nat) (entry trapv : BitVec 64) (args : List (BitVec 64)) : Group :=
  { gid := gid, team := tid, budget := blks, budgetNext := none, v := [], g := sput [] 0 args, k := [], j := [], cv := [],
    fmode := 0, fmodeNext := none, fflags := 0, csrd := [], tmask := 0, trapv := trapv, mon := Monitor.off, actSel := none,
    plateErr := none, halted := false, haltReq := false, saveReq := none, errReq := false, buf := [], awaits := [],
    lanes := List.replicate 32 { Lane.fresh with pc := entry, tregion := entry } }

/-- A restored group (R388): every register zero, every lane in the handler with TCAUSE 0x48, RESTORE and the record. -/
def restoredGroup (gid : BitVec 64) (tid blks : Nat) (trapv rec_ : BitVec 64) : Group :=
  { newGroup gid tid blks 0 trapv [] with
    tmask := BitVec.allOnes 32
    lanes := List.replicate 32 { Lane.fresh with pc := trapv, tcause := cSaveRequest, taddr := rec_, tinfo := 256 } }

/-- Give the groups of a team their slots: (index, key). The slots of each port are the lowest free ones in order. -/
def State.slotsFor (s : State) (core n : Nat) : List (Nat × Nat) :=
  (List.range n).map fun i => (i, slotKey core (i % 4) ((s.freeSlots core (i % 4)).getD (i / 4) 0))

/-- Insert a resident group, keys rising. -/
def insertGroup (k : Nat) (g : Group) : List (Nat × Group) → List (Nat × Group)
  | [] => [(k, g)]
  | x :: r => if k < x.1 then (k, g) :: x :: r else x :: insertGroup k g r

/-- Place a team's groups on a core (R342, R343): slots, blocks, a zeroed allocation (R148), and the launch acquire (R277). -/
def State.placeTeam (s : State) (t : Team) (blks : List Nat) (mk : Nat → Nat → Group) : State :=
  let keys := s.slotsFor t.core t.ngroups
  let gs := (keys.zip blks).map fun x => (x.1.2, mk x.1.1 x.2)
  let c := s.core t.core
  let used (p : Nat) : Nat := (onPort p blks).foldl (· + ·) 0
  let ports := (List.range 4).map fun p => { c.port p with pool := (c.port p).pool - used p }
  let s1 := s.setCore t.core { c with ports := ports, spad := sclear c.spad t.base t.size, l1 := [] }
  { s1 with groups := gs.foldl (fun a x => insertGroup x.1 x.2 a) s1.groups,
            teams := s1.teams ++ [{ t with tid := s.nextTid, groups := keys }],
            nextTid := s.nextTid + 1, lastCore := some t.core }

/-- Place the next team of a queue's accepted head. -/
def State.placeNext (s : State) (n : Nat) : State :=
  let q := s.lqueue n
  match q.recs, q.accepted, q.ctx.bind fun k => s.ctx? k with
  | r :: _, some (seq, entry), some c =>
    let gs := recGroups r.bytes
    let blks := gs.map (·.2)
    match s.findCore c.world (recScr r.bytes) blks with
    | none => s
    | some (core, base) =>
      let t : Team :=
        { tid := 0, core := core, ctx := c.num, record := r.bytes, seq := seq, index := q.nextTeam, base := base,
          scr := recScr r.bytes, service := c.priv, firmware := false, ngroups := gs.length, groups := [],
          ring := List.replicate 8 .free, saveRec := none, saveSent := false, savedGrp := [] }
      let args := (List.range 3).map fun k => BitVec.ofNat 64 (pk r.bytes (40 + 8 * k) 8)
      let s1 := s.placeTeam t blks fun i b =>
        newGroup (mkGid seq q.nextTeam i ((gs.getD i (0, 0)).1)) s.nextTid b entry (c.hpc &&& ~~~ 3) args
      let last := decide (recTeams r.bytes ≤ q.nextTeam + 1)
      let s2 := if last then s1.dropHead n else s1.setQueue n { s1.lqueue n with nextTeam := q.nextTeam + 1 }
      { s2.setQueue n { s2.lqueue n with since := s.cycle.toNat, raised := 0, pinned := false } with lastQueue := some n }
  | _, _, _ => s

/-- The saved team with the lowest record of a context (R388). -/
def lowestSaved : List (Nat × Team) → Option (Nat × Team)
  | [] => none
  | x :: r =>
    match lowestSaved r with
    | none => some x
    | some y => if x.1 ≤ y.1 then some x else some y

/-- A byte of a save record's header, as memory holds it (Table 15.8): none where the context cannot read it there. -/
def State.headerByte (s : State) (c : Context) (k off : Nat) : Option Nat :=
  match s.resolve c true .read (c.saveBase + k * c.saveSz + off) 1 with
  | .ok l => some (s.readNat l.space l.pa 1)
  | .error _ => none

/-- Budgets of a saved team's groups, by index, from its record's header (R388). A byte that cannot be read or is no budget leaves the
one that the team was saved with (log 36). -/
def State.savedBlocks (s : State) (c : Context) (k : Nat) (t : Team) : List Nat :=
  (List.range t.ngroups).map fun i =>
    let kept :=
      match t.savedGrp.find? fun x => x.1 == i with
      | some x => x.2.1
      | none => ((recGroups t.record)[i]?.map (·.2)).getD 1
    match s.headerByte c k (80 + i) with
    | some b => if 1 ≤ b ∧ b ≤ 48 then b else kept
    | none => kept

/-- SCR of a saved team, from its record's header (R388). -/
def State.savedScr (s : State) (c : Context) (k : Nat) (t : Team) : Nat :=
  match s.headerByte c k 73 with
  | some b => if 1 ≤ b ∧ b ≤ 128 then b else t.scr
  | none => t.scr

/-- A context's first saved team and the core it fits, once the context has resumed. -/
def State.restorable (s : State) (c : Context) : Option (Nat × Team × Nat × Nat) :=
  if c.stage ≠ .none then none
  else (lowestSaved c.savedTeams).bind fun x =>
    (s.findCore c.world (s.savedScr c x.1 x.2) (s.savedBlocks c x.1 x.2)).map fun p => (x.1, x.2, p.1, p.2)

/-- Place a saved team again (R388). -/
def State.restoreTeam (s : State) (c : Context) (k : Nat) (t : Team) (core base : Nat) : State :=
  let gs := recGroups t.record
  let rec_ := BitVec.ofNat 64 (c.saveBase + k * c.saveSz)
  let t1 : Team := { t with core := core, base := base, scr := s.savedScr c k t, groups := [], ring := List.replicate 8 .free, saveRec := some k,
                            saveSent := true, savedGrp := [] }
  let s1 := s.placeTeam t1 (s.savedBlocks c k t) fun i b =>
    restoredGroup (mkGid t.seq t.index i ((gs.getD i (0, 0)).1)) s.nextTid b (c.hpc &&& ~~~ 3) rec_
  s1.setCtx { c with savedTeams := c.savedTeams.filter (fun x => x.1 != k),
                     recs := c.recs.map fun r => if r.1 = k then (k, true) else r }

/-- TEAM_PLACEMENT (R341, R342, R388): a saved team of a resumed context, or the chosen queue's next team, whose record is
accepted first. Between a restoration and a queue the order is free. -/
def execTeamPlacement (s : State) : Out :=
  let s1 := s.ageAll
  let saved := if s1.anyPinned then [] else s1.ctxs.filterMap fun c => (s1.restorable c).map fun x => (c, x)
  let choice := s1.chooseQueue
  let n := saved.length + if choice.isSome then 1 else 0
  if n = 0 then .next s1
  else
    let (k, s2) := s1.freeBelow n
    match saved[k]? with
    | some (c, rec_, t, core, base) => .next (s2.restoreTeam c rec_ t core base)
    | none =>
      match choice with
      | none => .next s2
      | some q =>
        let s3 := if (s2.lqueue q).accepted.isNone then s2.accept q else s2
        .next (s3.placeNext q)

/-- SLICE_EXPIRY (R406). -/
def execSliceExpiry (ctx : Nat) (s : State) : Out :=
  match s.ctx? ctx with
  | none => .fault .noSuchUnit
  | some c => if s.sliceDue c s.headFits then .next (s.beginPreempt c) else .next s

end Sys2Proof.Machine
end

