-- ==== Sys2Proof/Machine/Host.lean ====
section
/-! DEFINITION. The host: its accesses to device memory and to the BAR registers (16_host_security_bringup.md R402, R404;
14_execution_and_scheduling.md R338), and the snoops of its memory (04_memory_tiers.md R107). -/

namespace Sys2Proof.Machine

open Sys2Proof.Bits

/-! ## CXL.mem (R402) -/

/-- A byte range cut at 64 KiB pages: (first byte, length). -/
def hostCuts (pa n : Nat) : List (Nat × Nat) :=
  (List.range ((pa + n + 65535) / 65536 - pa / 65536)).map fun k =>
    let lo := max pa ((pa / 65536 + k) * 65536)
    (lo, min (pa + n) ((pa / 65536 + k + 1) * 65536) - lo)

/-- A host access passes a page: outside confidential mode any OWNED or SYSTEM page; in it a SYSTEM page of world 0, or an
OWNED page of the world whose TDISP interface, in RUN, carries the request. -/
def State.hostPass (s : State) (pa : Nat) (iface : Option Nat) : Bool :=
  let e := potEntry s.mem pa
  isMemPa pa && !isCarve pa &&
    if s.conf then
      (potOwner e == 0 && potState e == 2) ||
        (potState e == 1 && iface == some (potOwner e) && (s.world (potOwner e)).tdisp == .run)
    else potState e == 1 || potState e == 2

/-- A security event (class 0x04): kind, then the address or connection id concerned. -/
def State.security (s : State) (world : BitVec 8) (kind : BitVec 8) (what : List Byte) : State :=
  s.logAdd 0x04 world 0xFFFF (kind :: what)

/-- The world that a host access is logged for: that of the interface it came through, if any. -/
def ifaceWorld (iface : Option Nat) : BitVec 8 := (iface.map (BitVec.ofNat 8)).getD 0xFF

/-- The bytes of a host read cross the NoC from their slices to the I/O die, under the key of the world that owns
their page (R410). -/
def State.hostNoc (s : State) (pa n : Nat) : State :=
  (coalesce [(pa, n)]).foldl (fun a x => a.nocCount (slicePort x.1) ioPort (potOwner (potEntry s.mem x.1)) x.2) s

/-- Bytes of device memory as the host reads them; what it reads of a sector or line in error is free (log entry 4). -/
def State.hostRead (s : State) (pa n : Nat) : List Byte :=
  (hostCuts pa n).flatMap fun x =>
    ((s.readBytes spLocal x.1 x.2).zip (List.range x.2)).map fun b =>
      if (s.dataError (x.1 + b.2) 1).isSome then (Config.freeReg s.tick (x.1 + b.2)).setWidth 8 else b.1

/-! ## The registers that the host reads (Tables 16.1, 16.2, 14.3) -/

/-- BOOTSTAT (Table 16.2): its CONF bit shows once the boot has begun. -/
def State.bootstat (s : State) : Nat :=
  s.stage + (if s.ready then 2 ^ 8 else 0) + (if s.conf && decide (s.stage ≠ 0) then 2 ^ 9 else 0) + (if s.recovery then 2 ^ 10 else 0)

/-- The 8-byte register of BAR0 at index `i`; CQTAIL is write only and reads zero (R7), as every offset without a register does. -/
def State.bar0Reg (s : State) (i : Nat) : BitVec 64 :=
  match i with
  | 0 => BitVec.ofNat 64 s.bootstat
  | 1 => s.host.cqBase
  | 2 => s.host.cplBase
  | 4 => s.host.cqHead
  | 5 => s.host.cplHead
  | _ => 0

/-- A spawn port of the device, and a state with one replaced. -/
def State.sport (s : State) (n : Nat) : SpawnPort := s.sports.getD n { asid := none, queue := none, dropped := 0 }
def State.setSport (s : State) (n : Nat) (x : SpawnPort) : State := { s with sports := s.sports.set n x }

/-- FREE of a spawn port: the free entries of the launch queue it is bound to; its reset value while it is bound to none. -/
def State.sportFree (s : State) (n : Nat) : Nat := 64 - ((s.sport n).queue.map fun q => (s.lqueue q).recs.length).getD 0

/-- The 8-byte register at index `i` of a spawn port's page: FREE and DROPPED at 0x040, zero elsewhere, RECORD among it. -/
def State.sportReg (s : State) (n i : Nat) : BitVec 64 :=
  if i = 8 then BitVec.ofNat 64 (s.sportFree n + (s.sport n).dropped.toNat * 2 ^ 16) else 0

/-- A byte of BAR0 (64 KiB), and of BAR2 (256 KiB: spawn port `i` at 4 KiB × `i`). -/
def State.bar0Byte (s : State) (off : Nat) : Byte := (s.bar0Reg (off % 65536 / 8) >>> (8 * (off % 8))).setWidth 8
def State.bar2Byte (s : State) (off : Nat) : Byte := (s.sportReg (off % 262144 / 4096) (off % 4096 / 8) >>> (8 * (off % 8))).setWidth 8

/-- HOST_CXL_MEM_READ (R402): a read through the CXL.mem window, or of the registers of a BAR. -/
def execHostCxlMemRead (place : HostAddr) (len : Nat) (iface : Option Nat) (s : State) : Out :=
  if s.unreachable then .next s
  else
    match place with
    | .bar0 off => .next { s with reply := (List.range len).map fun i => s.bar0Byte (off + i) }
    | .bar2 off => .next { s with reply := (List.range len).map fun i => s.bar2Byte (off + i) }
    | .cxlMem pa =>
      if (hostCuts pa len).all fun x => s.hostPass x.1 iface then
        .next { (s.correct pa len).hostNoc pa len with reply := s.hostRead pa len }
      else .next { s.security (ifaceWorld iface) 2 (toBytes 8 pa) with reply := List.replicate len 0xFF }

/-- HOST_CXL_MEM_WRITE (R402). -/
def execHostCxlMemWrite (pa : Nat) (bytes : List (BitVec 8)) (iface : Option Nat) (s : State) : Out :=
  if s.unreachable then .next s
  else
    let cuts := hostCuts pa bytes.length
    if cuts.all fun x => s.hostPass x.1 iface then
      let s1 := (s.storeLocal (cuts.map fun x => (x.1, (bytes.drop (x.1 - pa)).take x.2))).1
      .next (if bytes = [] then s1 else s1.publish pa bytes.length 0xF0)
    else .next (s.security (ifaceWorld iface) 2 (toBytes 8 pa))

/-- CXL_CACHE_SNOOP (R107): a host thread takes a line of host memory for writing, and stores bytes in it. -/
def execCxlCacheSnoop (x : HostStore) (s : State) : Out :=
  if s.unreachable then .next s
  else
    let s1 := s.writeBytes spHost x.addr.toNat (x.bytes.take (128 - x.addr.toNat % 128))
    .next (s1.touch spHost (x.addr.toNat / 128 * 128) 128)

/-! ## Spawn ports (R338, Table 14.3) -/

/-- A store that is dropped and counted. -/
def State.sportDrop (s : State) (n : Nat) : State :=
  s.setSport n { s.sport n with dropped := (s.sport n).dropped + 1 }

/-- SPAWN_PORT_RECORD (R338): a record enters the bound queue; a store of another shape or one that meets a full queue is
dropped and counted, as is one to a port that is bound to no queue or whose ASID is not that of the queue's context (log entry 46). A malformed record is discarded with an error record
(R337). Writes beyond the record are ignored. -/
def execSpawnPortRecord (port offset : Nat) (bytes : List (BitVec 8)) (s : State) : Out :=
  if 64 ≤ port then .fault .noSuchUnit
  else if s.unreachable ∨ 0x40 ≤ offset then .next s
  else if offset ≠ 0 ∨ bytes.length ≠ 64 then .next (s.sportDrop port)
  else
    match (s.sport port).queue with
    | none => .next (s.sportDrop port)
    | some q =>
      match (s.lqueue q).ctx.bind s.ctx? with
      | none => .next (s.sportDrop port)
      | some c =>
        let r : LaunchRec := { bytes := bytes, pc := 0, who := none, peer := 0xF0 }
        if (s.sport port).asid ≠ some c.asid ∨ (s.lqueue q).full then .next (s.sportDrop port)
        else if recBad bytes then .next (s.recordRefused c.num r cIllegalOperand)
        else .next (s.enqueue q r)

/-! ## BAR0 (R404, Table 16.2) -/

/-- CQBASE: reserved bits [11:4] read zero (R6). A write while no command is in progress sets the indices to 0 and the phase
to 1. -/
def execCqbaseWrite (value : BitVec 64) (s : State) : Out :=
  if s.unreachable ∨ s.host.busy.isSome then .next s
  else
    .next { s with host := { s.host with cqBase := value &&& ~~~ 0xFF0, tail := 0, cqHead := 0, cplHead := 0, phase := true } }

/-- CPLBASE, 4 KiB aligned: bits [11:0] of what is written are ignored and read zero, which Table 16.2 leaves open (log entry 55). -/
def execCplbaseWrite (value : BitVec 64) (s : State) : Out :=
  if s.unreachable ∨ s.host.busy.isSome then .next s
  else .next { s with host := { s.host with cplBase := value &&& ~~~ 0xFFF } }

/-- CQTAIL: a write that would put the tail more than the ring's entries ahead of CQHEAD is ignored. -/
def execCqtail (value : BitVec 64) (s : State) : Out :=
  if s.unreachable ∨ s.host.entries < (value - s.host.cqHead).toNat then .next s
  else .next { s with host := { s.host with tail := value } }

/-- CPLHEAD. -/
def execCplheadWrite (value : BitVec 64) (s : State) : Out :=
  if s.unreachable then .next s else .next { s with host := { s.host with cplHead := value } }

/-- A write to a register without a behaviour of its own is ignored (R7). -/
def execIgnoredRegisterWrite (_bar _offset : Nat) (_value : BitVec 64) (s : State) : Out := .next s

end Sys2Proof.Machine
end

