-- ==== Sys2Proof/Machine/Command.lean ====
section
/-! DEFINITION. The ROM command set as the firmware team executes it, one command at a time (16_host_security_bringup.md
R403, R405, R407 to R410, R418). Each step acts on the command at CQHEAD; where none is due, or it has another OPC, the
step changes nothing. -/

namespace Sys2Proof.Machine

open Sys2Proof.Bits

/-- What a command comes to: the state, STATUS and RESULT. -/
abbrev Done := State × Nat × Nat

/-- Execute the command at CQHEAD if it is due and `ok` takes its OPC. It is in progress while its effects come about, and
its completion is written after all of them (R403). -/
def runCommand (s : State) (ok : Nat → Bool) (f : State → List Byte → Done) : Out :=
  let b := s.command
  if s.cmdDue && ok (pk b 0 1) then
    let s1 : State := { s with host := { s.host with busy := some (BitVec.ofNat 32 (pk b 4 4), 0) } }
    let (s2, status, result) := f s1 b
    .next (s2.complete status result)
  else .next s

/-- RESERVED_OPC. -/
def execReservedOpc (s : State) : Out := runCommand s (fun o => o == 0 || decide (0x13 < o)) fun s _ => (s, stBadParam, 0)

/-- A world that commands may name. -/
def State.liveWorld (s : State) (w : Nat) : Bool := decide (w < 16) && (s.world w).live

/-- Every page of a range of device memory is held by a world in state SYSTEM. -/
def State.systemPages (s : State) (world pa n : Nat) : Bool :=
  (hostCuts pa n).all fun x => isMemPa x.1 && !isCarve x.1 && potOwner (potEntry s.mem x.1) == world && potState (potEntry s.mem x.1) == 2

/-! ## Contexts (R405) -/

/-- The realm bindings of a descriptor (Table 3.2). -/
def descRealms (d : List Byte) : List Binding :=
  (List.range 16).map fun i =>
    { realm := pk d (128 + 16 * i) 2, log2n := pk d (130 + 16 * i) 1, valid := bit (pk d (131 + 16 * i) 1) 0,
      dirBase := pk d (136 + 16 * i) 8 }

/-- Every reserved bit of a descriptor is zero. -/
def descReserved (d : List Byte) : Bool :=
  decide (pk d 26 1 < 2) && decide (pk d 28 4 = 0) && decide (pk d 68 4 = 0) && decide (pk d 88 40 = 0) && decide (pk d 384 128 = 0) &&
    (List.range 16).all fun i => decide (pk d (131 + 16 * i) 1 < 2) && decide (pk d (132 + 16 * i) 4 = 0)

/-- T1 and T2 of a descriptor lie in their ranges (Table 15.7). -/
def descTimes (d : List Byte) : Bool :=
  (pk d 56 4 == 0xFFFFFFFF || decide (pk d 56 4 ≤ 1000000)) &&
    (pk d 60 4 == 0 || (decide (10 ≤ pk d 60 4) && decide (pk d 60 4 ≤ 10000)))

/-- The checks of a descriptor at an address: OK, or the status that CTXNEW or RESUME completes with (R405). -/
def State.descStatus (s : State) (pa : Nat) (d : List Byte) : Nat :=
  let w := pk d 25 1
  if pa % 512 ≠ 0 ∨ !isMemPa pa ∨ isCarve pa then stBadParam
  else if !s.conf ∧ w ≠ 1 then stNotPermitted
  else if s.conf ∧ (w = 0 ∨ !s.liveWorld w) then stBadParam
  else if !s.systemPages w pa 512 then stBadParam
  else if pk d 24 1 < 8 ∨ 20 < pk d 24 1 ∨ pk d 16 8 % 32 ≠ 0 then stBadParam
  else if pk d 48 4 % 4096 ≠ 0 ∨ pk d 80 8 % 4096 ≠ 0 ∨ pk d 72 8 % 4096 ≠ 0 then stBadParam
  else if !descReserved d ∨ !descTimes d then stBadParam
  else stOk

/-- A context with the fields of its descriptor (Table 16.5). -/
def Context.fromDesc (c : Context) (d : List Byte) : Context :=
  let us (n : Nat) : Nat := usCycles n
  { c with proot := pk d 0 8, wroot := pk d 8 8, rotBase := pk d 16 8, rotLog2 := pk d 24 1, world := pk d 25 1, priv := bit (pk d 26 1) 0,
           lq := pk d 27 1, hpc := BitVec.ofNat 64 (pk d 32 8), saveBase := pk d 40 8, saveSz := pk d 48 4, saveN := pk d 52 4,
           t1 := if pk d 56 4 = 0xFFFFFFFF then Config.msCycles else us (pk d 56 4),
           t2 := if pk d 60 4 = 0 then us 100 else us (pk d 60 4), slice := us (pk d 64 4),
           wtPool := pk d 72 8, wtPoolSz := pk d 80 8, realms := descRealms d }

/-- A context as CTXNEW creates it, before its descriptor's fields. -/
def Context.fresh (num asid desc : Nat) : Context :=
  { num := num, asid := asid, desc := desc, proot := 0, wroot := 0, rotBase := 0, rotLog2 := 8, world := 1, priv := false, lq := 0, hpc := 0,
    saveBase := 0, saveSz := 0, saveN := 0, t1 := 0, t2 := 0, slice := 0, wtPool := 0, wtPoolSz := 0, realms := [],
    cursor := Config.windowBase, wtNext := 0, errq := none, errLost := false, rings := [], stage := .none, deadline := 0,
    stopped := none, waiting := false, resumed := 0, recs := [], savedTeams := [] }

/-- CTXNEW (R405). -/
def execCtxnew (s : State) : Out :=
  runCommand s (· == 0x01) fun s b =>
    let pa := cmdP b 0
    let asid := cmdP b 1
    let d := s.readBytes spLocal pa 512
    let st := s.descStatus pa d
    if st ≠ stOk then (s, st, 0)
    else if 0xFFFF < asid ∨ s.ctxs.any fun c => c.asid == asid then (s, stBadParam, 0)
    else
      let c := (Context.fresh s.nextCtx asid pa).fromDesc d
      ({ s with ctxs := s.ctxs ++ [{ c with wtNext := c.wtPool, resumed := s.cycle.toNat }], nextCtx := s.nextCtx + 1 },
       stOk, s.nextCtx)

/-- A context is removed after its forced reset: its launch queues, shared queues and connections go with it. -/
def State.removeCtx (s : State) (n : Nat) : State :=
  let mine (q : Nat) : Bool := (s.lqueue q).ctx == some n
  { s with
    ctxs := s.ctxs.filter (fun c => c.num != n),
    queues := s.queues.map fun q => if q.ctx = some n then LaunchQueue.fresh else q,
    sports := s.sports.map fun p => if (p.queue.map mine).getD false then { p with asid := none, queue := none } else p,
    shared := s.shared.map fun q => if (q.map fun x => x.ctx == n).getD false then none else q,
    conns := s.conns.filter fun k => k.ctx != n }

/-- CTXEND (R389). -/
def execCtxend (s : State) : Out :=
  runCommand s (· == 0x02) fun s b =>
    match s.ctx? (cmdP b 0) with
    | none => (s, stBadParam, 0)
    | some c =>
      if c.stage = .drain ∨ c.stage = .save then (s, stBusy, 0)
      else ((s.forcedReset c.num).removeCtx c.num, stOk, 0)

/-- PREEMPT (R384): completes at once for a context that is already pre-empted; otherwise when its pre-emption ends. -/
def execPreempt (s : State) : Out :=
  let b := s.command
  if s.cmdDue && pk b 0 1 == 0x09 then
    match s.ctx? (cmdP b 0) with
    | none => .next (s.complete stBadParam 0)
    | some c =>
      if c.stage = .saved then .next (s.complete stOk (if c.savedTeams = [] then 0 else 1))
      else
        let c1 := { c with waiting := true }
        let s1 : State := { s with host := { s.host with busy := some (BitVec.ofNat 32 (pk b 4 4), c.num) } }
        if c.stage = .none then .next ((s1.setCtx c1).beginPreempt c1) else .next (s1.setCtx c1)
  else .next s

/-- RESUME (R388, R405). -/
def execResume (s : State) : Out :=
  runCommand s (· == 0x0A) fun s b =>
    match s.ctx? (cmdP b 0) with
    | none => (s, stBadParam, 0)
    | some c =>
      if c.stage ≠ .saved then (s, stBusy, 0)
      else
        let d := s.readBytes spLocal c.desc 512
        let st := s.descStatus c.desc d
        if st ≠ stOk then (s, st, 0)
        else
          let s1 := s.setCtx { c.fromDesc d with stage := .none, resumed := s.cycle.toNat }
          let wake (q : LaunchQueue) : LaunchQueue :=
            if q.ctx = some c.num then { q with since := s.cycle.toNat, raised := 0, pinned := false } else q
          ({ s1 with queues := s1.queues.map wake }, stOk, 0)

/-- Every entry of a context's ROT becomes FREE. -/
def State.freeRot (s : State) (c : Context) : State := (usedRot s.mem c).foldl (fun a k => (a.devRead c.world (c.rotBase + 32 * k + 8) 1).stWrite c k 0) s

/-- The level-0 window table of a context lies in pages that its walker may use (R79, R84). -/
def State.wrootPass (s : State) (c : Context) : Bool :=
  (walkerPass s.mem c.world c.wroot true).isNone && (walkerPass s.mem c.world (c.wroot + 8191) true).isNone

/-- WINRESET (R59). A level-0 table in pages that the context's walker may not use is the state the command needs and lacks: BUSY
(log entry 24). Of a walk of the address space that is in flight nothing stays: a later access walks anew. -/
def execWinreset (s : State) : Out :=
  runCommand s (· == 0x0B) fun s b =>
    match s.ctx? (cmdP b 0) with
    | none => (s, stBadParam, 0)
    | some c =>
      if !s.quiescent c ∨ !s.wrootPass c then (s, stBusy, 0)
      else
        let s1 := (s.freeRot c).devWrite c.world c.wroot (List.replicate 8192 0)
        let s2 := s1.setCtx { c with wtNext := c.wtPool, cursor := Config.windowBase }
        ({ s2 with tlb := s2.tlb.filter fun e => e.asid != c.asid, walks := s2.walks.filter fun w => w.asid != c.asid }, stOk, 0)

/-! ## Cores and caches -/

/-- A core as the clearing sequencer leaves it (R201, R233, R86): tables, Plate and L1 empty; spare maps persist. -/
def Core.cleared (c : Core) (world : Nat) : Core :=
  let bank (b : CellBank) : CellBank := { CellBank.fresh with retired := b.retired }
  { c with world := some world, bank0 := ActBank.fresh, bank1 := ActBank.fresh, l1 := [],
           plate := { Plate.fresh with bank0 := bank c.plate.bank0, bank1 := bank c.plate.bank1 } }

/-- The enabled cores that a 24-byte mask in host memory names. -/
def State.maskCores (s : State) (addr : Nat) : List Nat :=
  let m := s.readNat spHost addr 24
  (List.range Config.cores).filter fun k => m.testBit k && (s.core k).enabled

/-- CORESET (Table 16.3). -/
def execCoreset (s : State) : Out :=
  runCommand s (· == 0x03) fun s b =>
    let w := cmdP b 1
    let cs := s.maskCores (cmdP b 0)
    if !s.conf ∧ w ≠ 1 then (s, stNotPermitted, 0)
    else if s.conf ∧ (w = 0 ∨ !s.liveWorld w) then (s, stBadParam, 0)
    else if s.teams.any fun t => cs.contains t.core then (s, stBusy, 0)
    else (cs.foldl (fun a k => a.setCore k ((a.core k).cleared w)) s, stOk, 0)

/-- The lines of a world in a slice when its ways there shrink to `n`: those of the ways that change hands are written back and
invalidated; which lines stood in them is free, but no set keeps more lines than ways. -/
def State.waysShrink (s : State) (world slice n : Nat) : State :=
  let mine (l : LlcLine) : Bool := l.world == world && sliceOf (l.line * 128) == slice
  (s.llc.filter mine).foldl (fun a l =>
    let set := (a.llc.filter fun x => mine x && x.line % 4096 == l.line % 4096).length
    if n < set then a.llcDrop l
    else
      let (free, a1) := a.freeBit
      if free then a1.llcDrop l else a1) s

/-- Give a world a way mask in a slice: ways it takes leave the other worlds' masks (R88). -/
def State.setWays (s : State) (world slice : Nat) (mask : BitVec 16) : State :=
  (List.range 16).foldl (fun a w =>
    let x := a.world w
    let old := x.ways.getD slice 0
    let new := if w = world then mask else old &&& ~~~ mask
    let a1 := a.setWorld w { x with ways := x.ways.set slice new }
    if old &&& ~~~ new = 0 then a1 else a1.waysShrink w slice (popc 16 new.toNat)) s

/-- WAYSET (R88). Outside confidential mode world 1 keeps all 16 ways. -/
def execWayset (s : State) : Out :=
  runCommand s (· == 0x04) fun s b =>
    let w := cmdP b 0
    let slice := cmdP b 1
    let mask := cmdP b 2
    if 15 < w ∨ 31 < slice ∨ 0xFFFF < mask then (s, stBadParam, 0)
    else if !s.conf then (s, stOk, 0)
    else if !s.liveWorld w then (s, stBadParam, 0)
    else (s.setWays w slice (BitVec.ofNat 16 mask), stOk, 0)

/-! ## Queues and rings -/

/-- LQBIND (R338). -/
def execLqbind (s : State) : Out :=
  runCommand s (· == 0x05) fun s b =>
    let q := cmdP b 0
    let p := cmdP b 2
    match s.ctx? (cmdP b 1) with
    | none => (s, stBadParam, 0)
    | some c =>
      if 63 < q ∨ (63 < p ∧ p ≠ 0xFF) then (s, stBadParam, 0)
      else
        let s1 := s.setQueue q { s.lqueue q with ctx := some c.num }
        (if p = 0xFF then s1 else s1.setSport p { s1.sport p with asid := some c.asid, queue := some q }, stOk, 0)

/-- SHQREG (R120). -/
def execShqreg (s : State) : Out :=
  runCommand s (· == 0x06) fun s b =>
    let q := cmdP b 0
    let desc := cmdP b 1
    let n := cmdP b 2
    let core := cmdP b 3
    match s.ctx? (cmdP b 4) with
    | none => (s, stBadParam, 0)
    | some c =>
      if 63 < q ∨ desc % 4096 ≠ 0 ∨ n < 4 ∨ 16 < n ∨ Config.cores ≤ core ∨ 63 < cmdP b 5 then (s, stBadParam, 0)
      else
        let x : SharedQueue := { desc := desc, n := n, core := core, ctx := c.num, lq := cmdP b 5, stall := none }
        ({ s with shared := s.shared.set q (some x) }, stOk, 0)

/-- FLTQREG (R377). -/
def execFltqreg (s : State) : Out :=
  runCommand s (· == 0x07) fun s b =>
    let w := cmdP b 0
    let desc := cmdP b 1
    let n := cmdP b 2
    if !s.liveWorld w ∨ desc % 4096 ≠ 0 ∨ n < 6 ∨ 16 < n then (s, stBadParam, 0)
    else
      let s1 := s.setWorld w { s.world w with faultq := some { desc := desc, n := n } }
      ({ s1 with posted := s1.posted.filter fun e => e.world != w }, stOk, 0)

/-- ERRQREG (R289, R290). -/
def execErrqreg (s : State) : Out :=
  runCommand s (· == 0x08) fun s b =>
    let desc := cmdP b 1
    let n := cmdP b 2
    match s.ctx? (cmdP b 0) with
    | none => (s, stBadParam, 0)
    | some c =>
      if desc % 4096 ≠ 0 ∨ n < 4 ∨ 16 < n ∨ !s.systemPages c.world desc (4096 + 32 * 2 ^ n) then (s, stBadParam, 0)
      else if s.readNat spLocal desc 8 ≠ 0 ∨ s.readNat spLocal (desc + 128) 8 ≠ 0 ∨ s.readNat spLocal (desc + 256) 4 ≠ 0 then
        (s, stBadParam, 0)
      else (s.setCtx { c with errq := some { desc := desc, n := n }, errLost := false }, stOk, 0)

/-- Every V bit of a notify ring's entries is zero (Table 12.6). -/
def ringEmpty (m : Memory) (addr n : Nat) : Bool :=
  !(m.any fun p => decide (addr + 4096 ≤ p.1) && decide (p.1 < addr + 4096 + 8 * 2 ^ n) && (p.1 - addr) % 8 == 7 &&
    p.2.getLsbD 7 && !clearedBit m p.1)

/-- RINGREG (R303). -/
def execRingreg (s : State) : Out :=
  runCommand s (· == 0x0F) fun s b =>
    let r := cmdP b 1
    let addr := cmdP b 2
    let n := cmdP b 3
    match s.ctx? (cmdP b 0) with
    | none => (s, stBadParam, 0)
    | some c =>
      if addr % 4096 ≠ 0 ∨ n < 4 ∨ 16 < n ∨ 15 < r then (s, stBadParam, 0)
      else if s.readNat spLocal addr 8 ≠ 0 ∨ s.readNat spLocal (addr + 128) 8 ≠ 0 ∨ !ringEmpty s.mem addr n then (s, stBadParam, 0)
      else (s.setCtx { c with rings := c.rings.filter (fun x => x.1 != r) ++ [(r, { desc := addr, n := n })] }, stOk, 0)

/-! ## Scrubbers, fabric and network -/

/-- SCRUBSET (R95). -/
def execScrubset (s : State) : Out :=
  runCommand s (· == 0x0C) fun s b =>
    let tier := cmdP b 0
    let hours := cmdP b 1
    let target := hours * 3600 * 2400000000
    if 1 < tier ∨ hours < (if tier = 0 then 24 else 72) then (s, stBadParam, 0)
    else if tier = 0 then ({ s with scrubH := { s.scrubH with target := target } }, stOk, 0)
    else ({ s with scrubF := { s.scrubF with target := target } }, stOk, 0)

/-- A link port is enabled by the configuration image and has trained at boot (R414, R292). -/
def State.linkTrained (s : State) (port : Nat) : Bool := s.trained.getLsbD port

/-- The peer that a link port is cabled to (R284). -/
def portPeer (d port : Nat) : Nat := (d + port + 1) % 16

/-- A peer device as this device first meets it. -/
def Peer.fresh (n : Nat) : Peer := { num := n, mem := [], links := ~~~ BitVec.twoPow 16 n, bad := [], tags := [] }

/-- The links of a device that has taken its fabric number: those that trained come up under R296, every other is down. -/
def State.bringUpLinks (s : State) (d n : Nat) : State :=
  let links := (List.range 16).map fun p =>
    if p ≠ d ∧ p < n ∧ (List.range 15).any fun i => portPeer d i == p && s.linkTrained i then Link.fresh.bringUp
    else { Link.fresh with lostAt := s.cycle.toNat }
  let new := ((List.range n).filter fun p => p != d && (s.peer? p).isNone).map Peer.fresh
  { s with fabNum := some d, fabN := n, links := links, peers := s.peers ++ new }

/-- FABSET (R284, R296). -/
def execFabset (s : State) : Out :=
  runCommand s (· == 0x0D) fun s b =>
    let d := cmdP b 0
    let n := cmdP b 1
    if n < 8 ∨ 16 < n ∨ n ≤ d then (s, stBadParam, 0) else (s.bringUpLinks d n, stOk, 0)

/-- The connection that a descriptor describes (R300, R301). The manual gives the descriptor no layout: its fields are free
values (log entry 23). -/
def State.connDesc (s : State) (addr : BitVec 64) : Conn :=
  let x (i : Nat) : Nat := Config.connField s.tick addr i
  let ctx := x 1
  { id := x 0 % 4096, ctx := ctx, world := ((s.ctx? ctx).map (·.world)).getD 0, realm := x 2 % 65536, port := x 3 % 8, peerId := x 4 % 4096,
    peerAddr := BitVec.ofNat 128 (x 5), ring := x 6 % 16, keyed := s.conf, psn := 0, nxt := 0, rxPsn := 0, rxGot := 0, cwnd := 64, credit := 0,
    holdDec := none, silences := 0, lastAct := s.cycle.toNat, rnrUntil := none, failed := false, ece := false, sends := [], wire := [] }

/-- NETCONN (R301): a connection replaces any earlier one of its id. The UDP port of the device comes with it (R300; log 23). -/
def execNetconn (s : State) : Out :=
  runCommand s (· == 0x0E) fun s b =>
    let k := s.connDesc (BitVec.ofNat 64 (cmdP b 0))
    match s.ctx? k.ctx with
    | none => (s, stBadParam, 0)
    | some c =>
      if (c.binding k.realm).isNone then (s, stBadParam, 0)
      else
        let s1 := match s.conn? k.id with
          | some old => s.connFail old
          | none => s
        ({ s1 with conns := s1.conns.filter (fun x => x.id != k.id) ++ [k],
                   udpPort := BitVec.ofNat 16 (Config.connField s.tick (BitVec.ofNat 64 (cmdP b 0)) 7) }, stOk, 0)

/-! ## Worlds (R409, R410) -/

/-- The first link of a world's meter chain: over the identity key, the world and the WORLDNEW count since boot (R412). -/
def State.firstHash (s : State) (w : Nat) : BitVec 384 :=
  Config.sha384 (Config.identityKey s.boots ++ toBytes 1 w ++ toBytes 8 s.worldNews)

/-- A link is added to a world's chain, over the meters as they stand (R412). -/
def World.extend (x : World) (w : Nat) : World :=
  let n := x.linkNo + 1
  let who := if x.tdisp = .unlocked then 0 else x.owner.toNat
  let bytes := toBytes 48 x.hash.toNat ++ toBytes 8 n ++ toBytes 1 w ++ (x.meters.flatMap fun m => toBytes 8 m.toNat) ++ toBytes 8 who
  { x with linkNo := n, hash := Config.sha384 bytes, sampled := x.meters }

/-- WORLDNEW (R409). `failedDraws`: draws whose continuous tests fail, of the first and the three more that are tried. -/
def execWorldnew (failedDraws : Nat) (s : State) : Out :=
  runCommand s (· == 0x10) fun s _ =>
    if !s.conf then (s, stNotPermitted, 0)
    else
      match (List.range 16).find? fun w => w != 0 && !(s.world w).live with
      | none => (s, stNoResource, 0)
      | some w =>
        if s.entropyFailed then (s, stEntropyFailed, 0)
        else if 4 ≤ failedDraws then
          ({ s.security 0xFF 3 (toBytes 8 0) with entropyFailed := true }, stEntropyFailed, 0)
        else
          let s1 := { s with worldNews := s.worldNews + 1, noc := s.noc.filter fun p => p.1 % 16 != w }
          (s1.setWorld w { World.fresh with live := true, keys := true, hash := s1.firstHash w }, stOk, w)

/-- The physical address that an index of the page ownership table stands for (R83). -/
def potPage (i : Nat) : Nat := if i < 0x800000 then i * 65536 else Config.farBase + (i - 0x800000) * 65536

/-- The first byte of every page whose entry names an owner, from the listed bytes of the table: OWNER stands in byte 2. -/
def ownedPages (m : Memory) (w : Nat) : List Nat :=
  (m.filter fun p => decide (Config.potBase ≤ p.1) && decide (p.1 < Config.potBase + 4 * 0x2800000) &&
    (p.1 - Config.potBase) % 4 == 2 && p.2.toNat % 16 == w).map fun p => potPage ((p.1 - Config.potBase) / 4)

/-- A page becomes FREE, with its bit of the cleared bitmap set (R410, R94). -/
def freePage (m : Memory) (pa : Nat) : Memory :=
  let a := Config.potBase + 4 * potIndex pa + 1
  setCleared (sset m a (sget m a &&& 0xF0)) pa true

/-- WORLDFREE (R410). -/
def execWorldfree (s : State) : Out :=
  runCommand s (· == 0x11) fun s b =>
    let w := cmdP b 0
    if !s.conf then (s, stNotPermitted, 0)
    else if w = 0 ∨ !s.liveWorld w then (s, stBadParam, 0)
    else if (s.cores.any fun c => c.world == some w) ∨ s.ctxs.any fun c => c.world == w then (s, stBusy, 0)
    else
      let x := (s.world w).extend w
      let s1 : State := { s with mem := (ownedPages s.mem w).foldl freePage s.mem, llc := s.llc.filter fun l => l.world != w }
      (s1.setWorld w { x with live := false, keys := false, tdisp := .unlocked, owner := 0, faultq := none,
                              ways := List.replicate 32 0 }, stOk, 0)

/-! ## Mode and log -/

/-- MODESET (R408): the mode is recorded and the completion written; only then does the reset begin. -/
def execModeset (s : State) : Out :=
  runCommand s (· == 0x12) fun s b =>
    if 1 < cmdP b 0 then (s, stBadParam, 0)
    else ({ s with confReq := decide (cmdP b 0 = 1), resetReq := true }, stOk, 0)

/-- The oldest entries of the log, as bytes, and the log without them (R418). -/
def State.takeLog (s : State) (n : Nat) : List Byte × State :=
  ((s.log.take n).flatMap LogEntry.bytes, { s with log := s.log.drop n })

/-- LOGREAD (R418). -/
def execLogread (s : State) : Out :=
  runCommand s (· == 0x13) fun s b =>
    let n := min (cmdP b 1) s.log.length
    let (bs, s1) := s.takeLog n
    (s1.writeBytes spHost (cmdP b 0) bs, stOk, n)

end Sys2Proof.Machine
end

