-- ==== Sys2Proof/Machine/Flow.lean ====
section
/-! DEFINITION. Branches and the FLOW and REJOIN majors (14_execution_and_scheduling.md R356 to R364). -/

namespace Sys2Proof.Machine

open Sys2Proof.Bits

/-- Jumps of the lanes of a set to one target. -/
def jumpAll (m : LaneSet) (t : BitVec 64) : List (Nat × BitVec 64) := (lanesOf m).map fun l => (l, t)

/-- BR and BRN (R25, R356): the lanes of the sub-group whose bit of kK is `set` branch. RB must stand (R354). -/
def shortBranch (s : State) (f : FmtB) (set : Bool) : Out :=
  issue s { len := 1, rb := f.rb, nw := f.nw, vdst := false, bad := !f.rb, priv := .user, pfx := .none, badPair := false,
            latches := [] }
    (fun _ => true) fun i s =>
      let k := i.g.kget f.k.toNat
      let m := i.sub &&& (if set then k else ~~~ k)
      (s, { i.eff with jumps := jumpAll m (i.run.pc + 4 * f.off.signExtend 64) })

/-- BR (R356). -/
def execBr (f : FmtB) (s : State) : Out := shortBranch s f true
/-- BRN (R356). -/
def execBrn (f : FmtB) (s : State) : Out := shortBranch s f false

/-- The target of BRA, BRC and CALL (R358). -/
def wordTarget (i : Iss) (f : FmtW) : BitVec 64 := i.pci + 4 * wOff f

/-- BRA (R358). -/
def execBra (f : FmtW) (s : State) : Out :=
  issue s (headW f false (!f.m.rb) []) (fun _ => true) fun i s =>
    (s, { i.eff with jumps := jumpAll (i.act f.m.g.toNat) (wordTarget i f) })

/-- BRC and BRC.z (R358). -/
def execBrc (f : FmtW) (s : State) : Out :=
  let a := src10 f.m.a
  issue s (headW f false (!f.m.rb) [a]) (fun i => srcsOk i [a]) fun i s =>
    let taken := laneSet fun l => decide (i.read a l 15 ≠ 0) != bit f.aux.toNat 0
    (s, { i.eff with jumps := jumpAll (i.act f.m.g.toNat &&& taken) (wordTarget i f) })

/-- CALL (R358). -/
def execCall (f : FmtW) (s : State) : Out :=
  let d := f.m.d.toNat
  issue s (headW f true (!f.m.rb) []) (fun i => dvOk d i.g.budget)
    (onGroup fun i =>
      let m := i.act f.m.g.toNat
      let (g, e) := writeDst i.g i.eff d f.m.nw m fun _ => i.pci + 12
      (g, { e with jumps := jumpAll m (wordTarget i f) }))

/-- RET and JMPI: each active lane goes to the address `t` gives it, or traps MISALIGNED (R358). -/
def laneJump (s : State) (f : FmtW) (off : BitVec 64) : Out :=
  let a := src10 f.m.a
  issue s (headW f false (!f.m.rb) [a]) (fun i => a.address && srcsOk i [a]) fun i s =>
    let t (l : Nat) : BitVec 64 := i.read a l 15 + off
    let act := lanesOf (i.act f.m.g.toNat)
    (s, { i.eff with
      traps := (act.filter fun l => decide ((t l).toNat % 4 ≠ 0)).map fun l =>
        { lane := l, cause := cMisaligned, addr := t l, info := 0, access := 7 }
      jumps := (act.filter fun l => decide ((t l).toNat % 4 = 0)).map fun l => (l, t l) })

/-- RET (R358). -/
def execRet (f : FmtW) (s : State) : Out := laneJump s f 0
/-- JMPI (R358). -/
def execJmpi (f : FmtW) (s : State) : Out := laneJump s f (wOff f)

/-- EXIT (R358). -/
def execExit (f : FmtW) (s : State) : Out :=
  issue s (headW f false (!f.m.rb) []) (fun _ => true) fun i s => (s, { i.eff with exits := i.act f.m.g.toNat })

/-- SPAWN (R359). -/
def execSpawn (f : FmtW) (s : State) : Out :=
  let a := src10 f.m.a
  let d := f.m.d.toNat
  issueMem s (headW f false false []) true (fun _ => a.isG && d8Ok d) fun i s =>
    let off := (i.uni a).toNat
    let trap (c : BitVec 8) : State × Eff := (s, { i.eff with traps := trapSet i.sub c (BitVec.ofNat 64 off) 0 7 })
    match packetCause i.t off with
    | some c => trap c
    | none =>
      if absent (s.core i.core) (i.t.base + off) 64 then (s, { i.eff with parks := [(i.sub, .chunks)] })
      else
        let b := teamPacket s i.t off
        if recBad b || !s.queueBound i.c.lq i.c.num then trap cIllegalOperand
        else if (s.lqueue i.c.lq).full then (lateK s i d false, { i.eff with region := true })
        else
          let s1 := s.enqueue i.c.lq { bytes := b, pc := i.pci, who := some i.g.gid, peer := 0xFF }
          (lateK s1 i d true, { i.eff with region := true })

/-- YIELD (R360): the turn in which it issues is the first to end. -/
def execYield (f : FmtW) (s : State) : Out :=
  let a := src10 f.m.a
  issue s (headW f false (!f.m.rb) []) (fun _ => a.uniform) fun i s =>
    let n := (i.uni a).toNat
    if 63 < n then (s, { i.eff with traps := trapSet i.sub cIllegalOperand 0 0 7 })
    else (s, { i.eff with parks := [(i.sub, .turns (n + 1))] })

/-- IDEM (R361). -/
def execIdem (f : FmtW) (s : State) : Out :=
  issue s (headW f false false []) (fun _ => true) fun i s => (s, { i.eff with region := true })

/-! ## Rejoin masks (R363, R364) -/

/-- JENR. -/
def execJenr (f : FmtM) (s : State) : Out :=
  let d := f.d.toNat
  issue s (headM f false false .none []) (fun _ => d8Ok d && decide (f.a.toNat < 8))
    (onGroup fun i => (i.g.jset d (i.g.jget d ||| (i.g.kget f.a.toNat &&& i.act f.g.toNat)), i.eff))

/-- JSTRK. -/
def execJstrk (f : FmtM) (s : State) : Out :=
  let d := f.d.toNat
  issue s (headM f false false .none []) (fun _ => d8Ok d)
    (onGroup fun i => ((i.g.jset d (i.g.jget d &&& ~~~ i.act f.g.toNat)).release d, i.eff))

/-- JCLR. -/
def execJclr (f : FmtM) (s : State) : Out :=
  let d := f.d.toNat
  issue s (headM f false false .none []) (fun _ => d8Ok d)
    (onGroup fun i => ((i.g.jset d 0).release d, i.eff))

/-- JWAIT. -/
def execJwait (f : FmtM) (s : State) : Out :=
  let d := f.d.toNat
  issue s (headM f false false .none []) (fun _ => d8Ok d)
    (onGroup fun i =>
      let m := i.act f.g.toNat
      let g := i.g.jset d (i.g.jget d &&& ~~~ m)
      if g.jget d = 0 then (g.release d, i.eff) else (g, { i.eff with parks := [(m, .rejoin d)] }))

end Sys2Proof.Machine
end

