-- ==== Sys2Proof/Machine/Grp.lean ====
section
/-! DEFINITION. The GRP, MASK and LIT majors (06_registers_and_scratchpad.md R153 to R156). -/

namespace Sys2Proof.Machine

open Sys2Proof.Bits

/-- A GRP minor that writes g_d: uniform sources, TY S64, N64 or B64 (R153). -/
def grp (s : State) (f : FmtM) (n : Nat) (ok : Bool) (op : Nat → BitVec 64 → BitVec 64 → BitVec 64 → BitVec 64) : Out :=
  let ty := f.ty.toNat
  let srcs := [src10 f.a, src10 f.b, src10 f.c].take n
  issue s (headM f false (!(ty == 3 || ty == 7 || ty == 15)) .none [])
    (fun _ => dgOk f.d.toNat && ok && srcs.all Src.uniform)
    (onGroup fun i =>
      let v (k : Nat) : BitVec 64 := i.uni (srcs.getD k .zero)
      (i.g.gset f.d.toNat (op ty (v 0) (v 1) (v 2)), i.eff))

/-- GMOV (R153). -/
def execGmov (f : FmtM) (s : State) : Out := grp s f 1 true fun _ a _ _ => a
/-- GADD (R153). -/
def execGadd (f : FmtM) (s : State) : Out := grp s f 2 true fun _ a b _ => a + b
/-- GSUB (R153). -/
def execGsub (f : FmtM) (s : State) : Out := grp s f 2 true fun _ a b _ => a - b
/-- GMUL (R153). -/
def execGmul (f : FmtM) (s : State) : Out := grp s f 2 true fun _ a b _ => a * b
/-- GAND (R153). -/
def execGand (f : FmtM) (s : State) : Out := grp s f 2 true fun _ a b _ => a &&& b
/-- GOR (R153). -/
def execGor (f : FmtM) (s : State) : Out := grp s f 2 true fun _ a b _ => a ||| b
/-- GXOR (R153). -/
def execGxor (f : FmtM) (s : State) : Out := grp s f 2 true fun _ a b _ => a ^^^ b
/-- GSHL (R153). -/
def execGshl (f : FmtM) (s : State) : Out := grp s f 2 true fun _ a b _ => a <<< (b.toNat % 64)
/-- GSHR (R153). -/
def execGshr (f : FmtM) (s : State) : Out := grp s f 2 true fun _ a b _ => a >>> (b.toNat % 64)
/-- GSAR (R153). -/
def execGsar (f : FmtM) (s : State) : Out := grp s f 2 true fun _ a b _ => a.sshiftRight (b.toNat % 64)

/-- GCMP (R153): C is an immediate condition. -/
def execGcmp (f : FmtM) (s : State) : Out :=
  let c := src10 f.c
  grp s f 2 (c.isImm && decide (c.raw ≤ 5)) fun ty a b _ =>
    if icond c.raw (ival ty a.toNat) (ival ty b.toNat) then 1 else 0

/-- GSEL (R153). -/
def execGsel (f : FmtM) (s : State) : Out := grp s f 3 true fun _ a b c => if c ≠ 0 then a else b

/-- VTOG (R154): the lane is B mod 32, active or not. -/
def execVtog (f : FmtM) (s : State) : Out :=
  let a := src10 f.a
  let b := src10 f.b
  issue s (headM f false false .none [a]) (fun i => dgOk f.d.toNat && b.uniform && srcsOk i [a])
    (onGroup fun i => (i.g.gset f.d.toNat (i.read a ((i.uni b).toNat % 32) 15), i.eff))

/-- GTOV (R154): every active lane's v_d takes the uniform value. -/
def execGtov (f : FmtM) (s : State) : Out :=
  let a := src10 f.a
  issue s (headM f true false .none []) (fun i => dvOk f.d.toNat i.g.budget && a.uniform)
    (onGroup (vecPlain f.d.toNat f.g.toNat f.nw fun i _ => (lanes32.map fun _ => i.uni a, 0)))

/-! ## Masks -/

/-- A field that names a mask register (R155): the number in bits [2:0], every other bit zero. -/
def kNum (x : BitVec 10) : Nat := x.toNat
def kOk (x : BitVec 10) : Bool := decide (x.toNat < 8)

/-- A MASK minor that writes k_d from mask registers. -/
def maskOp (s : State) (f : FmtM) (two : Bool) (op : LaneSet → LaneSet → LaneSet) : Out :=
  issue s (headM f false false .none []) (fun _ => d8Ok f.d.toNat && kOk f.a && (!two || kOk f.b))
    (onGroup fun i => (i.g.kset f.d.toNat (op (i.g.kget (kNum f.a)) (i.g.kget (kNum f.b))), i.eff))

/-- KSET (R155). -/
def execKset (f : FmtM) (s : State) : Out :=
  let a := src10 f.a
  issue s (headM f false false .none []) (fun _ => d8Ok f.d.toNat && a.uniform)
    (onGroup fun i => (i.g.kset f.d.toNat ((i.uni a).setWidth 32), i.eff))

/-- KAND (R155). -/
def execKand (f : FmtM) (s : State) : Out := maskOp s f true fun a b => a &&& b
/-- KOR (R155). -/
def execKor (f : FmtM) (s : State) : Out := maskOp s f true fun a b => a ||| b
/-- KXOR (R155). -/
def execKxor (f : FmtM) (s : State) : Out := maskOp s f true fun a b => a ^^^ b
/-- KNOT (R155). -/
def execKnot (f : FmtM) (s : State) : Out := maskOp s f false fun a _ => ~~~ a
/-- KMOV (R155). -/
def execKmov (f : FmtM) (s : State) : Out := maskOp s f false fun a _ => a

/-- KPOP and KFIRST write a g register. -/
def maskCount (s : State) (f : FmtM) (op : LaneSet → Nat) : Out :=
  issue s (headM f false false .none []) (fun _ => dgOk f.d.toNat && kOk f.a)
    (onGroup fun i => (i.g.gset f.d.toNat (BitVec.ofNat 64 (op (i.g.kget (kNum f.a)))), i.eff))

/-- KPOP (R155). -/
def execKpop (f : FmtM) (s : State) : Out := maskCount s f fun m => popc 32 m.toNat
/-- KFIRST (R155). -/
def execKfirst (f : FmtM) (s : State) : Out := maskCount s f fun m => ctz 32 m.toNat

/-! ## Literals -/

/-- Head of the five-word format (R23). -/
def headWL (f : FmtWL) (vdst : Bool) : Head :=
  { headW f.w vdst false [] with len := 5 }

/-- VLDI (R156). -/
def execVldi (f : FmtWL) (s : State) : Out :=
  issue s (headWL f true) (fun i => dvOk f.w.m.d.toNat i.g.budget)
    (onGroup (vecPlain f.w.m.d.toNat f.w.m.g.toNat f.w.m.nw fun _ _ => (lanes32.map fun _ => f.lit, 0)))

/-- GLDI (R156). -/
def execGldi (f : FmtWL) (s : State) : Out :=
  issue s (headWL f false) (fun _ => dgOk f.w.m.d.toNat)
    (onGroup fun i => (i.g.gset f.w.m.d.toNat f.lit, i.eff))

end Sys2Proof.Machine
end

