-- ==== Sys2Proof/Machine/Vflt.lean ====
section
/-! DEFINITION. The VFLT major and the short forms that execute as it (08_vector_unit.md R188 to R195,
02_instruction_words.md R35). -/

namespace Sys2Proof.Machine

open Sys2Proof.Bits

/-! The element operations of Table 8.5. FMODE RM = 5 rounds RNE here (R164). -/

def opFadd : EltOp := fun md ty pos a b _ =>
  rounded md.plain ty pos (fadd md.rdn (fread md ty a) (fread md ty b))
def opFsub : EltOp := fun md ty pos a b _ =>
  rounded md.plain ty pos (fadd md.rdn (fread md ty a) (fread md ty b).neg)
def opFmul : EltOp := fun md ty pos a b _ =>
  rounded md.plain ty pos (fmul (fread md ty a) (fread md ty b))
def opFfma : EltOp := fun md ty pos a b c =>
  rounded md.plain ty pos (ffma md.rdn (fread md ty a) (fread md ty b) (fread md ty c))
def opFfms : EltOp := fun md ty pos a b c =>
  rounded md.plain ty pos (ffma md.rdn (fread md ty a) (fread md ty b) (fread md ty c).neg)
def opFmin : EltOp := fun md ty _ a b _ => fminmax md ty false a b
def opFmax : EltOp := fun md ty _ a b _ => fminmax md ty true a b
/-- FABS clears the sign bit (R190). -/
def opFabs : EltOp := fun _ ty _ a _ _ => (a % fsign ty, 0)
/-- FNEG inverts the sign bit (R190). -/
def opFneg : EltOp := fun _ ty _ a _ _ => (a ^^^ fsign ty, 0)

/-- FCLASS (Table 8.6); SUBN is ignored. -/
def opFclass : EltOp := fun _ ty _ a _ _ =>
  (match fval ty a with
   | .nan s => if s then 8 else 9
   | .inf n => if n then 0 else 7
   | .fin n m _ =>
     if m = 0 then (if n then 3 else 4)
     else if isSub ty a then (if n then 2 else 5) else (if n then 1 else 6), 0)

/-- FROUND (R194). -/
def opFround : EltOp := fun md ty _ a _ _ =>
  match fread md ty a with
  | .nan s => (fnan ty, if s then fNV else 0)
  | .inf _ => (a, 0)
  | .fin n m e =>
    let (r, nx) := roundInt md.plain.rm 0 n m e
    ((roundFull Modes.exactRne 0 ty (.fin n r 0) false).1, if nx then fNX else 0)

/-- FSCALE (R194): B is a two's complement integer of the type's width. -/
def opFscale : EltOp := fun md ty pos a b _ =>
  match fread md ty a with
  | .nan s => (fnan ty, if s then fNV else 0)
  | .inf n => roundTo md.plain ty (.inf n) pos
  | .fin n m e => roundTo md.plain ty (.fin n m (e + sval (tyW ty) b)) pos

/-- The integer type of a floating type's width. -/
def intTy (ty : Nat) : Nat :=
  match tyW ty with
  | 8 => 0
  | 16 => 1
  | 32 => 2
  | _ => 3

/-- Types 8 to 11, and 8 to 13. -/
def tyF4 (ty : Nat) : Bool := decide (8 ≤ ty) && decide (ty ≤ 11)

/-- A VFLT minor with `n` sources. -/
def vflt (s : State) (f : FmtM) (small fma : Bool) (n : Nat) (op : EltOp) : Out :=
  let ty := f.ty.toNat
  let srcs := [src10 f.a, src10 f.b, src10 f.c].take n
  arith s (headM f true (!(tyF4 ty || (small && tyFloat ty))) .float srcs) f.d.toNat f.g.toNat ty f.nw fma
    (srcs.map fun x => (x, ty)) op

/-- A short form of a VFLT minor (R35): guard k0. -/
def vfltShort (s : State) (f : FmtS) (ty : Nat) (op : EltOp) : Out :=
  let srcs := [src7 f.a, src7 f.b]
  arith s (headS f true false .float srcs) f.d.toNat 0 ty f.nw false (srcs.map fun x => (x, ty)) op

/-- FADD (R189). -/
def execFadd (f : FmtM) (s : State) : Out := vflt s f false false 2 opFadd
/-- FSUB (R189). -/
def execFsub (f : FmtM) (s : State) : Out := vflt s f false false 2 opFsub
/-- FMUL (R189). -/
def execFmul (f : FmtM) (s : State) : Out := vflt s f false false 2 opFmul
/-- FFMA (R189). -/
def execFfma (f : FmtM) (s : State) : Out := vflt s f false true 3 opFfma
/-- FFMS (R189). -/
def execFfms (f : FmtM) (s : State) : Out := vflt s f false true 3 opFfms
/-- FMIN (R191). -/
def execFmin (f : FmtM) (s : State) : Out := vflt s f false false 2 opFmin
/-- FMAX (R191). -/
def execFmax (f : FmtM) (s : State) : Out := vflt s f false false 2 opFmax
/-- FABS (R190). -/
def execFabs (f : FmtM) (s : State) : Out := vflt s f true false 1 opFabs
/-- FNEG (R190). -/
def execFneg (f : FmtM) (s : State) : Out := vflt s f true false 1 opFneg
/-- FCLASS (R193). -/
def execFclass (f : FmtM) (s : State) : Out := vflt s f true false 1 opFclass
/-- FROUND (R194). -/
def execFround (f : FmtM) (s : State) : Out := vflt s f false false 1 opFround

/-- FSCALE (R194): an immediate in B is sign-extended, not converted. -/
def execFscale (f : FmtM) (s : State) : Out :=
  let ty := f.ty.toNat
  arith s (headM f true (!tyF4 ty) .float [src10 f.a, src10 f.b]) f.d.toNat f.g.toNat ty f.nw false
    [(src10 f.a, ty), (src10 f.b, intTy ty)] opFscale

/-- The conditions of R192 with the flags they raise. -/
def fcond : CmpOp := fun md ty cc a b =>
  let a := fin md ty a
  let b := fin md ty b
  let va := fval ty a
  let vb := fval ty b
  let un := va.isNan || vb.isNan
  let x := fkey0 ty a
  let y := fkey0 ty b
  let ordered := decide (2 ≤ cc) && decide (cc ≤ 5)
  (match cc with
   | 6 => un
   | 7 => !un
   | 1 => un || decide (x ≠ y)
   | _ => !un && icond' cc x y,
   if (ordered && un) || va.isSnan || vb.isSnan then fNV else 0)
where
  /-- The ordered conditions of Table 8.4. -/
  icond' (cc : Nat) (x y : Int) : Bool :=
    match cc with
    | 0 => decide (x = y)
    | 2 => decide (x < y)
    | 3 => decide (x ≤ y)
    | 4 => decide (y < x)
    | _ => decide (y ≤ x)

/-- FCMP (R192). -/
def execFcmp (f : FmtM) (s : State) : Out := compare s f (tyF4 f.ty.toNat) .float 7 fcond

/-- FADD.F32, short (R35). -/
def execFaddF32Short (f : FmtS) (s : State) : Out := vfltShort s f 10 opFadd
/-- FSUB.F32, short (R35). -/
def execFsubF32Short (f : FmtS) (s : State) : Out := vfltShort s f 10 opFsub
/-- FMUL.F32, short (R35). -/
def execFmulF32Short (f : FmtS) (s : State) : Out := vfltShort s f 10 opFmul
/-- FMAX.F32, short (R35). -/
def execFmaxF32Short (f : FmtS) (s : State) : Out := vfltShort s f 10 opFmax
/-- FADD.F16, short (R35). -/
def execFaddF16Short (f : FmtS) (s : State) : Out := vfltShort s f 8 opFadd
/-- FMUL.F16, short (R35). -/
def execFmulF16Short (f : FmtS) (s : State) : Out := vfltShort s f 8 opFmul
/-- FADD.BF16, short (R35). -/
def execFaddBf16Short (f : FmtS) (s : State) : Out := vfltShort s f 9 opFadd
/-- FMUL.BF16, short (R35). -/
def execFmulBf16Short (f : FmtS) (s : State) : Out := vfltShort s f 9 opFmul

end Sys2Proof.Machine
end

