-- ==== Sys2Proof/Machine/Pair.lean ====
section
/-! DEFINITION. Paired issue (02_instruction_words.md R38 to R41, 08_vector_unit.md R213), the prefix word (R30 to R33) and
an instruction word that names nothing (R28). -/

namespace Sys2Proof.Machine

open Sys2Proof.Bits

/-- What a slot's OP names (R39): whether it is unary, multiply-class, and its element operation. -/
structure SlotOp where
  unary : Bool
  mul   : Bool
  op    : EltOp

/-- The pairable operations of R39; `none`: reserved, or not pairable. -/
def slotOp (op : Nat) : Option SlotOp :=
  match op with
  | 0 => some ⟨false, false, opVadd⟩
  | 1 => some ⟨false, false, opVsub⟩
  | 2 => some ⟨false, true, opVmul⟩
  | 3 => some ⟨false, true, opVmulh⟩
  | 5 => some ⟨false, false, opVmin⟩
  | 6 => some ⟨false, false, opVmax⟩
  | 7 => some ⟨true, false, opVabs⟩
  | 8 => some ⟨true, false, opVneg⟩
  | 9 => some ⟨false, false, opVand⟩
  | 10 => some ⟨false, false, opVor⟩
  | 11 => some ⟨false, false, opVxor⟩
  | 12 => some ⟨true, false, opVnot⟩
  | 13 => some ⟨false, false, opVshl⟩
  | 14 => some ⟨false, false, opVshr⟩
  | 15 => some ⟨false, false, opVsar⟩
  | 16 => some ⟨false, false, opVrot⟩
  | 17 => some ⟨true, false, opVclz⟩
  | 18 => some ⟨true, false, opVpopc⟩
  | 21 => some ⟨true, false, opVmov⟩
  | 32 => some ⟨false, false, opFadd⟩
  | 33 => some ⟨false, false, opFsub⟩
  | 34 => some ⟨false, true, opFmul⟩
  | 37 => some ⟨false, false, opFmin⟩
  | 38 => some ⟨false, false, opFmax⟩
  | 39 => some ⟨true, false, opFabs⟩
  | 40 => some ⟨true, false, opFneg⟩
  | 44 => some ⟨false, false, opFscale⟩
  | _ => none

/-- OP 23–31 and 45–63 raise ILLEGAL_INSTRUCTION (R39). -/
def slotReserved (op : Nat) : Bool := (decide (23 ≤ op) && decide (op ≤ 31)) || decide (45 ≤ op)

/-- A slot's type (R39). -/
def slotTy (x : PairSlot) : Nat := if x.op.toNat < 32 then (if x.t then 1 else 2) else (if x.t then 8 else 10)

/-- A slot's used sources with the types they are read under; B of FSCALE is an integer (R194). -/
def slotSrcs (x : PairSlot) : List TySrc :=
  let a := (src7 x.a, slotTy x)
  let b := (src7 x.b, if x.op.toNat = 44 then intTy (slotTy x) else slotTy x)
  match slotOp x.op.toNat with
  | some o => if o.unary then [a] else [a, b]
  | none => if x.op.toNat = 42 ∨ x.op.toNat = 43 then [a] else [a, b]

/-- The vector registers a slot reads. -/
def slotReads (x : PairSlot) : List Nat :=
  (slotSrcs x).filterMap fun p => match p.1 with
    | .v n => some n
    | _ => none

/-- The pair check of step 5 (R39, R40). Two slots that write nothing (NW = 1) do not write the same D. -/
def badPair (f : FmtD) : Bool :=
  match slotOp f.x.op.toNat, slotOp f.y.op.toNat with
  | some ox, some oy =>
    let all := (slotReads f.x ++ slotReads f.y).eraseDups
    decide (3 < all.length) || decide ((all.map (· % 4)).eraseDups.length < all.length) || (ox.mul && oy.mul) ||
      (!f.nw && f.x.d == f.y.d) || (slotReads f.x).contains f.y.d.toNat || (slotReads f.y).contains f.x.d.toNat
  | _, _ => true

/-- One slot's results over the active lanes. -/
def slotResults (x : PairSlot) (i : Iss) (m : LaneSet) : List (BitVec 64) × Flags :=
  match slotOp x.op.toNat with
  | some o => eltwise i (slotTy x) m (slotSrcs x) o.op
  | none => ([], 0)

/-- PAIR (R41): both slots read the state before the pair; X's result enters the latches first. -/
def execPair (f : FmtD) (s : State) : Out :=
  let h : Head :=
    { len := 2, rb := f.rb, nw := f.nw, vdst := true, bad := slotReserved f.x.op.toNat || slotReserved f.y.op.toNat,
      priv := .user, pfx := .none, badPair := badPair f,
      latches := (slotSrcs f.x ++ slotSrcs f.y).flatMap fun p => p.1.latchNo }
  issue s h
    (fun i => dvOk f.x.d.toNat i.g.budget && dvOk f.y.d.toNat i.g.budget && tySrcsOk i (slotSrcs f.x ++ slotSrcs f.y))
    (fun i s =>
      let m := i.act 0
      let (rx, fx) := slotResults f.x i m
      let (ry, fy) := slotResults f.y i m
      let (g1, e1) := writeDst i.g i.eff f.x.d.toNat f.nw m (fun l => rx.getD l 0)
      let (g2, e2) := writeDst g1 e1 f.y.d.toNat f.nw m (fun l => ry.getD l 0)
      ((s.countOps i m (tyP (slotTy f.x) + tyP (slotTy f.y))).setGroup i.key (g2.raise i.modes (fx ||| fy)), e2))

/-- PFX (R30 to R33, R352, R353). The prefix is held by the run until the word after it issues: what that word accepts, and whether it
would begin a run, is judged there, in the order of R29. A second prefix after one, and a prefix with RB = 1, raise ILLEGAL_PREFIX.
A prefix that would be the 24th instruction raises RUN_TOO_LONG, which R352 puts before every check of R29: also where it has
RB = 1, where another prefix follows it or where its instruction would begin a run, which R32 and R353 leave open (DESIGN CHOICE, log
entry 73). -/
def execPfx (f : FmtP) (s : State) : Out :=
  match s.iss? with
  | none => .fault .noIssuingRun
  | some i =>
    if i.run.pfx.isSome then .next (decodeTrap s i 1 false cIllegalPrefix)
    else if Config.runLimit ≤ i.run.count + 1 then .next (decodeTrap s i 1 false cRunTooLong)
    else if f.rb then .next (decodeTrap s i 1 false cIllegalPrefix)
    else
      .next (s.setPort i.core i.port
        { (s.core i.core).port i.port with run := some { i.run with pfx := some f, pc := i.run.pc + 4, count := i.run.count + 1 } })

/-- A word that names no instruction (R28): ILLEGAL_INSTRUCTION for the sub-group; the run's boundary is still read from
its RB. -/
def execReservedMajor (w0 : Word) (rest : List Word) (s : State) : Out :=
  issue s
    { len := rest.length + 1, rb := w0.getLsbD 29, nw := false, vdst := true, bad := true, priv := .user, pfx := .none,
      badPair := false, latches := [] }
    (fun _ => true) (onGroup fun i => (i.g, i.eff))

end Sys2Proof.Machine
end

