-- ==== Sys2Proof/Machine/Vcvt.lean ====
section
/-! DEFINITION. The VCVT major (07_number_formats.md R172 to R179). -/

namespace Sys2Proof.Machine

open Sys2Proof.Bits

/-- Convert of Table 7.10. -/
def convert (md : Modes) (sty dty pos a : Nat) : Nat × Flags :=
  if tyFloat sty then
    if tyFloat dty then
      let x := fread md sty a
      rounded md dty pos (x, snanFlag [x])
    else
      match fread md sty a with
      | .nan _ => (0, fNV)
      | .inf n => (wrap (tyW dty) (if n then imin dty else imax dty), fNV)
      | .fin n m e =>
        let (r, nx) := roundInt md.rm (ditherAt md pos) n m e
        let v : Int := if n then -(r : Int) else r
        if v < imin dty then (wrap (tyW dty) (imin dty), fNV)
        else if imax dty < v then (wrap (tyW dty) (imax dty), fNV)
        else (wrap (tyW dty) v, if nx then fNX else 0)
  else
    let v := ival sty a
    if tyFloat dty then roundTo md dty (.fin (decide (v < 0)) v.natAbs 0) pos else fit md dty v

/-- A code operand (R172): an immediate, read unsigned. -/
def codeOf (x : BitVec 10) : Nat := (src10 x).raw

/-- CVT (R173). DESIGN CHOICE (log entry 76): R179 calls a 7-bit code with its top bit set reserved, and R173, R174 and Table 7.9 give H
the values 4 to 7, which set it, where r is 8; an H below r is taken here and in CVTQ. -/
def execCvt (f : FmtM) (s : State) : Out :=
  let dty := f.ty.toNat
  let isCode := (src10 f.b).isImm
  let sty := fld (codeOf f.b) 0 4
  let h := fld (codeOf f.b) 4 3
  let ws := tyW sty
  let wd := tyW dty
  let p := 64 / max ws wd
  let narrow := decide (wd < ws)
  let l : List TySrc := if narrow then [(src10 f.a, sty), (src10 f.c, dty)] else [(src10 f.a, sty)]
  issue s (headM f true (decide (13 < dty) || (isCode && sty == dty)) .conv (l.map Prod.fst))
    (fun i => dvOk f.d.toNat i.g.budget && isCode && decide (sty ≤ 13) && decide (h < max ws wd / min ws wd) && tySrcsOk i l)
    (onGroup (vecPlain f.d.toNat f.g.toNat f.nw fun i m =>
      let rows := lanes32.map fun lane =>
        if inSet m lane then
          let cs := (List.range p).map fun k =>
            let si := if ws < wd then k + h * p else k
            convert i.modes sty dty (lane + 32 * si) (elt i l 0 lane si)
          (pack wd ((List.range (64 / wd)).map fun k =>
            if narrow then (if h * p ≤ k ∧ k < h * p + p then (cs.getD (k - h * p) (0, 0)).1 else elt i l 1 lane k)
            else (cs.getD k (0, 0)).1), orFlags (cs.map Prod.snd))
        else (0, 0)
      (rows.map Prod.fst, orFlags (rows.map Prod.snd))))

/-- The GQ4 codebook (Table 7.2). -/
def gq4Levels : List Int := [-127, -95, -72, -54, -39, -25, -12, 0, 11, 23, 36, 50, 66, 84, 104, 127]

/-- The level of an index. -/
def gq4Level (i : Nat) : Int := gq4Levels.getD i 0

/-- The GQ4 index of a value (R174). -/
def quantize (md : Modes) (pos : Nat) (x : FVal) : Nat × Flags :=
  match x with
  | .nan _ => (7, fNV)
  | .inf n => (if n then 0 else 15, fSAT ||| fNX)
  | .fin n m e =>
    -- the value × 128 is num ÷ 2^k
    let k := min (-(e + 7)).toNat 400
    let mag := if 0 ≤ e + 7 then m * 2 ^ (e + 7).toNat else if 400 < (-(e + 7)).toNat ∧ m ≠ 0 then 1 else m
    let num : Int := if n then -(mag : Int) else mag
    let at' (l : Int) : Int := l * (2 ^ k : Nat)
    if num < at' (-127) then (0, fSAT ||| fNX)
    else if at' 127 < num then (15, fSAT ||| fNX)
    else
      match gq4Levels.findIdx? fun l => at' l == num with
      | some i => (i, 0)
      | none =>
        let hi := (gq4Levels.findIdx? fun l => decide (num < at' l)).getD 15
        let lo := hi - 1
        let dl := num - at' (gq4Level lo)
        let dh := at' (gq4Level hi) - num
        let near0 := if (gq4Level lo).natAbs < (gq4Level hi).natAbs then lo else hi
        let far0 := if near0 = lo then hi else lo
        let pick := match md.rm with
          | .rne => if dl < dh then lo else if dh < dl then hi else near0
          | .rna => if dl < dh then lo else if dh < dl then hi else far0
          | .rtz => near0
          | .rup => hi
          | .rdn => lo
          | .dither => if 128 * (dl + dh) ≤ 128 * dl + (ditherAt md pos : Int) * (dl + dh) then hi else lo
        (pick, fNX)

/-- CVTQ (R174). -/
def execCvtq (f : FmtM) (s : State) : Out :=
  let isCode := (src10 f.b).isImm
  let sty := fld (codeOf f.b) 0 4
  let h := fld (codeOf f.b) 4 3
  let ws := tyW sty
  let p := 64 / ws
  let l : List TySrc := [(src10 f.a, sty), (src10 f.c, 14)]
  issue s (headM f true (f.ty != 14) .conv (l.map Prod.fst))
    (fun i => dvOk f.d.toNat i.g.budget && isCode && decide (8 ≤ sty) && decide (sty ≤ 10) && decide (h < ws / 4) &&
      tySrcsOk i l)
    (onGroup (vecPlain f.d.toNat f.g.toNat f.nw fun i m =>
      let rows := lanes32.map fun lane =>
        if inSet m lane then
          let cs := (List.range p).map fun k => quantize i.modes (lane + 32 * k) (fread i.modes sty (elt i l 0 lane k))
          (pack 4 ((List.range 16).map fun k =>
            if h * p ≤ k ∧ k < h * p + p then (cs.getD (k - h * p) (0, 0)).1 else elt i l 1 lane k),
           orFlags (cs.map Prod.snd))
        else (0, 0)
      (rows.map Prod.fst, orFlags (rows.map Prod.snd))))

/-- One position's PBF block from the elements of 32 lanes (R175): the biased exponent, and each lane's mantissa with its
flags. DESIGN CHOICE (log entry 76): an infinite element takes the capped mantissa with OF and NX, as R175's list says, where its
pseudocode would round the largest finite value and may clamp it. -/
def pbfEncode (md : Modes) (ty b pos : Nat) (xs : List Nat) : Nat × List (Int × Flags) :=
  let cap : Int := (2 ^ (b - 1) : Nat) - 1
  let vals := xs.map fun x => match fread md ty x with
    | .nan _ => ((false, 0, 0), fNV)
    | .inf n =>
      (match fval ty (fmaxCode ty) with
       | .fin _ m e => (n, m, e)
       | _ => (n, 0, 0), fOF ||| fNX)
    | .fin n m e => ((n, m, e), (0 : Flags))
  let tops := vals.filterMap fun v => if v.1.2.1 = 0 then none else some (v.1.2.2 + (v.1.2.1.log2 : Int))
  match tops with
  | [] => (0, vals.map fun v => (0, if v.2 = fNV then fNV else 0))
  | t0 :: r =>
    let e := r.foldl max t0
    if e < -127 then
      (0, vals.map fun v => (0, if v.2 = fNV then fNV else if v.1.2.1 = 0 then 0 else fUF ||| fNX))
    else
      ((e + 128).toNat, (lanes32.zip vals).map fun p =>
        let lane := p.1
        let (n, m, ex) := p.2.1
        if p.2.2 = fNV then (0, fNV)
        else if p.2.2 ≠ 0 then (if n then -cap else cap, fOF ||| fNX)
        else
          let (q, nx) := roundInt md.rm (ditherAt md (lane + pos)) n m (ex + b - 2 - e)
          let fl : Flags := if nx then fNX else 0
          if cap < q then (if n then -cap else cap, fl ||| fSAT) else (if n then -(q : Int) else q, fl))

/-- PBF mantissa bits of a code (R175). -/
def pbfBits (c : Nat) : Nat := [4, 6, 8, 12].getD c 4

/-- CVTB (R175). -/
def execCvtb (f : FmtM) (s : State) : Out :=
  let ty := f.ty.toNat
  let d := f.d.toNat
  let code := codeOf f.b
  let b := pbfBits (code % 4)
  let w := tyW ty
  let p := 64 / w
  let l : List TySrc := [(src10 f.a, ty)]
  issue s (headM f true (!(decide (8 ≤ ty) && decide (ty ≤ 10))) .conv [src10 f.a])
    (fun i => dvOk d i.g.budget && dvOk (d + 1) i.g.budget && (src10 f.b).isImm && decide (code < 4) && tySrcsOk i l)
    (onGroup fun i =>
      let m := i.act f.g.toNat
      let blocks := (List.range p).map fun k => pbfEncode i.modes ty b (32 * k) (lanes32.map fun lane => elt i l 0 lane k)
      let res0 (lane : Nat) : BitVec 64 :=
        pack 16 ((List.range 4).map fun k => match blocks[k]? with
          | some bl => wrap 16 (bl.2.getD lane (0, 0)).1
          | none => 0)
      let ex := pack 8 ((List.range 8).map fun k => (blocks.getD k (0, [])).1)
      let fl := orFlags (blocks.flatMap fun bl => (lanesOf m).map fun lane => (bl.2.getD lane (0, 0)).2)
      let (g1, e) := writeDst i.g i.eff d f.nw m res0
      let g2 := if f.nw then g1 else g1.vset (d + 1) m (fun _ => ex)
      (g2.raise i.modes fl, e))

/-- The exact value of a GQ4 element (R160, R176): level × q × 2^−15 × ss. -/
def gq4Value (lev : Int) (q ss : Nat) : FVal × Flags :=
  if lev = 0 ∨ q = 0 then (.fin false 0 0, 0)
  else fmul (.fin (decide (lev < 0)) (lev.natAbs * q) (-15)) (fval 10 ss)

/-- DQ (R176). -/
def execDq (f : FmtM) (s : State) : Out :=
  let ty := f.ty.toNat
  let code := codeOf f.c
  let h := code % 8
  let src := code / 8
  let p := 64 / tyW ty
  let l : List TySrc := [(src10 f.a, 15), (src10 f.b, 15)]
  issue s (headM f true (!(decide (8 ≤ ty) && decide (ty ≤ 10))) .float (l.map Prod.fst))
    (fun i => dvOk f.d.toNat i.g.budget && (src10 f.c).isImm && decide (src ≤ 4) &&
      decide (h < (if src = 0 then 16 else 4) / p) && tySrcsOk i l)
    (onGroup (vecPlain f.d.toNat f.g.toNat f.nw fun i m =>
      let md := i.modes.plain
      let one (a g lane k : Nat) : Nat × Flags :=
        let x : FVal × Flags :=
          if src = 0 then gq4Value (gq4Level (fld a (4 * k) 4)) (fld g 32 8) (fld g 0 32)
          else
            let b := pbfBits (src - 1)
            let v := sval b (fld a (16 * k) b)
            (.fin (decide (v < 0)) v.natAbs ((fld g (8 * k) 8 : Int) - 127 - (b - 1)), 0)
        if x.1.isZero then (0, x.2) else rounded md ty (lane + 32 * k) x
      let rows := lanes32.map fun lane =>
        if inSet m lane then
          let a := (i.read (src10 f.a) lane 15).toNat
          let g := (i.read (src10 f.b) lane 15).toNat
          (List.range p).map fun k => one a g lane (h * p + k)
        else []
      (rows.map fun r => pack (tyW ty) (r.map Prod.fst), orFlags (rows.flatMap fun r => r.map Prod.snd))))

/-- One butterfly stage of VHAD over 32 values (R177): the F32 results with their flags. -/
def hadStage (exact : Bool) (k : Nat) (a : List Nat) : List (Nat × Flags) :=
  lanes32.map fun l =>
    let x := fval 10 (a.getD l 0)
    let y := fval 10 (a.getD (l ^^^ 2 ^ k) 0)
    let (t, f) := if l.testBit k then fadd false y x.neg else fadd false x y
    let t' := match t with
      | .fin n m e => if exact then .fin n m (e - 1) else .fin n m e
      | z => z
    rounded Modes.exactRne 10 0 (t', f)

/-- The rotation of one position: 32 F32 values, with the flags each lane has met, and whether a NaN has been met.
DESIGN CHOICE (log entry 76): one that arises in the transform, infinity minus infinity, counts as one read. -/
def hadamard (exact : Bool) (a : List (Nat × Flags)) : List (Nat × Flags) × Bool :=
  let nan (l : List (Nat × Flags)) : Bool := l.any fun p => (fval 10 p.1).isNan
  let r := (List.range 5).foldl (fun (acc : List (Nat × Flags) × Bool) k =>
    let st := hadStage exact k (acc.1.map Prod.fst)
    ((acc.1.zip st).map fun p => (p.2.1, p.1.2 ||| p.2.2), acc.2 || nan st)) (a, nan a)
  if exact then r
  else (r.1.map fun p =>
    let q := rounded Modes.exactRne 10 0 (fmul (fval 10 p.1) (fval 10 0x3E3504F3))
    (q.1, p.2 ||| q.2), r.2)

/-- VHAD (R177). DESIGN CHOICE (log entry 76): the last step, RoundTo under FMODE, flushes an F32 subnormal where SUBN = flush, with UF
and NX (R165), though R177 calls it exact for F32. -/
def execVhad (f : FmtM) (s : State) : Out :=
  let ty := f.ty.toNat
  let code := codeOf f.b
  let p := 64 / tyW ty
  let l : List TySrc := [(src10 f.a, ty)]
  issue s (headM f true (!(decide (8 ≤ ty) && decide (ty ≤ 10))) .float [src10 f.a])
    (fun i => dvOk f.d.toNat i.g.budget && (src10 f.b).isImm && decide (code ≤ 1) && tySrcsOk i l)
    (onGroup (vecPlain f.d.toNat f.g.toNat f.nw fun i m =>
      let md := i.modes.plain
      let cols := (List.range p).map fun k =>
        let a := lanes32.map fun lane =>
          let x := fread i.modes ty (elt i l 0 lane k)
          rounded Modes.exactRne 10 0 (x, snanFlag [x])
        let (b, nan) := hadamard (code == 0) a
        (lanes32.zip b).map fun (q : Nat × Nat × Flags) =>
          if nan then (fnan ty, q.2.2)
          else
            let r := roundTo md ty (fval 10 q.2.1) (q.1 + 32 * k)
            (r.1, r.2 ||| q.2.2)
      (lanes32.map fun lane => pack (tyW ty) (cols.map fun c => (c.getD lane (0, 0)).1),
       orFlags (cols.flatMap fun c => (lanesOf m).map fun lane => (c.getD lane (0, 0)).2))))

/-- FMODE with another dither phase (Table 7.6). -/
def withDph (fm : BitVec 32) (d : Nat) : BitVec 32 := (fm &&& ~~~ 0x3F00) ||| BitVec.ofNat 32 (d % 64 * 256)

/-- VDITH.set (R178). -/
def execVdithSet (f : FmtM) (s : State) : Out :=
  let a := src10 f.a
  issue s (headM f false false .float [])
    (fun _ => a.uniform && (src10 f.b).isImm && decide (codeOf f.b = 0))
    (onGroup fun i => ({ i.g with fmode := withDph i.g.fmode (fld (i.uni a).toNat 0 6) }, i.eff))

/-- VDITH.adv (R178). -/
def execVdithAdv (f : FmtM) (s : State) : Out :=
  issue s (headM f false false .float []) (fun _ => true)
    (onGroup fun i => ({ i.g with fmode := withDph i.g.fmode (fld i.g.fmode.toNat 8 6 + 17) }, i.eff))

end Sys2Proof.Machine
end

