-- ==== Sys2Proof/Machine/PlateEng.lean ====
section
/-! DEFINITION. The Plate's sequencer as it executes: engraves and swaps, pulls, drains and clears (09_plate.md R215 to R229),
and the load of an activation bank (08_vector_unit.md R201, R202). -/

namespace Sys2Proof.Machine

open Sys2Proof.Bits

/-- The Plate of a core, and a core with its Plate changed. -/
def State.plate (s : State) (core : Nat) : Plate := (s.core core).plate
def State.setPlate (s : State) (core : Nat) (p : Plate) : State := s.setCore core { s.core core with plate := p }

/-- Whether an operation is an engrave, and whether it is an MLOOP. -/
def PlateKind.isEngr (k : PlateKind) : Bool :=
  match k with
  | .engr _ _ => true
  | _ => false
def PlateKind.isMloop (k : PlateKind) : Bool :=
  match k with
  | .mloop _ _ _ _ _ _ _ _ => true
  | _ => false

/-- The engrave that may start, complete or swap: the first of the queue (Table 9.1). -/
def Plate.firstEngr (p : Plate) : Option PlateOp := p.seq.find? fun o => o.kind.isEngr

/-- The operation that the sequencer executes: the first that is no engrave. An MLOOP waits for the engraves queued before it
(R216, R232). -/
def Plate.current (p : Plate) : Option PlateOp :=
  match p.seq.find? fun o => !o.kind.isEngr with
  | none => none
  | some o =>
    if o.kind.isMloop ∧ (p.seq.head?.map (·.place)) ≠ some o.place then none else some o

/-- Replace an operation of the queue. -/
def Plate.setOp (p : Plate) (o : PlateOp) : Plate := { p with seq := p.seq.map fun x => if x.place = o.place then o else x }

/-- An operation leaves the queue: an MSTAT that waits for it and those before it completes, and a parked issuer's operation
enters (R216, R232). -/
def State.plateLeave (s : State) (core place : Nat) : State :=
  let p := s.plate core
  let seq := p.seq.filter fun o => o.place != place
  let s1 := (s.setPlate core { p with seq := seq }).mapGroups fun k g =>
    if keyCore k = core then
      g.mapLanes fun _ x =>
        match x.st with
        | .parked (.plateIdle q) =>
          if seq.any fun o => decide (o.place < q) then x else { x with st := .ready, ret := true }
        | _ => x
    else g
  plateAdmit core 16 s1

/-- The writers issued before an operation have finished in every chunk of a range (R231). -/
def sourceReady (c : Core) (place at_ n : Nat) : Bool :=
  (chunksOf at_ n).all fun k => !c.writers.any fun w => decide (w.place < place) && w.chunks.contains k

/-! ## Engraving (R217, R218) -/

/-- The cells of a tile image: a bank's contents but for its latch. -/
def tileCells (gq4 : Bool) (img : List Byte) (b : CellBank) : CellBank :=
  let byte (k : Nat) : Nat := (img.getD k 0).toNat
  if gq4 then
    let col (n : Nat) : List Byte := (img.drop (136 * n)).take 136
    { b with
      cell := scells 0 ((List.range 256).flatMap fun n =>
        let c := (col n).take 128
        c.flatMap fun x => [BitVec.ofInt 8 (gq4Level (x.toNat % 16)), BitVec.ofInt 8 (gq4Level (x.toNat / 16))])
      q := scells 0 ((List.range 256).flatMap fun n => ((col n).drop 128).take 4)
      ss := scells 0 ((List.range 256).map fun n => BitVec.ofNat 32 (ofBytes (((col n).drop 132).take 4))) }
  else
    { b with
      cell := scells 0 (img.take 65536)
      q := []
      ss := scells 0 ((List.range 256).map fun n =>
        BitVec.ofNat 32 (byte (65536 + 4 * n) + 256 * byte (65537 + 4 * n) + 65536 * byte (65538 + 4 * n) +
          16777216 * byte (65539 + 4 * n))) }

/-- A Plate with its back bank replaced. -/
def Plate.setBack (p : Plate) (b : CellBank) : Plate := if p.front then { p with bank0 := b } else { p with bank1 := b }

/-- ENGRAVE_START (R218): the image is read once its earlier writers have finished, and the back bank's latch reads EMPTY. -/
def execEngraveStart (core : Nat) (s : State) : Out :=
  if Config.cores ≤ core then .fault .noSuchUnit
  else
    let p := s.plate core
    match p.firstEngr with
    | some o =>
      match o.kind, o.stage with
      | .engr gq4 off, .waiting =>
        let n := if gq4 then 34816 else 66560
        if sourceReady (s.core core) o.place off n then
          let b := { tileCells gq4 (spadRead (s.core core) off n) p.backBank with fmt := .empty }
          .next (s.setPlate core ((p.setBack b).setOp { o with stage := .engraving (s.arith + 1024 * 2400) }))
        else .next s
      | _, _ => .next s
    | none => .next s

/-- ENGRAVE_COMPLETE (R218): 1,024 cycles of the arithmetic clock after the start (R416). -/
def execEngraveComplete (core : Nat) (s : State) : Out :=
  if Config.cores ≤ core then .fault .noSuchUnit
  else
    let p := s.plate core
    match p.firstEngr with
    | some o =>
      match o.stage with
      | .engraving t => if s.arith < t then .next s else .next (s.setPlate core (p.setOp { o with stage := .complete }))
      | _ => .next s
    | none => .next s

/-- BANK_SWAP (Table 9.1): the engrave is complete and every MLOOP queued before it has finished. -/
def execBankSwap (core : Nat) (s : State) : Out :=
  if Config.cores ≤ core then .fault .noSuchUnit
  else
    let p := s.plate core
    match p.firstEngr with
    | some o =>
      match o.kind, o.stage with
      | .engr gq4 _, .complete =>
        let before := p.seq.takeWhile fun x => x.place != o.place
        if before.any fun x => x.kind.isMloop then .next s
        else
          let p1 := p.setBack { p.backBank with fmt := if gq4 then .gq4 else .s8 }
          .next ((s.setPlate core { p1 with front := !p.front }).plateLeave core o.place)
      | _, _ => .next s
    | none => .next s

/-! ## Pulls (R219 to R222) -/

/-- The mantissa of element k of an A row of `b` bits (R219). -/
def pullMant (row : List Byte) (b k : Nat) : Int :=
  let at_ := 256 * (k / 128) + 8 * (k % 32) + 2 * (k / 32 % 4)
  sval b (ofBytes [row.getD at_ 0, row.getD (at_ + 1) 0])

/-- The post-accumulator of a column in units of 2^(Emax − 60 − 127 − (b − 1) − 15), and whether a nonzero segment was dropped
(R221). -/
def pullSum (m : Nat → Int) (e : Nat → Nat) (cell : Nat → Int) (w : Nat → Nat) : Int × Bool :=
  let emax := (List.range 8).foldl (fun a g => max a (e g)) 0
  (List.range 8).foldl (fun a g =>
    let p := (List.range 32).foldl (fun t i => t + m (32 * g + i) * cell (32 * g + i)) 0
    if e g + 60 < emax then (a.1, a.2 || decide (p ≠ 0))
    else (a.1 + p * w g * (2 ^ (e g + 60 - emax) : Nat), a.2)) (0, false)

/-- One column's new accumulator value, with its flags and FLUSH (R221, R222). -/
def pullColumn (b : Nat) (m : Nat → Int) (e : Nat → Nat) (cell : Nat → Int) (w : Nat → Nat) (ss acc : Nat) :
    Nat × Flags × Bool :=
  let emax := (List.range 8).foldl (fun a g => max a (e g)) 0
  let (t, flush) := pullSum m e cell w
  let f : Nat × Flags :=
    if t = 0 then (0, 0)
    else
      rounded Modes.exactRne 10 0
        (fmul (.fin (decide (t < 0)) t.natAbs ((emax : Int) - 60 - 127 - ((b : Int) - 1) - 15)) (fval 10 ss))
  let r := rounded Modes.exactRne 10 0 (fadd false (fval 10 acc) (fval 10 f.1))
  (r.1, f.2 ||| r.2, flush)

/-- Flags as sticky bits of the status word (Table 9.8). -/
def stickyOf (f : Flags) (flush : Bool) : BitVec 64 :=
  BitVec.ofNat 64 ((if f.getLsbD 4 then 2 ^ 22 else 0) + (if f.getLsbD 3 then 2 ^ 23 else 0) +
    (if f.getLsbD 2 then 2 ^ 24 else 0) + (if f.getLsbD 0 then 2 ^ 25 else 0) + (if flush then 2 ^ 26 else 0))

/-- One A row added into an accumulator row (R220, R221). -/
def pullRow (p : Plate) (b : Nat) (mant exps : List Byte) (row : Nat) : Plate :=
  let bank := p.frontBank
  let m (k : Nat) : Int := pullMant mant b k
  let ms := (List.range 256).map m
  let e (g : Nat) : Nat := (exps.getD g 0).toNat
  let old := sread p.acc (256 * row) 256
  let cols := (List.range 256).map fun n =>
    let cs := (sread bank.cell (256 * n) 256).map BitVec.toInt
    let w (g : Nat) : Nat := if bank.fmt = .gq4 then (sget bank.q (4 * n + g / 2)).toNat else 2 ^ 15
    pullColumn b (fun k => ms.getD k 0) e (fun k => cs.getD k 0) w (sget bank.ss n).toNat (old.getD n 0).toNat
  { p with
    acc := sput p.acc (256 * row) (cols.map fun c => BitVec.ofNat 32 c.1)
    sticky := p.sticky ||| stickyOf (orFlags (cols.map fun c => c.2.1)) (cols.any fun c => c.2.2) }

/-- A pending error of an MLOOP reaches its group (R229): a group that has exited leaves a record at once. -/
def State.plateFail (s : State) (o : PlateOp) (cause : BitVec 8) : State :=
  let key := slotKey ((o.org.team.bind fun n => s.team? n).map (·.core) |>.getD 0) o.org.port o.org.slot
  let e : PlateErr := { cause := cause, pc := o.org.pc, step := o.step }
  match s.group? key with
  | some g =>
    if g.gid = o.org.gid ∧ some g.team = o.org.team then
      (if g.plateErr.isSome then s else s.setGroup key { g with plateErr := some e })
    else s.errRecord o.org.ctx 0 0xFF cause 0 true false o.org.pc o.org.who
  | none => s.errRecord o.org.ctx 0 0xFF cause 0 true false o.org.pc o.org.who

/-- The accumulator rows named by steps 0 to `t`. -/
def stepRows (row0 rinc t : Nat) : BitVec 64 :=
  BitVec.ofNat 64 ((List.range 64).foldl (fun a r =>
    if (List.range (min (t + 1) 64)).any fun k => (List.range 4).any fun i => (row0 + (t - k) * rinc + i) % 64 == r
    then a + 2 ^ r else a) 0)

/-- A physical column of a bank that a step uses: no column already retired, and of the spares 256 to 263 those that stand for a
retired one (R226, R227). -/
def CellBank.inUse (b : CellBank) (col : Nat) : Bool :=
  !b.retired.contains col && decide (col < 256 + min 8 b.retired.length)

/-- MLOOP_STEP (R220 to R222, R226, R228): the next step of the MLOOP at the head of the queue. `mismatch`: the physical
column of the front bank, 256 to 263 its spares, whose residue check fails in it. -/
def execMloopStep (core : Nat) (mismatch : Option Nat) (s : State) : Out :=
  if Config.cores ≤ core then .fault .noSuchUnit
  else
    let p := s.plate core
    match p.current with
    | none => .next s
    | some o =>
      match o.kind with
      | .mloop bcode mbase xbase minc xinc rinc row0 steps =>
        let b := pbfBits bcode
        if p.frontBank.fmt = .empty then .next ((s.plateFail o cPlateFormat).plateLeave core o.place)
        else
          let ma := mbase + o.step * minc
          let xa := xbase + o.step * xinc
          let c := s.core core
          if !sourceReady c o.place ma 2048 || !sourceReady c o.place xa 32 then .next s
          else
            match mismatch.filter p.frontBank.inUse with
            | some col =>
              let k := p.frontBank.retired.length
              if k < 8 then
                let f := { p.frontBank with retired := p.frontBank.retired ++ [col] }
                let p1 := if p.front then { p with bank1 := f } else { p with bank0 := f }
                .next ((s.setPlate core p1).logAdd 0x01 (BitVec.ofNat 8 (((s.core core).world).getD 0xFF))
                  (BitVec.ofNat 16 core) ([if p.front then 1 else 0] ++ toBytes 2 col ++ [BitVec.ofNat 8 k]))
              else
                let s1 := s.setPlate core { p with invalid := p.invalid ||| stepRows row0 rinc o.step }
                .next ((s1.plateFail o cPlateUncorrectable).plateLeave core o.place)
            | none =>
              let p1 := (List.range 4).foldl (fun q r =>
                pullRow q b (spadRead c (ma + 512 * r) 512) (spadRead c (xa + 8 * r) 8)
                  ((row0 + o.step * rinc + r) % 64)) p
              let s1 := (s.setPlate core (p1.setOp { o with step := o.step + 1 })).meter o.org.world 0 262144
              if o.step + 1 < steps then .next s1 else .next (s1.plateLeave core o.place)
      | _ => .next s

/-! ## Draining and clearing -/

/-- The bits [first + count − 1 : first] of a row mask. -/
def rowMask (first count : Nat) : BitVec 64 := BitVec.ofNat 64 ((2 ^ count - 1) * 2 ^ first)

/-- The drain generator's next state (R167). -/
def genNext (x : BitVec 32) : BitVec 32 :=
  let a := x ^^^ (x <<< 13)
  let b := a ^^^ (a >>> 17)
  b ^^^ (b <<< 5)

/-- The threshold of lane `l` over 128 (R167). -/
def genThreshold (x : BitVec 32) (l : Nat) : Nat := 2 * fld (x.rotateLeft l).toNat 26 6 + 1

/-- Thirty-two values of a row converted: their bits, the flags, and the generator afterwards (R225). -/
def drainBlock (ty : Nat) (rm : Rm) (sat : Bool) (gen : BitVec 32) (xs : List (BitVec 32)) : List Nat × Flags × BitVec 32 :=
  if ty = 10 then (xs.map BitVec.toNat, 0, gen)
  else
    let md : Modes := { rm := rm, flush := false, sat := sat, nf := false, dph := 0 }
    let rs := (lanes32.zip xs).map fun p =>
      let x := fval 10 p.2.toNat
      let r := roundFull md (genThreshold gen p.1) ty x false
      (r.1, r.2 ||| snanFlag [x])
    (rs.map Prod.fst, orFlags (rs.map Prod.snd), if rm = .dither then genNext gen else gen)

/-- One row drained: its bytes, the flags and the generator. -/
def drainRow (ty : Nat) (rm : Rm) (sat : Bool) (gen : BitVec 32) (row : List (BitVec 32)) : List Byte × Flags × BitVec 32 :=
  (List.range 8).foldl (fun a j =>
    let (vs, f, g) := drainBlock ty rm sat a.2.2 ((row.drop (32 * j)).take 32)
    (a.1 ++ vs.flatMap (fun v => toBytes (memW ty) v), a.2.1 ||| f, g)) ([], 0, gen)

/-- A drain's bytes: written and counted in pieces of at most 512 bytes (R225). -/
def drainPieces (core : Nat) (o : PlateOp) (bar : Nat) : Nat → List Byte → Nat → State → State
  | 0, _, _, s => s
  | n + 1, bs, at_, s =>
    let k := min 512 bs.length
    if k = 0 then s
    else
      drainPieces core o bar n (bs.drop 512) (at_ + 512)
        ((s.spadWrite core at_ (bs.take 512)).barUpdate o.org core false false bar k none)

/-- MDRAIN_EXECUTE (R225): it starts once no chunk of it has 15 writers before it (R127). -/
def execMdrainExecute (core : Nat) (s : State) : Out :=
  if Config.cores ≤ core then .fault .noSuchUnit
  else
    let p := s.plate core
    match p.current with
    | none => .next s
    | some o =>
      match o.kind with
      | .mdrain ty rnd sat dst bar first count =>
        if (s.core core).crowded o.place then .next s
        else if p.invalid &&& rowMask first count ≠ 0 then
          let s1 := (s.writerDone core o.place fun _ => true).barUpdate o.org core false false bar 0 (some cPlateUncorrectable)
          .next (s1.plateLeave core o.place)
        else
          let rm := rmOf rnd
          let d := (List.range count).foldl (fun (a : List Byte × Flags × BitVec 32) i =>
            let r := drainRow ty rm sat a.2.2 (sread p.acc (256 * (first + i)) 256)
            (a.1 ++ r.1, a.2.1 ||| r.2.1, r.2.2)) ([], 0, p.gen)
          let s1 := s.setPlate core { p with gen := d.2.2, sticky := p.sticky ||| stickyOf d.2.1 false }
          let s2 := drainPieces core o bar d.1.length d.1 dst s1
          .next ((s2.writerDone core o.place fun _ => true).plateLeave core o.place)
      | _ => .next s

/-- MCLR_EXECUTE (R224). -/
def execMclrExecute (core : Nat) (s : State) : Out :=
  if Config.cores ≤ core then .fault .noSuchUnit
  else
    let p := s.plate core
    match p.current with
    | none => .next s
    | some o =>
      match o.kind with
      | .mclr first count =>
        .next ((s.setPlate core { p with acc := sclear p.acc (256 * first) (256 * count),
                                         invalid := p.invalid &&& ~~~ rowMask first count }).plateLeave core o.place)
      | _ => .next s

/-! ## Activation banks -/

/-- ATLOAD_COMPLETE (R201, R202): the bank is READY with the image's 8,208 bytes; its loader goes on past the ATLOAD in a new
region, and lanes that wait for the bank at an ATSEL go on past theirs (R203). -/
def execAtloadComplete (core bank : Nat) (s : State) : Out :=
  if Config.cores ≤ core ∨ 2 ≤ bank then .fault .noSuchUnit
  else
    let c := s.core core
    let b := c.actBank bank
    if b.st ≠ .loading then .next s
    else
      let b1 : ActBank := { st := .ready, bytes := scells 0 (spadRead c b.off 8208), loader := none, off := b.off }
      let s1 := s.setCore core (c.setBank bank b1)
      let s2 : State :=
        match b.loader with
        | none => s1
        | some (port, slot, m) =>
          let key := slotKey core port slot
          match s1.group? key with
          | none => s1
          | some g => s1.setGroup key (g.onLanes m fun _ x =>
              if x.st = LaneState.parked (Wait.bank bank) then { x with st := .ready, pc := x.pc + 8, tregion := x.pc + 8 } else x)
      .next (s2.mapGroups fun k g => if keyCore k = core then g.wake (fun w => w == .select bank) (fun x => x.pc + 8) else g)

end Sys2Proof.Machine
end

