-- ==== Sys2Proof/Machine/Ptr.lean ====
section
/-! DEFINITION. The PTR major (03_names_and_swizzling.md R63 to R73). -/

namespace Sys2Proof.Machine

open Sys2Proof.Bits

/-- A pointer cause: precise, or OBJECT_DEPARTED, which replays. -/
def Eff.fault (e : Eff) (lane : Nat) (cause : BitVec 8) (addr : BitVec 64) (code : Nat) : Eff :=
  let c := Chk.fail lane cause addr.toNat 0 code
  { e with traps := e.traps ++ c.traps, replays := e.replays ++ c.replays }

/-- Swizzle a name for each lane in ascending order (R48); `va` is TADDR of a lane that traps. -/
def swizzleLanes (ctx : Nat) : List (Nat × Nat × BitVec 64) → State → Eff → List (Nat × BitVec 64) × State × Eff
  | [], s, e => ([], s, e)
  | (l, n, va) :: r, s, e =>
    match s.swizzle ctx n with
    | (s1, .error c) => swizzleLanes ctx r s1 (e.fault l c va 7)
    | (s1, .ok p) =>
      let (ps, s2, e2) := swizzleLanes ctx r s1 e
      ((l, p) :: ps, s2, e2)

/-- Deliver lanes' results to v_d as a long-latency result. -/
def lateResult (s : State) (i : Iss) (e : Eff) (d : Nat) (nw : Bool) (res : List (Nat × BitVec 64)) : State × Eff :=
  let m := laneSet fun l => res.any fun p => p.1 == l
  let (g, e1) := writeDst (s.issGroup i) e d nw m fun l => ((res.find? fun p => p.1 == l).map (·.2)).getD 0
  (s.setGroup i.key (if nw then g else g.await (.v d) m), e1)

/-- LDP (R65, R67). -/
def execLdp (f : FmtW) (s : State) : Out :=
  let a := src10 f.m.a
  issueAt s (headW f true (wScopeBad f || wRel f) [a]) false
    (fun i => dvOk f.m.d.toNat i.g.budget && a.address && srcsOk i [a]) (eas f 16)
    fun i s =>
      let c0 := s.checkLanes i .read 0 16 16 (i.act f.m.g.toNat) (ea i f)
      let held := s.promoWaits i f.promo c0.ok
      let c := c0.hold held
      let sa := s.l1Settle i.core c.ok
      let names := c.ok.map fun x =>
        (x.lane, ofBytes (sa.loadBytes i.core (wSc f) x.loc.space x.loc.pa 16), BitVec.ofNat 64 x.va)
      let s1 := (sa.request i false f.hint.toNat 16 (c.beyondL1 sa i.core (wSc f))).didRead i (wSc f) f.hint.toNat 16 c.ok
      let s2 := ((s1.holdRemote i .load 16 c.waits).holdPromo i held).acquire i.core (wSc f) (wAcq f)
      let (ps, s3, e) := swizzleLanes i.t.ctx names s2 ((i.eff.checks c).promo held)
      lateResult s3 i e f.m.d.toNat f.m.nw ps

/-- The window addresses among a source's values in a set of lanes. -/
def windowVas (i : Iss) (b : Src) (m : LaneSet) : List Nat := ((lanesOf m).map fun l => (i.read b l 15).toNat).filter inWindow

/-- The names of the pointers of a set's lanes, and the lanes that trap (R66). -/
def unswizzleLanes (s : State) (i : Iss) (b : Src) (m : LaneSet) (e : Eff) : List (Nat × Nat) × Eff :=
  (lanesOf m).foldl (fun a l =>
    let p := i.read b l 15
    match s.unswizzle i.c p.toNat with
    | .ok n => (a.1 ++ [(l, n)], a.2)
    | .error c => (a.1, a.2.fault l c p 7)) ([], e)

/-- STP (R65, R67). -/
def execStp (f : FmtW) (s : State) : Out :=
  let a := src10 f.m.a
  let b := src10 f.m.b
  issueAt s (headW f false (decide (5 ≤ wSc f) || f.promo || wAcq f) [a, b]) (wRelWide f)
    (fun i => a.address && srcsOk i [a, b]) (eas f 16)
    fun i s0 =>
      let m := i.act f.m.g.toNat
      let s := s0.fillTlbs i.c (windowVas i b m)
      let (ns, e) := unswizzleLanes s i b m i.eff
      let c := s.checkLanes i .write 1 16 16 (laneSet fun l => ns.any fun p => p.1 == l) (ea i f)
      let s1 := s.storeLanes i f.hint.toNat (wRel f) c
        (c.ok.map fun x => (x, toBytes 16 (((ns.find? fun p => p.1 == x.lane).map (·.2)).getD 0)))
      (s1, { e.checks c with region := c.ok.any fun x => x.loc.space != spLocal })

/-- PADD (R67). -/
def execPadd (f : FmtW) (s : State) : Out :=
  let a := src10 f.m.a
  let b := src10 f.m.b
  issue s (headW f true false [a, b]) (fun i => dvOk f.m.d.toNat i.g.budget && srcsOk i [a, b])
    (onGroup (vecPlain f.m.d.toNat f.m.g.toNat f.m.nw fun i _ =>
      (lanes32.map fun l => i.read a l 15 + i.read b l 15 + wOff f, 0)))

/-- PSUB (R68). -/
def execPsub (f : FmtW) (s : State) : Out :=
  let a := src10 f.m.a
  let b := src10 f.m.b
  issue s (headW f true false [a, b]) (fun i => dvOk f.m.d.toNat i.g.budget && srcsOk i [a, b])
    (onGroup (vecPlain f.m.d.toNat f.m.g.toNat f.m.nw fun i _ => (lanes32.map fun l => i.read a l 15 - i.read b l 15, 0)))

/-- PEQ (R69). -/
def execPeq (f : FmtW) (s : State) : Out :=
  let a := src10 f.m.a
  let b := src10 f.m.b
  issue s (headW f false false [a, b]) (fun i => d8Ok f.m.d.toNat && srcsOk i [a, b])
    (onGroup fun i =>
      let m := i.act f.m.g.toNat
      (i.g.kset f.m.d.toNat (laneSet fun l => inSet m l && i.read a l 15 == i.read b l 15), i.eff))

/-- PBASE and PSIZE (R70): outside the window `plain` gives the result, inside it `range` of the entry. -/
def ptrQuery (s : State) (f : FmtW) (plain : BitVec 64 → BitVec 64) (range : RotEnt → Nat) : Out :=
  let a := src10 f.m.a
  issue s (headW f true false [a]) (fun i => dvOk f.m.d.toNat i.g.budget && srcsOk i [a])
    fun i s0 =>
      let s := s0.fillTlbs i.c (windowVas i a (i.act f.m.g.toNat))
      let (res, e) := (lanesOf (i.act f.m.g.toNat)).foldl (fun (acc : List (Nat × BitVec 64) × Eff) l =>
        let p := i.read a l 15
        if !inWindow p.toNat then (acc.1 ++ [(l, plain p)], acc.2)
        else
          match s.rangeOf i.c p.toNat with
          | .error c => (acc.1, acc.2.fault l c p 7)
          | .ok none => (acc.1, acc.2.fault l cObjectBounds p 7)
          | .ok (some r) => (acc.1 ++ [(l, BitVec.ofNat 64 (range r))], acc.2)) ([], i.eff)
      lateResult s i e f.m.d.toNat f.m.nw res

/-- PBASE (R70). -/
def execPbase (f : FmtW) (s : State) : Out := ptrQuery s f (fun p => p) fun r => r.base
/-- PSIZE (R70). -/
def execPsize (f : FmtW) (s : State) : Out := ptrQuery s f (fun _ => 0) fun r => r.size

/-- PNAME (R70): bits [63:0] to v_d and the latches, bits [127:64] to v_(d+1). -/
def execPname (f : FmtW) (s : State) : Out :=
  let a := src10 f.m.a
  let d := f.m.d.toNat
  issue s (headW f true false [a]) (fun i => vRangeOk d 2 i.g.budget && srcsOk i [a])
    fun i s0 =>
      let m := i.act f.m.g.toNat
      let s := s0.fillTlbs i.c (windowVas i a m)
      let (ns, e) := unswizzleLanes s i a m i.eff
      let (s1, e1) := lateResult s i e d f.m.nw (ns.map fun p => (p.1, BitVec.ofNat 64 p.2))
      let got := laneSet fun l => ns.any fun p => p.1 == l
      let high (l : Nat) : BitVec 64 := BitVec.ofNat 64 ((((ns.find? fun p => p.1 == l).map (·.2)).getD 0) / 2 ^ 64)
      (if f.m.nw then s1 else s1.updGroup i fun g => (g.vset (d + 1) got high).await (.v (d + 1)) got, e1)

/-- PSWZ (R71). -/
def execPswz (f : FmtW) (s : State) : Out :=
  let a := src10 f.m.a
  let b := src10 f.m.b
  issue s (headW f true false [a, b]) (fun i => dvOk f.m.d.toNat i.g.budget && srcsOk i [a, b])
    fun i s =>
      let names := (lanesOf (i.act f.m.g.toNat)).map fun l =>
        (l, (i.read a l 15).toNat + 2 ^ 64 * (i.read b l 15).toNat, (0 : BitVec 64))
      let (ps, s1, e) := swizzleLanes i.t.ctx names s i.eff
      lateResult s1 i e f.m.d.toNat f.m.nw ps

/-- One lane's update of the hold count behind a pointer (R72). -/
def holdLane (i : Iss) (up : Bool) (p : BitVec 64) (l : Nat) (se : State × Eff) : State × Eff :=
  if !inWindow p.toNat then (se.1, se.2.fault l cObjectBounds p 3)
  else
    match se.1.rangeOf i.c p.toNat with
    | .error c => (se.1, se.2.fault l c p 7)
    | .ok none => (se.1, se.2.fault l cObjectBounds p 3)
    | .ok (some r) =>
      if up then
        if r.st ≠ 1 then (se.1, se.2.fault l cObjectDeparted p 3)
        else if 0xFFFF ≤ r.hold then (se.1, se.2.fault l cWindowExhausted p 3)
        else (se.1.holdWrite i.c r.idx (r.hold + 1), se.2)
      else (if r.hold = 0 then se.1 else se.1.holdWrite i.c r.idx (r.hold - 1), se.2)

/-- PHOLD and PDROP (R72). -/
def ptrHold (s : State) (f : FmtW) (up : Bool) : Out :=
  let a := src10 f.m.a
  issueMem s (headW f false false [a]) false (fun i => srcsOk i [a])
    fun i s =>
      let m := i.act f.m.g.toNat
      let (s1, e) := (lanesOf m).foldl (fun se l => holdLane i up (i.read a l 15) l se) (s.fillTlbs i.c (windowVas i a m), i.eff)
      (s1, { e with region := true })

/-- PHOLD (R72). -/
def execPhold (f : FmtW) (s : State) : Out := ptrHold s f true
/-- PDROP (R72). -/
def execPdrop (f : FmtW) (s : State) : Out := ptrHold s f false

end Sys2Proof.Machine
end

