-- ==== Sys2Proof/Machine/Root.lean ====
section
/-! DEFINITION. The Root Engine: boot and full reset (16_host_security_bringup.md R407, R414), the arithmetic clock and the
thermal limit (R415), the meter chains, SPDM and TDISP (R411 to R413), the management controller (R417, R418), and the
scrubbers (04_memory_tiers.md R95). -/

namespace Sys2Proof.Machine

open Sys2Proof.Bits

/-! ## Reset and boot -/

/-- A device reset: everything on the chip returns to its reset value. Memory, host memory and the peers, the module flash, the
device error log and the recorded mode stay, and the page ownership table is FREE throughout (Table 4.4); so does what the model holds of its
own. The mode last recorded is in force at once (R407). -/
def State.deviceReset (s : State) : State :=
  { State.reset with agenda := s.agenda, tick := s.tick, mem := sclear s.mem Config.potBase (4 * 0x2800000), eccBad := s.eccBad, eccSoft := s.eccSoft, tagBad := s.tagBad,
                     hostMem := s.hostMem, peers := s.peers, flash := s.flash, boots := s.boots, confReq := s.confReq, conf := s.confReq,
                     log := s.log, logSeq := s.logSeq, temp := s.temp, power := s.power }

/-- Zero is written to all of HBM and the far tier; a full overwrite clears every error (R407, R92). -/
def State.zeroMemory (s : State) : State := { s with mem := [], eccBad := [], eccSoft := [], tagBad := [] }

/-- The retired columns that the image names for a bank of a core (R227). -/
def imageRetired (im : ConfigImage) (core : Nat) (bank : Bool) : List Nat :=
  (im.retired.filter fun r => r.core == core && r.bank == bank).map (·.col)

/-- A core as stage 3 leaves it. -/
def imageCore (im : ConfigImage) (k : Nat) : Core :=
  let bank (b : Bool) : CellBank := { CellBank.fresh with retired := imageRetired im k b }
  { Core.fresh with enabled := im.cores.getLsbD k, plate := { Plate.fresh with bank0 := bank false, bank1 := bank true } }

/-- Stage 3: the image is applied. -/
def State.applyImage (s : State) (im : ConfigImage) : State :=
  { s with image := some im, cores := (List.range Config.cores).map (imageCore im) }

/-- Stage 4: the links and ports that train, of those the image enables, and whether the host reaches the device. -/
def State.train (s : State) (im : ConfigImage) (t : Training) : State :=
  { s with trained := im.links &&& t.links, netUp := im.netPorts &&& t.netPorts, unreachable := !t.pcie }

/-- Stage 6: every page is FREE, or SYSTEM of world 0 where the Root Engine sets it so. -/
def State.setPages (s : State) (ps : List (Nat × Nat)) : State :=
  let m := sclear s.mem Config.potBase (4 * 0x2800000)
  let pages := ps.flatMap fun p => (List.range p.2).map (p.1 + ·)
  { s with mem := pages.foldl (fun a i => sput a (Config.potBase + 4 * i) (toBytes 4 0x200)) m }

/-- The firmware team on a core (R372, R414): it is resident for the life of the boot, in world 0. Its work is the commands. -/
def firmwareTeam (tid core : Nat) : Team :=
  { tid := tid, core := core, ctx := 2 ^ 64, record := [], seq := 0, index := 0, base := 0, scr := 128, service := true, firmware := true,
    ngroups := 0, groups := [], ring := List.replicate 8 .free, saveRec := none, saveSent := false, savedGrp := [] }

/-- Stage 6: the firmware team starts on the lowest enabled core, and READY is set. -/
def State.startFirmware (s : State) (core : Nat) : State :=
  let s1 := s.setCore core { s.core core with world := some 0 }
  { s1 with teams := s1.teams ++ [firmwareTeam s1.nextTid core], nextTid := s1.nextTid + 1, ready := true, stage := 6 }

/-- The first links of the chains of the worlds that are live at boot (R412). -/
def State.firstChains (s : State) : State :=
  (List.range 16).foldl (fun a w => if (a.world w).live then a.setWorld w { a.world w with hash := a.firstHash w } else a) s

/-- The boot stages of Table 16.8. An image that does not verify stops the boot at stage 2; one that leaves no core enabled
at stage 3: the device then answers on I3C alone. -/
def State.bootStages (s : State) (t : Training) : State :=
  let s1 := { s with boots := s.boots + 1, stage := 1 }
  let im := s1.flash
  if !im.signed then { s1 with stage := 2, recovery := true, unreachable := true }
  else
    match (List.range Config.cores).find? fun k => im.cores.getLsbD k with
    | none => { s1 with stage := 3, recovery := true, unreachable := true }
    | some core =>
      let s2 := (s1.applyImage im).train im t
      let s3 : State := { s2 with conf := s2.confReq }
      let s4 := if s3.conf then { s3.zeroMemory with worlds := { World.fresh with live := true } :: List.replicate 15 World.fresh } else s3
      ((s4.setPages t.sysPages).firstChains).startFirmware core

/-- BOOT (R414): after power-good or a reset. On a device that has booted already, a reset comes first. -/
def execBoot (train : Training) (s : State) : Out :=
  .next ((if s.stage = 0 then s else s.deviceReset).bootStages train)

/-- MODESET_RESET (R407, R408): the full reset that a MODESET has recorded. -/
def execModesetReset (train : Training) (s : State) : Out :=
  if s.resetReq then .next (s.deviceReset.zeroMemory.bootStages train) else .next s

/-! ## Clock and heat (R415) -/

/-- CLOCK_STEP: the sensors' readings, and one step of the arithmetic clock each millisecond. -/
def execClockStep (temp power : Nat) (s : State) : Out :=
  let s1 := { s with temp := temp, power := power }
  if s.cycle.toNat < s.clockAt + Config.msCycles then .next s1
  else
    let mhz :=
      if 95 < temp ∨ s.cap ≤ power then max 1200 (s.clockMHz - 100)
      else if temp < 90 ∧ power < s.cap then min 2400 (s.clockMHz + 100)
      else s.clockMHz
    .next { s1 with clockMHz := mhz, clockAt := s.cycle.toNat }

/-- THERMAL_SHUTDOWN: at 105 °C all issue stops, the event is logged and the device resets. -/
def execThermalShutdown (sensor temp : Nat) (s : State) : Out :=
  if temp < 105 then .next s
  else .next ({ s with temp := temp }.logAdd 0x05 0xFF (BitVec.ofNat 16 sensor) (toBytes 1 temp)).deviceReset

/-! ## Meters, SPDM and TDISP -/

/-- METER_CHAIN_EXTEND (R412): every millisecond each live world's chain takes a link. -/
def execMeterChainExtend (s : State) : Out :=
  if s.cycle.toNat < s.chainAt + Config.msCycles then .next s
  else
    .next { s with chainAt := s.cycle.toNat,
                   worlds := (s.worlds.zip (List.range s.worlds.length)).map fun x => if x.1.live then x.1.extend x.2 else x.1 }

/-- The bytes of a configuration image that its digest covers. -/
def imageBytes (im : ConfigImage) : List Byte :=
  toBytes 24 im.cores.toNat ++ toBytes 4 im.slices.toNat ++ toBytes 2 im.links.toNat ++ toBytes 1 im.netPorts.toNat ++
    toBytes 8 im.identity.toNat ++ im.retired.flatMap fun r => toBytes 2 r.core ++ [if r.bank then 1 else 0] ++ toBytes 2 r.col

/-- The content of an SPDM measurement block, if the device has it (R412). -/
def State.measurement (s : State) (block : Nat) : Option (List Byte) :=
  if block = 1 then some (toBytes 48 Config.romDigest.toNat)
  else if block = 2 then s.image.map fun im => toBytes 48 (Config.sha384 (imageBytes im)).toNat
  else if 0x10 ≤ block ∧ block < 0x20 then
    let x := s.world (block - 0x10)
    some (toBytes 8 x.linkNo ++ toBytes 48 x.hash.toNat ++ x.sampled.flatMap fun m => toBytes 8 m.toNat)
  else none

/-- The answers to a request that is refused, and to one that is accepted without data. -/
def replyError : List Byte := [1]
def replyOk : List Byte := [0]

/-- MEASUREMENTS (R412): a block and its signature under the identity key. After an entropy failure an exchange that needs
entropy fails (R409). -/
def execMeasurements (block : Nat) (s : State) : Out :=
  match s.measurement block with
  | none => .next { s with reply := replyError }
  | some m =>
    if s.entropyFailed then .next { s with reply := replyError }
    else .next { s with reply := m ++ Config.sign (Config.identityKey s.boots) m }

/-- LOCK_INTERFACE_REQUEST (R413): the first complete request locks an unlocked interface; any other gets ERROR. -/
def execLockInterfaceRequest (world : Nat) (requester : BitVec 64) (s : State) : Out :=
  if 16 ≤ world then .fault .noSuchUnit
  else
    let x := s.world world
    if !x.live then .next { s with reply := replyError }
    else if x.tdisp = .unlocked then
      .next { (s.setWorld world { x with tdisp := .locked, owner := requester }).meter world 8 1 with reply := replyOk }
    else .next { s.meter world 9 1 with reply := replyError }

/-- TDISP_INTERFACE_REQUEST (R413): START takes a locked interface to RUN, STOP takes any to CONFIG_UNLOCKED. -/
def execTdispInterfaceRequest (world : Nat) (req : TdispReq) (s : State) : Out :=
  if 16 ≤ world then .fault .noSuchUnit
  else
    let x := s.world world
    if !x.live then .next { s with reply := replyError }
    else
      match req with
      | .startInterface =>
        if x.tdisp = .locked then .next { s.setWorld world { x with tdisp := .run } with reply := replyOk }
        else .next { s with reply := replyError }
      | .stopInterface => .next { s.setWorld world { x with tdisp := .unlocked, owner := 0 } with reply := replyOk }

/-! ## The management controller (R415, R417, R418) -/

/-- PLDM_MONITOR_READ: temperature, power and BOOTSTAT. -/
def execPldmMonitorRead (s : State) : Out :=
  .next { s with reply := toBytes 8 s.temp ++ toBytes 8 s.power ++ toBytes 8 s.bootstat }

/-- POWER_CAP_SET: from 1,200 W to the module's 2,200 W. -/
def execPowerCapSet (watts : Nat) (s : State) : Out :=
  if watts < 1200 ∨ 2200 < watts then .next s else .next { s with cap := watts }

/-- FIRMWARE_UPDATE_IMAGE_WRITE: the image takes effect at the next boot. -/
def execFirmwareUpdateImageWrite (image : ConfigImage) (s : State) : Out := .next { s with flash := image }

/-- PLDM_LOG_READ: as LOGREAD, to the management controller. -/
def execPldmLogRead (count : Nat) (s : State) : Out :=
  let (bs, s1) := s.takeLog (min count s.log.length)
  .next { s1 with reply := bs }

/-! ## The scrubbers (R95) -/

/-- Lines of a tier, and its first address. -/
def tierLines (tier : Nat) : Nat := if tier = 0 then 2 ^ 33 else 2 ^ 35
def tierBase (tier : Nat) : Nat := if tier = 0 then 0 else Config.farBase

def State.scrubber (s : State) (tier : Nat) : Scrubber := if tier = 0 then s.scrubH else s.scrubF
def State.setScrubber (s : State) (tier : Nat) (x : Scrubber) : State :=
  if tier = 0 then { s with scrubH := x } else { s with scrubF := x }

/-- The shortfall exceeds a percentage: the elapsed fraction of the pass less the fraction of lines read. -/
def Scrubber.above (x : Scrubber) (now lines percent : Nat) : Bool :=
  decide (percent * x.target * lines + 100 * (x.next * x.target) < 100 * ((now - x.start) * lines))

/-- The shortfall is below a percentage. -/
def Scrubber.below (x : Scrubber) (now lines percent : Nat) : Bool :=
  decide (100 * ((now - x.start) * lines) < percent * x.target * lines + 100 * (x.next * x.target))

/-- One step of the level (Table 4.8). -/
def Scrubber.stepLevel (x : Scrubber) (now lines : Nat) : Nat :=
  if x.level < 3 ∧ x.above now lines ([10, 20, 30].getD x.level 0) then x.level + 1
  else if 0 < x.level ∧ x.below now lines ([5, 15, 25].getD (x.level - 1) 0) then x.level - 1
  else x.level

/-- SCRUB_TICK: each second the level moves one step for the shortfall. -/
def execScrubTick (tier : Nat) (s : State) : Out :=
  if 2 ≤ tier then .fault .noSuchUnit
  else
    let x := s.scrubber tier
    let now := s.cycle.toNat
    if now < x.tick + 2400000000 then .next s
    else .next (s.setScrubber tier { x with level := x.stepLevel now (tierLines tier), tick := now })

/-- SCRUB_LINE: the next line is read; what ECC can correct is written back, which is a write to the line (R107); a line that
it cannot correct is logged and left. A pass that ends begins again. -/
def execScrubLine (tier : Nat) (s : State) : Out :=
  if 2 ≤ tier then .fault .noSuchUnit
  else
    let x := s.scrubber tier
    let pa := tierBase tier + 64 * x.next
    let hit (q : Nat) : Bool := q / 4 == pa / 64
    let s1 := if s.eccSoft.any hit && !s.eccBad.any hit then { (s.correct pa 64).touch spLocal pa 64 with pubs := s.pubs } else s
    let e := potEntry s.mem pa
    let world : BitVec 8 := if potState e = 1 ∨ potState e = 2 then BitVec.ofNat 8 (potOwner e) else 0xFF
    let s2 := if s.eccBad.any hit then s1.logAdd 0x03 world 0xFFFF (toBytes 8 pa) else s1
    let y := if x.next + 1 = tierLines tier then { x with next := 0, start := s.cycle.toNat } else { x with next := x.next + 1 }
    .next (s2.setScrubber tier y)

end Sys2Proof.Machine
end

