-- ==== Sys2Proof/Machine/SearchEng.lean ====
section
/-! DEFINITION. Sheepdogs: the way of a query from its packet to its result (10_stack_search.md R237 to R253), and the marks
of SCANCEL (R256). -/

namespace Sys2Proof.Machine

open Sys2Proof.Bits

/-! ## Packets -/

/-- Fields of a SEARCH packet (Table 10.2). -/
def sGraph (b : List Byte) : Nat := pk b 8 16
def sQuery (b : List Byte) : Nat := pk b 24 8
def sResult (b : List Byte) : Nat := pk b 32 8
def sEntry (b : List Byte) : Nat := pk b 40 4
def sWidth (b : List Byte) : Nat := pk b 44 1 + 1
def sCount (b : List Byte) : Nat := pk b 45 1
def sMetric (b : List Byte) : Nat := fld (pk b 46 1) 0 2
def sFmt (b : List Byte) : Nat := fld (pk b 46 1) 2 2
def sTag (b : List Byte) : BitVec 64 := BitVec.ofNat 64 (pk b 48 8)
def sRdev (b : List Byte) : Bool := bit (pk b 0 8) 10
def sQscr (b : List Byte) : Bool := bit (pk b 0 8) 9

/-- A malformed SEARCH packet (R242, R255). -/
def searchBad (b : List Byte) (fromQueue : Bool) : Bool :=
  pkKind b != 0x10 || pkLen b == 0 || sCount b == 0 || decide (64 < sCount b) || decide (sWidth b < sCount b) ||
    decide (2 ≤ sMetric b) || sFmt b == 3 || decide (sResult b % 8 ≠ 0) ||
    (fromQueue && (!pkBdev b || !sRdev b || sQscr b))

/-- A scratchpad range of the packet runs past the ring: the result buffer in full, the query's first byte (R242). -/
def searchRange (t : Option Team) (b : List Byte) : Bool :=
  match t with
  | none => false
  | some t => (!sRdev b && decide (t.ringStart < sResult b + 8 * sCount b + 8)) || (sQscr b && decide (t.ringStart ≤ sQuery b))

/-- A query as its packet leaves the core. -/
def queryOf (p : Packet) (core : Nat) (cancel : Bool) : Query :=
  { pkt := p, core := core, stage := .admitted, cancel := cancel, base := 0, nodes := 0, dim := 0, fmt := 0, deg := 0, nodeSz := 0,
    parts := [], qvec := [], visited := [], cand := [], expanded := [], nexp := 0, skipped := false, head := [], stall := none }

/-- A Sheepdog, and a state with one replaced. -/
def State.dog (s : State) (d : Nat) : Dog := s.dogs.getD d { inbound := [], admission := [], active := [], marks := [] }
def State.setDog (s : State) (d : Nat) (x : Dog) : State := { s with dogs := s.dogs.set d x }

/-- SEARCH_PORT_FORWARD (R242, R255): the first packet of the core's search port, or, where the port holds none, the SEARCH
packet that the request engine has reached, is validated and leaves for its owner while the owner has room, and once no chunk of its result
buffer has 15 writers before it (R127). -/
def execSearchPortForward (core : Nat) (s : State) : Out :=
  if Config.cores ≤ core then .fault .noSuchUnit
  else
    let c := s.core core
    let pick : Option (Packet × Bool) :=
      match c.search with
      | p :: _ => some (p, true)
      | [] => (c.nextPacket.bind fun p => if pkKind p.bytes = 0x10 then some p else none).map fun p => (p, false)
    match pick with
    | none => .next s
    | some (p, port) =>
      let s1 := if port then s.setCore core { c with search := c.search.drop 1 } else s.unqueue core p.place
      let t := s.packetTeam p
      if searchBad p.bytes p.queue.isSome then .next (s1.packetError p core port cIllegalOperand)
      else if searchRange t p.bytes then .next (s1.packetError p core port cScratchRange)
      else if c.crowded p.place then .next s
      else
        let d := sEntry p.bytes % 8
        let x := s1.dog d
        if 64 ≤ x.inbound.length + x.admission.length then .next s
        else
          let saving := match t with
            | some t => t.saveRec.isSome && !t.saveSent && (!sRdev p.bytes || sQscr p.bytes)
            | none => false
          .next (s1.setDog d { x with inbound := x.inbound ++ [queryOf p core (p.cancel || saving)] })

/-- SEARCH_ARRIVAL (R237): the query enters the admission queue. -/
def execSearchArrival (dog : Nat) (s : State) : Out :=
  if 8 ≤ dog then .fault .noSuchUnit
  else
    let x := s.dog dog
    match x.inbound with
    | [] => .next s
    | q :: r => if 64 ≤ x.admission.length then .next s
                else .next (s.setDog dog { x with inbound := r, admission := x.admission ++ [q] })

/-! ## Reading -/

/-- A byte range cut at 64 KiB pages; it spans at most two. -/
def pageCuts (va n : Nat) : List (Nat × Nat) :=
  let k := inPage va n
  (va, k) :: (if k < n then [(va + k, n - k)] else [])

/-- Whether a location is what a search may read: local memory, and, of part `part`, HBM of that stack (R240). -/
def stackOk (l : Loc) (part : Option Nat) : Bool :=
  l.space == spLocal &&
    match part with
    | none => true
    | some p => decide (l.pa < Config.hbmEnd) && fld l.pa 36 3 == p

/-- The checks of one piece of a read: a page outside the stack, or of a peer or the host, gives PAGE_PROTECTION at step 5 (R240). -/
def State.stackCheck (s : State) (c : Context) (part : Option Nat) (va n : Nat) : Except (BitVec 8) Loc :=
  let outside : Bool :=
    match s.translate c va with
    | .leaf pte size => !stackOk { space := peerSpace s (ptePeer pte), pa := pteAddr pte + va % 2 ^ size, nc := false } part
    | _ => false
  match s.resolve6 c c.priv .read va n with
  | .error e => .error (if e = cOwnership ∧ outside then cPageProtection else e)
  | .ok l =>
    if !stackOk l part then .error cPageProtection
    else
      match s.dataError l.pa n with
      | some e => .error e
      | none => .ok l

/-- The checks of the pieces of a read: their locations, or the first address and cause. -/
def searchCheck (s : State) (c : Context) (part : Option Nat) :
    List (Nat × Nat) → Except (Nat × BitVec 8) (List (Nat × Loc × Nat))
  | [] => .ok []
  | (va, n) :: r =>
    match s.stackCheck c part va n with
    | .ok l => (searchCheck s c part r).map fun x => (va, l, n) :: x
    | .error e => .error (va, e)

/-- What a read that meets a cause has cost (R79, R91, R253): the walks of its pieces up to the one that met it and, where memory failed,
the bytes fetched. -/
def State.searchCost (s : State) (c : Context) (world : Nat) (cause : BitVec 8) (ps : List (Nat × Nat)) : State :=
  ps.foldl (fun a x =>
    let a1 := a.fillTlbs c [x.1]
    match a.resolve6 c c.priv .read x.1 x.2 with
    | .ok l =>
      if (cause = cDataUncorrectable ∨ cause = cIntegrity) ∧ l.space = spLocal then
        a1.readLocal world ioPort (if l.nc then 3 else 0) [(l.pa, x.2)]
      else a1
    | .error _ => a1) s

/-- A Sheepdog reads bytes in a context, through their slices: what comes from its stack counts on the world's meters (R253). A read that
does not pass gives the address and the cause, with the state that it leaves. -/
def State.searchRead (s : State) (c : Context) (world : Nat) (part : Option Nat) (va n : Nat) :
    Except (Nat × BitVec 8 × State) (State × List Byte) :=
  let ps := pageCuts va n
  match searchCheck s c part ps with
  | .error e => .error (e.1, e.2, s.searchCost c world e.2 (ps.filter fun x => decide (x.1 ≤ e.1)))
  | .ok ls =>
    .ok (ls.foldl (fun (a : State × List Byte) x =>
      let s1 := (a.1.fillTlbs c [x.1]).readLocal world ioPort (if x.2.1.nc then 3 else 0) [(x.2.1.pa, x.2.2)]
      (s1.correct x.2.1.pa x.2.2, a.2 ++ s1.readBytes spLocal x.2.1.pa x.2.2)) (s, []))

/-! ## Distances (R244, R245) -/

/-- Bytes of a node's vector, and of the query's. -/
def vecBytes (fmt dim : Nat) : Nat := if fmt = 0 then 2 * dim else if fmt = 1 then dim else dim / 256 * 136
def queryBytes (fmt dim : Nat) : Nat := if fmt = 1 then dim else 2 * dim

/-- The elements of a vector of F16 or S8. -/
def plainElems (s8 : Bool) (dim : Nat) (b : List Byte) : List FVal :=
  if s8 then b.map fun x => .fin (decide (x.toInt < 0)) x.toInt.natAbs 0
  else (List.range dim).map fun k => fval 8 (ofBytes [b.getD (2 * k) 0, b.getD (2 * k + 1) 0])

/-- The elements of a GQ4 super-block image: their defining F32 values (R160). -/
def gq4Elems (b : List Byte) : List FVal :=
  let ss := ofBytes ((b.drop 132).take 4)
  (List.range 256).map fun j =>
    let x := (b.getD (j / 2) 0).toNat
    let i := if j % 2 = 0 then x % 16 else x / 16
    fval 10 (rounded Modes.exactRne 10 0 (gq4Value (gq4Level i) (b.getD (128 + j / 64) 0).toNat ss)).1

/-- The elements of a node's vector. -/
def nodeElems (fmt dim : Nat) (b : List Byte) : List FVal :=
  if fmt = 2 then (List.range (dim / 256)).flatMap fun k => gq4Elems ((b.drop (136 * k)).take 136)
  else plainElems (fmt == 1) dim b

/-- A value is neither a NaN nor an infinity. -/
def FVal.finite (x : FVal) : Bool :=
  match x with
  | .fin _ _ _ => true
  | _ => false

/-- The distance of a node: the exact sum rounded once to F32; +∞ for a vector that is not finite; zero is +0 (R244). -/
def distance (metric : Nat) (q x : List FVal) : BitVec 32 :=
  if x.any fun v => !v.finite then 0x7F800000
  else
    let term (a b : FVal) : FVal :=
      if metric = 0 then
        let d := (fadd false a b.neg).1
        (fmul d d).1
      else (fmul a b).1
    let sum := (q.zip x).foldl (fun s p => (fadd false s (term p.1 p.2)).1) (.fin false 0 0)
    let r := (roundTo Modes.exactRne 10 (if metric = 0 then sum else sum.neg) 0).1
    if r % 2 ^ 31 = 0 then 0 else BitVec.ofNat 32 r

/-- The order of candidates (R245). -/
def candLt (a b : BitVec 32 × Nat) : Bool :=
  let x := fkey0 10 a.1.toNat
  let y := fkey0 10 b.1.toNat
  decide (x < y) || (decide (x = y) && decide (a.2 < b.2))

/-- Put a candidate in its place among those that are ordered, best first. -/
def candPut (e : BitVec 32 × Nat) : List (BitVec 32 × Nat) → List (BitVec 32 × Nat)
  | [] => [e]
  | x :: r => if candLt e x then e :: x :: r else x :: candPut e r

/-- `Insert` of R246: the beam keeps its `w` best. -/
def candInsert (w : Nat) (c : List (BitVec 32 × Nat)) (e : BitVec 32 × Nat) : List (BitVec 32 × Nat) := (candPut e c).take w

/-! ## The end of a query (R248, R249) -/

/-- Status codes (Table 10.3). -/
abbrev qDone : Nat := 0
abbrev qExpLimit : Nat := 1
abbrev qVisitFull : Nat := 2
abbrev qCancelled : Nat := 3
abbrev qFailed : Nat := 4

/-- The bytes of a result buffer (R248). -/
def resultBytes (q : Query) (status : Nat) (cause : BitVec 8) : List Byte :=
  let failed := status == qFailed
  let cs := if failed then [] else q.cand
  let word := q.nexp % 65536 * 2 ^ 48 + (if failed then 0 else q.visited.length % 65536) * 2 ^ 32 +
    (if q.skipped then 2 ^ 16 else 0) + cause.toNat * 2 ^ 8 + status
  ((List.range (sCount q.pkt.bytes)).flatMap fun i =>
    match cs[i]? with
    | some e => toBytes 4 e.1.toNat ++ toBytes 4 e.2
    | none => toBytes 4 0x7F800000 ++ toBytes 4 0xFFFFFFFF) ++ toBytes 8 word

/-- How a write of several pieces ends. -/
inductive Wrote
  | all (s : State)
  | failed (s : State) (cause : BitVec 8)
  | wait
deriving Repr

/-- A Sheepdog writes the pieces of a result to device memory, as far as they pass (R249). -/
def writePieces (c : Context) (o : Origin) (core : Nat) : List (Nat × List Byte) → State → Wrote
  | [], s => .all s
  | (va, bs) :: r, s =>
    match s.engAcc o.world c .write va bs.length with
    | .at_ l => writePieces c o core r (s.engWrite o core 0 va l bs)
    | .fault e => .failed s e
    | .fail e => .failed s e
    | .wait p => if s.pathLost p then .failed s cRemoteLoadFailed else .wait

/-- A query ends: its result is written, then counted in one arrival. None while the write waits for a path to a peer. -/
def State.searchEnd (s : State) (dog place : Nat) (q : Query) (status : Nat) (cause : BitVec 8) : Option State :=
  let b := q.pkt.bytes
  let bs := resultBytes q status cause
  let x := s.dog dog
  let s0 := s.setDog dog { x with active := x.active.filter fun y => !(y.pkt.place == place && y.core == q.core) }
  let counted (s : State) : State := (s.writerDone q.core place fun _ => true).packetUpdate q.pkt q.core true bs.length none
  if sRdev b then
    match s0.ctx? q.pkt.org.ctx with
    | none => some s0
    | some c =>
      let k := inPage (sResult b) bs.length
      let ps := (sResult b, bs.take k) :: (if k < bs.length then [(sResult b + k, bs.drop k)] else [])
      match writePieces c q.pkt.org q.core ps s0 with
      | .all s1 => some (counted s1)
      | .failed s1 e => some (s1.packetError q.pkt q.core true e)
      | .wait => none
  else
    match s0.packetTeam q.pkt with
    | none => some s0
    | some t => some (counted (s0.spadWrite q.core (t.base + sResult b) bs))

/-- Replace an active query. -/
def State.setQuery (s : State) (dog idx : Nat) (q : Query) : State :=
  let x := s.dog dog
  s.setDog dog { x with active := x.active.set idx q }

/-- The check at the top of the loop of R246: the query ends, or its next expansion begins (R253). -/
def State.searchLoop (s : State) (dog idx : Nat) (q : Query) : Option State :=
  let place := q.pkt.place
  if q.cancel then s.searchEnd dog place q qCancelled 0
  else
    match q.cand.find? fun e => !q.expanded.contains e.2 with
    | none => s.searchEnd dog place q qDone 0
    | some (_, u) =>
      if q.nexp = pkLen q.pkt.bytes then s.searchEnd dog place q qExpLimit 0
      else
        some ((s.meter q.pkt.org.world 6 1).setQuery dog idx
          { q with expanded := q.expanded ++ [u], nexp := q.nexp + 1, stage := .list u, head := [], stall := none })

/-- A read of a query that does not pass: it waits on the fault (R250), or the query ends FAILED. -/
def State.searchStop (s : State) (dog idx : Nat) (q : Query) (e : Nat × BitVec 8) : Option State :=
  if replayable e.2 then
    let (s1, w) := (s.useSignal q.stall).repost q.pkt.org q.core (BitVec.ofNat 64 e.1) e.2 5 q.stall
    some (s1.setQuery dog idx { q with stall := some w })
  else (s.useSignal q.stall).searchEnd dog q.pkt.place q qFailed e.2

/-! ## Acceptance (R243) -/

/-- The graph of a name: the base of its object (step 1 of R243). -/
def searchGraph (s : State) (ctx name : Nat) : State × Except (BitVec 8) Nat :=
  if !bit name 127 ∨ fld name 124 3 ≠ 3 then (s, .error cNameUnresolved)
  else
    match s.swizzle ctx name with
    | (s1, .error e) => (s1, .error e)
    | (s1, .ok a) =>
      match s1.ctx? ctx with
      | none => (s1, .error cNameUnresolved)
      | some c =>
        match s1.rangeOf c a.toNat with
        | .error e => (s1, .error e)
        | .ok none => (s1, .error cNameUnresolved)
        | .ok (some r) => (s1, if bit r.rights 3 then .ok r.base else .error cNameRights)

/-- The header's fields as a query holds them, and whether one is out of range for its packet (R238, step 2 of R243). -/
def searchHeader (q : Query) (base : Nat) (h : List Byte) : Query × Bool :=
  let nodes := pk h 0 4
  let dim := pk h 4 2
  let fmt := pk h 6 1 % 4
  let deg := pk h 7 1
  let sz := pk h 8 4
  let parts := (List.range 8).map fun p => pk h (16 + 8 * p) 8
  let vb := (vecBytes fmt dim + 15) / 16 * 16
  let ok := decide (1 ≤ nodes) && decide (nodes ≤ 0xFFFFFFFE) && decide (1 ≤ dim) && decide (dim ≤ 4096) &&
    (fmt != 2 || dim % 256 == 0) && fmt != 3 && decide (1 ≤ deg) && decide (sz % 16 = 0) && decide (vb + 4 + 4 * deg ≤ sz) &&
    (parts.all fun p => decide (p % 65536 = 0)) && fmt == sFmt q.pkt.bytes && decide (sEntry q.pkt.bytes < nodes)
  ({ q with base := base, nodes := nodes, dim := dim, fmt := fmt, deg := deg, nodeSz := sz, parts := parts }, !ok)

/-- The query vector (step 3 of R243): its bytes, a cause, or a wait for absent chunks of scratchpad. -/
def searchVector (s : State) (c : Context) (q : Query) : Option (Except (Nat × BitVec 8 × State) (State × List Byte)) :=
  let n := queryBytes q.fmt q.dim
  let b := q.pkt.bytes
  let got : Option (Except (Nat × BitVec 8 × State) (State × List Byte)) :=
    if sQscr b then
      match s.packetTeam q.pkt with
      | none => some (.error (sQuery b, cScratchRange, s))
      | some t =>
        if t.ringStart < sQuery b + n then some (.error (sQuery b, cScratchRange, s))
        else if absent (s.core q.core) (t.base + sQuery b) n then none
        else some (.ok (s, spadRead (s.core q.core) (t.base + sQuery b) n))
    else some (s.searchRead c q.pkt.org.world none (sQuery b) n)
  match got with
  | some (.ok (s1, bs)) =>
    if q.fmt ≠ 1 ∧ (plainElems false q.dim bs).any fun v => !v.finite then some (.error (sQuery b, cIllegalOperand, s1))
    else some (.ok (s1, bs))
  | x => x

/-- The steps of acceptance for an active query that has not passed them. -/
def searchAccept (s : State) (dog idx : Nat) (q : Query) (c : Context) : Option State :=
  let head : Except (BitVec 8 × Nat × State) (State × Query) :=
    if q.nodes ≠ 0 then .ok (s, q)
    else
      match searchGraph s c.num (sGraph q.pkt.bytes) with
      | (s1, .error e) => .error (e, 0, s1)
      | (s1, .ok base) =>
        match (s1.ctx? c.num).map fun c => s1.searchRead c q.pkt.org.world none base 256 with
        | some (.ok (s2, h)) =>
          let (q1, bad) := searchHeader q base h
          if bad then .error (cIllegalOperand, 0, s2) else .ok (s2, q1)
        | some (.error (va, e, s2)) => .error (e, va, s2)
        | none => .ok (s1, q)
  match head with
  | .error (e, va, s1) => s1.searchStop dog idx q (va, e)
  | .ok (s1, q1) =>
    match searchVector s1 c q1 with
    | none => some (s1.setQuery dog idx q1)
    | some (.error (va, e, s2)) => s2.searchStop dog idx q1 (va, e)
    | some (.ok (s2, bs)) =>
      some ((s2.useSignal q.stall).setQuery dog idx
        { q1 with qvec := bs, visited := [sEntry q.pkt.bytes], stage := .entry, stall := none })

/-- A query ends without the read it waits for when a save of its team is to end it (R252). A query that only a SCANCEL has marked goes
on to the check of R246. One that has a context and is not accepted waits, for a page or for absent chunks of its query vector. -/
def State.endsMarked (s : State) (q : Query) : Bool :=
  q.cancel && (q.stall.isSome || q.stage == .admitted) && !sRdev q.pkt.bytes &&
    match s.packetTeam q.pkt with
    | some t => t.saveRec.isSome && !t.saveSent
    | none => false

/-- SEARCH_ACCEPT (R237, R243, R252, R256): a query that a save ends is CANCELLED, an accepted query whose reads waited
goes on, or the oldest admitted query takes one of the 16 contexts; one that is marked ends CANCELLED at once. -/
def execSearchAccept (dog : Nat) (s : State) : Out :=
  if 8 ≤ dog then .fault .noSuchUnit
  else
    let x := s.dog dog
    match x.active.findSome? fun q =>
        if s.endsMarked q then (s.useSignal q.stall).searchEnd dog q.pkt.place q qCancelled 0 else none with
    | some s1 => .next s1
    | none =>
    let again := x.active.findIdx? fun q => q.stage == .admitted && s.mayRetry q.stall &&
      (q.stall.isSome || !sQscr q.pkt.bytes ||
        match s.packetTeam q.pkt with
        | some t => !absent (s.core q.core) (t.base + sQuery q.pkt.bytes) (queryBytes q.fmt q.dim)
        | none => true)
    let go (s : State) (idx : Nat) (q : Query) : Out :=
      match s.ctx? q.pkt.org.ctx with
      | none => .next (s.setDog dog { s.dog dog with active := (s.dog dog).active.eraseIdx idx })
      | some c => .next ((searchAccept s dog idx q c).getD s)
    match again with
    | some idx =>
      match x.active[idx]? with
      | some q => go s idx q
      | none => .next s
    | none =>
      match x.admission with
      | [] => .next s
      | q :: r =>
        if 16 ≤ x.active.length then .next s
        else
          let s1 := s.setDog dog { x with admission := r, active := x.active ++ [q] }
          if q.cancel then .next ((s1.searchEnd dog q.pkt.place q qCancelled 0).getD s)
          else go s1 x.active.length q

/-! ## Expansions (R246, R247) -/

/-- The address of a node's slot (R239). -/
def Query.slot (q : Query) (v : Nat) : Nat := q.base + q.parts.getD (v % 8) 0 + v / 8 * q.nodeSz

/-- Offset of the neighbour count in a slot. -/
def Query.vb (q : Query) : Nat := (vecBytes q.fmt q.dim + 15) / 16 * 16

/-- The new ids of a neighbour list: below NODES, not visited, not earlier in the list. -/
def newIds (nodes : Nat) (visited : List Nat) : List Nat → List Nat → List Nat
  | _, [] => []
  | seen, v :: r =>
    if v < nodes ∧ !visited.contains v ∧ !seen.contains v then v :: newIds nodes visited (v :: seen) r
    else newIds nodes visited (v :: seen) r

/-- An active query that may go on. -/
def State.query? (s : State) (dog idx : Nat) : Option (Query × Context) :=
  match (s.dog dog).active[idx]? with
  | none => none
  | some q => if s.mayRetry q.stall then (s.ctx? q.pkt.org.ctx).map fun c => (q, c) else none

/-- The first sector of the neighbour list at an address, which holds the count (R251): as it has been read, or is read now. -/
def State.listHead (s : State) (c : Context) (q : Query) (u at_ : Nat) : Except (Nat × BitVec 8 × State) (State × List Byte) :=
  if q.head ≠ [] then .ok (s, q.head)
  else
    match s.searchRead c q.pkt.org.world (some (u % 8)) at_ 16 with
    | .ok x => .ok x
    | .error _ => s.searchRead c q.pkt.org.world (some (u % 8)) at_ 4

/-- The rest of a neighbour list of `n` ids, after what has been read of it. -/
def State.listRest (s : State) (c : Context) (q : Query) (u at_ n have_ : Nat) : Except (Nat × BitVec 8 × State) (State × List Byte) :=
  if 4 + 4 * n ≤ have_ then .ok (s, []) else s.searchRead c q.pkt.org.world (some (u % 8)) (at_ + have_) (4 + 4 * n - have_)

/-- NEIGHBOUR_LIST_REPLY (R239, R246, R247): the list of the expanded node reaches the owner. Its first sector, once read, is not read again
where the rest of it waits for a page (R251). -/
def execNeighbourListReply (dog query : Nat) (s : State) : Out :=
  if 8 ≤ dog then .fault .noSuchUnit
  else
    match s.query? dog query with
    | none => .next s
    | some (q, c) =>
      match q.stage with
      | .list u =>
        let at_ := q.slot u + q.vb
        match s.listHead c q u at_ with
        | .error (va, e, s1) => .next ((s1.searchStop dog query q (va, e)).getD s)
        | .ok (s1, h) =>
          let n := ofBytes (h.take 2)
          if q.deg < n then .next ((s1.searchStop dog query q (at_, cIllegalOperand)).getD s)
          else
            match s1.listRest c q u at_ n h.length with
            | .error (va, e, s2) => .next ((s2.searchStop dog query { q with head := h } (va, e)).getD s)
            | .ok (s2, more) =>
              let bs := h ++ more
              let ids := (List.range n).map fun k => ofBytes ((bs.drop (4 + 4 * k)).take 4)
              let new := newIds q.nodes q.visited [] ids
              let q1 := { q with skipped := q.skipped || ids.any (fun v => decide (q.nodes ≤ v)), head := [], stall := none }
              let s3 := s2.useSignal q.stall
              if Config.visitLimit < q.visited.length + new.length then
                .next ((s3.searchEnd dog q.pkt.place q1 qVisitFull 0).getD s)
              else
                let q2 := { q1 with visited := q.visited ++ new, stage := .dists new [] }
                if new = [] then .next ((s3.searchLoop dog query q2).getD s) else .next (s3.setQuery dog query q2)
      | _ => .next s

/-- The id whose distance is computed next, with the ids and answers of the stage. -/
def Query.nextDist (q : Query) : Option (Nat × List Nat × List (Nat × BitVec 32)) :=
  match q.stage with
  | .entry => some (sEntry q.pkt.bytes, [sEntry q.pkt.bytes], [])
  | .dists ids got => (ids.find? fun v => !got.any fun g => g.1 == v).map fun v => (v, ids, got)
  | _ => none

/-- DISTANCE_REQUEST (R244, R247): the Sheepdog of the node's stack computes its distance and returns it. -/
def execDistanceRequest (dog query : Nat) (s : State) : Out :=
  if 8 ≤ dog then .fault .noSuchUnit
  else
    match s.query? dog query with
    | none => .next s
    | some (q, c) =>
      match q.nextDist with
      | none => .next s
      | some (v, ids, got) =>
        match s.searchRead c q.pkt.org.world (some (v % 8)) (q.slot v) (vecBytes q.fmt q.dim) with
        | .error (va, e, s1) => .next ((s1.searchStop dog query q (va, e)).getD s)
        | .ok (s1, bs) =>
          let d := distance (sMetric q.pkt.bytes) (plainElems (q.fmt == 1) q.dim q.qvec) (nodeElems q.fmt q.dim bs)
          .next ((s1.useSignal q.stall).setQuery dog query { q with stage := .dists ids (got ++ [(v, d)]), stall := none })

/-- DISTANCE_ANSWER (R246, R247): the owner merges the next distance of the list, and after the last begins the next expansion
or ends the query. -/
def execDistanceAnswer (dog query : Nat) (s : State) : Out :=
  if 8 ≤ dog then .fault .noSuchUnit
  else
    match s.query? dog query with
    | none => .next s
    | some (q, _) =>
      match q.stage with
      | .dists (v :: r) got =>
        match got.find? fun g => g.1 == v with
        | none => .next s
        | some g =>
          let q1 := { q with cand := candInsert (sWidth q.pkt.bytes) q.cand (g.2, v),
                             stage := .dists r (got.filter fun x => x.1 != v) }
          if r = [] then .next ((s.searchLoop dog query q1).getD s) else .next (s.setQuery dog query q1)
      | _ => .next s

/-! ## SCANCEL (R256) -/

/-- SCANCEL_MARK_ARRIVAL: a mark reaches a Sheepdog, which marks the queries of the context and TAG that belong to it and have
not written their results, and answers with their number. -/
def execScancelMarkArrival (dog : Nat) (s : State) : Out :=
  if 8 ≤ dog then .fault .noSuchUnit
  else
    let x := s.dog dog
    match x.marks with
    | [] => .next s
    | m :: r =>
      let hits (p : Packet) : Bool :=
        p.org.ctx == m.ctx && pkKind p.bytes == 0x10 && sTag p.bytes == m.tag && sEntry p.bytes % 8 == dog &&
          !searchBad p.bytes p.queue.isSome && !searchRange (s.packetTeam p) p.bytes
      let mark (q : Query) : Query := if hits q.pkt then { q with cancel := true } else q
      let markP (p : Packet) : Packet := if hits p then { p with cancel := true } else p
      let far := (s.cores.map fun c => ((c.search ++ c.queue).filter hits).length).foldl (· + ·) 0
      let near := ((x.inbound ++ x.admission ++ x.active).filter fun q => hits q.pkt).length
      let core (c : Core) : Core := { c with search := c.search.map markP, queue := c.queue.map markP }
      let s1 := { s with cores := s.cores.map core }
      let s2 := s1.setDog dog { x with inbound := x.inbound.map mark, admission := x.admission.map mark,
                                       active := x.active.map mark, marks := r }
      let key (k : Cancel) : Bool := k.core == m.core && k.port == m.port && k.slot == m.slot && k.lanes == m.lanes
      .next { s2 with cancels := s2.cancels.map fun k => if key k then { k with ready := k.ready ++ [(dog, far + near)] } else k }

/-- SCANCEL_ANSWER: a Sheepdog's answer arrives; with the eighth the SCANCEL completes, in a new region. -/
def execScancelAnswer (dog core port slot : Nat) (s : State) : Out :=
  if 8 ≤ dog then .fault .noSuchUnit
  else
    let mine (k : Cancel) : Bool := k.core == core && k.port == port && k.slot == slot && k.ready.any fun a => a.1 == dog
    match s.cancels.find? mine with
    | none => .next s
    | some k =>
      let n := ((k.ready.find? fun a => a.1 == dog).map (·.2)).getD 0
      let k1 := { k with ready := k.ready.filter (fun a => a.1 != dog), left := k.left - 1, count := k.count + n }
      if k1.left ≠ 0 then
        .next { s with cancels := s.cancels.map fun y => if mine y && y.lanes == k.lanes then k1 else y }
      else
        let s1 := { s with cancels := s.cancels.filter fun y => !(mine y && y.lanes == k.lanes) }
        let key := slotKey core port slot
        match s1.group? key with
        | none => .next s1
        | some g =>
          let g1 := g.gset k.dreg (BitVec.ofNat 64 k1.count)
          .next (s1.setGroup key (g1.onLanes k.lanes fun _ x =>
            if x.st = .parked .scancel then { x with st := .ready, pc := x.pc + 12, tregion := x.pc + 12 } else x))

end Sys2Proof.Machine
end

