-- ==== Sys2Proof/Machine/Srch.lean ====
section
/-! DEFINITION. SRCH and SCANCEL (10_stack_search.md R254 to R256), and the NET major: NWRI, NPOLL and FERRQ
(12_fabric_and_network.md R307 to R310). -/

namespace Sys2Proof.Machine

open Sys2Proof.Bits

/-- Submit the packet at A to one of the core's ports, or return QFULL (R255, R308). -/
def submitPort (s : State) (f : FmtW) (room : Core → Bool) (chunks : Team → List Byte → List Nat)
    (put : Core → Packet → Core) : Out :=
  let a := src10 f.m.a
  issueMem s (headW f false false []) true (fun _ => a.isG && d8Ok f.m.d.toNat) fun i s =>
    let off := (i.uni a).toNat
    match packetCause i.t off with
    | some c => (s, { i.eff with traps := trapSet i.sub c (BitVec.ofNat 64 off) 0 7 })
    | none =>
      if room (s.core i.core) then
        let b := teamPacket s i.t off
        let (s1, place) := s.takePlace i.core (chunks i.t b)
        let p : Packet :=
                  { bytes := b, org := i.origin s, queue := none, place := place, stall := none, cancel := false }
        (lateK (s1.setCore i.core (put (s1.core i.core) p)) i f.m.d.toNat true, { i.eff with region := true })
      else (lateK s i f.m.d.toNat false, { i.eff with region := true })

/-- SRCH (R255): the search port holds 8 packets. -/
def execSrch (f : FmtW) (s : State) : Out :=
  submitPort s f (fun c => decide (c.search.length < 8)) (fun t b => if pkKind b = 0x10 then packetChunks t b else [])
    fun c p => { c with search := c.search ++ [p] }

/-- SCANCEL (R256): its marks leave for the eight Sheepdogs and the sub-group parks. -/
def execScancel (f : FmtW) (s : State) : Out :=
  let a := src10 f.m.a
  issueMem s (headW f false false []) false (fun _ => a.isG && dgOk f.m.d.toNat) fun i s =>
    let m : Mark := { ctx := i.t.ctx, tag := i.uni a, core := i.core, port := i.port, slot := keySlot i.key, lanes := i.sub }
    ({ s with
        dogs := s.dogs.map fun d => { d with marks := d.marks ++ [m] },
        cancels := s.cancels ++ [{ core := i.core, port := i.port, slot := keySlot i.key, dreg := f.m.d.toNat, lanes := i.sub,
                                   ready := [], left := 8, count := 0 }] },
     { i.eff with parks := [(i.sub, .scancel)] })

/-- NWRI (R308): the network port holds 8 packets. -/
def execNwri (f : FmtW) (s : State) : Out :=
  submitPort s f (fun c => decide (c.net.length < 8)) (fun _ _ => []) fun c p => { c with net := c.net ++ [p] }

/-- NPOLL (R309). A ring in pages that are not the world's any more raises the cause of the check, with TADDR 0 (R84; log 75). -/
def execNpoll (f : FmtW) (s : State) : Out :=
  let a := src10 f.m.a
  let okA := a.isG || (a.isImm && match a with
    | .imm x _ => decide (0 ≤ x) && decide (x ≤ 15)
    | _ => false)
  let x := f.aux.toNat
  issueMem s (headW f false (wRel f || decide (2 ≤ x)) []) false (fun _ => okA && dgOk f.m.d.toNat) fun i s =>
    let n := (i.uni a).toNat
    let ring := ((s.ctx? i.t.ctx).map (·.rings)).getD []
    match ring.find? fun r => r.1 == n with
    | none => (s, { i.eff with traps := trapSet i.sub cIllegalOperand 0 0 7 })
    | some (_, q) =>
      let w := s.issWorld i
      let (s, r) := s.ringGet w (q.desc + 128) 8
      let ea := q.desc + 4096 + 8 * (r % 2 ^ q.n)
      match (walkerPass s.mem w q.desc false).or (walkerPass s.mem w ea false) with
      | some c => (s, { i.eff with traps := trapSet i.sub c 0 0 7 })
      | none =>
      let (s, e) := s.ringGet w ea 8
      if bit e 63 then
        let s1 := (s.ringPut w ea (toBytes 8 (e % 2 ^ 63))).ringPut w (q.desc + 128) (toBytes 8 (r + 1))
        ((lateG s1 i f.m.d.toNat (BitVec.ofNat 64 e)).acquire i.core 4 (wAcq f), { i.eff with region := true })
      else if bit x 0 then (s, { i.eff with parks := [(i.sub, .ring n)] })
      else (lateG s i f.m.d.toNat 0, i.eff)

/-- FERRQ (R310): WRIDX is read with an acquire at .sys (R290). A queue in pages that are not the world's any more raises the cause of the
check (R84; log 75). -/
def execFerrq (f : FmtW) (s : State) : Out :=
  let a := src10 f.m.a
  issueMem s (headW f false false []) false (fun _ => a.isG && dgOk f.m.d.toNat) fun i s =>
    let off := (i.uni a).toNat
    let trap (c : BitVec 8) : State × Eff := (s, { i.eff with traps := trapSet i.sub c (BitVec.ofNat 64 off) 0 7 })
    if off % 32 ≠ 0 then trap cMisaligned
    else if i.t.ringStart < off + 32 then trap cScratchRange
    else
      let q? := (s.ctx? i.t.ctx).bind (·.errq)
      match q? with
      | none => (lateG s i f.m.d.toNat 0, { i.eff with region := true })
      | some q =>
        let world := s.issWorld i
        let (s, w) := (s.acquire i.core 4 true).ringGet world q.desc 8
        let (s, r) := s.ringGet world (q.desc + 128) 8
        match (walkerPass s.mem world q.desc false).or (walkerPass s.mem world (q.desc + 4096 + 32 * (r % 2 ^ q.n)) false) with
        | some c => (s, { i.eff with traps := trapSet i.sub c 0 0 7 })
        | none =>
        let held := (w + 2 ^ 64 - r) % 2 ^ 64
        if held = 0 then (lateG s i f.m.d.toNat 0, { i.eff with region := true })
        else
          let (s, x) := s.ringGet world (q.desc + 4096 + 32 * (r % 2 ^ q.n)) 32
          let s1 := (s.spadWrite i.core (i.t.base + off) (toBytes 32 x)).ringPut world (q.desc + 128) (toBytes 8 (r + 1))
          (lateG s1 i f.m.d.toNat (BitVec.ofNat 64 held), { i.eff with region := true })

end Sys2Proof.Machine
end

