-- ==== Sys2Proof/WellFormed.lean ====
section
/-! DEFINITION. When an instruction term is one that the word map can hold (02_instruction_words.md Table 2.12 and the
rows that one AUX, COND or B code singles out), and when a step's operands name units that the device has
(00_scope.md Table 0.1). -/

namespace Sys2Proof

/-- The LEN code of a major (Table 2.12), or none for a reserved major (R28). -/
def majorLen (maj : Nat) : Option Nat :=
  if maj ≤ 5 then some 0
  else if maj = 6 then some 1
  else if maj = 7 then none
  else if maj ≤ 0x0E then some 1
  else if maj = 0x0F then some 3
  else if maj ≤ 0x19 then some 2
  else if maj ≤ 0x1B then some 1
  else if maj = 0x1C then some 2
  else none

/-- The number of minors of a major that has the 8-bit FN field (Table 2.12). -/
def majorMinors (maj : Nat) : Nat :=
  match maj with
  | 0x08 => 23
  | 0x09 => 13
  | 0x0A => 11
  | 0x0B => 6
  | 0x0C => 9
  | 0x0D => 14
  | 0x0E => 8
  | 0x0F => 2
  | 0x10 => 6
  | 0x11 => 10
  | 0x12 => 5
  | 0x13 => 11
  | 0x14 => 9
  | 0x15 => 5
  | 0x16 => 2
  | 0x17 => 3
  | 0x18 => 9
  | 0x19 => 9
  | 0x1A => 4
  | 0x1B => 6
  | 0x1C => 11
  | _ => 0

/-- Words of an instruction from its LEN code (R10, R11). -/
def lenWords (len : Nat) : Nat :=
  match len with
  | 0 => 1
  | 1 => 2
  | 2 => 3
  | _ => 5

/-- MAJ of a first word (Table 2.2). -/
def wordMaj (w : Word) : Nat := (w.extractLsb' 22 6).toNat

/-- LEN of a first word (Table 2.2). -/
def wordLen (w : Word) : Nat := (w.extractLsb' 30 2).toNat

/-- RB of a first word (Table 2.2). -/
def wordRb (w : Word) : Bool := w.getLsbD 29

/-- AUX of the third word of format W (Table 2.10); 0 where there is no third word. -/
def wordsAux (rest : List Word) : Nat :=
  match rest with
  | _ :: w2 :: _ => (w2.extractLsb' 20 4).toNat
  | _ => 0

/-- FN of the second word (Table 2.7); 0 where there is no second word. -/
def wordsFn (rest : List Word) : Nat :=
  match rest with
  | w1 :: _ => (w1.extractLsb' 4 8).toNat
  | _ => 0

/-- Words that name no instruction of Table 2.12 (R27, R28), the reserved TLBINV kind 3 (R397) and the reserved
LRESUME actions 5 to 15 (R400) included. -/
def reservedWords (w0 : Word) (rest : List Word) : Bool :=
  match majorLen (wordMaj w0) with
  | none => true
  | some len =>
    if wordLen w0 ≠ len then true
    else if wordMaj w0 ≤ 6 then false
    else if majorMinors (wordMaj w0) ≤ wordsFn rest then true
    else if wordMaj w0 = 0x1C ∧ wordsFn rest = 4 then decide (wordsAux rest % 4 = 3)
    else if wordMaj w0 = 0x1C ∧ wordsFn rest = 9 then decide (5 ≤ wordsAux rest)
    else false

/-- Core, port and slot exist (Table 0.1). -/
def unitOk (core port slot : Nat) : Bool := decide (core < 192) && decide (port < 4) && decide (slot < 16)

/-- The instruction term is one its encoding or its unit numbers allow. -/
def Instr.wf (i : Instr) : Bool :=
  match i with
  | .pfx _ => true
  | .vaddS32Short _ => true
  | .vsubS32Short _ => true
  | .vandB64Short _ => true
  | .vxorB64Short _ => true
  | .faddF32Short _ => true
  | .fsubF32Short _ => true
  | .fmulF32Short _ => true
  | .fmaxF32Short _ => true
  | .faddF16Short _ => true
  | .fmulF16Short _ => true
  | .faddBf16Short _ => true
  | .fmulBf16Short _ => true
  | .vmovShort _ => true
  | .xbflyShort _ => true
  | .vshlB64Short _ => true
  | .nop _ => true
  | .br _ => true
  | .brn _ => true
  | .pair _ => true
  | .vadd _ => true
  | .vsub _ => true
  | .vmul _ => true
  | .vmulh _ => true
  | .vmad _ => true
  | .vmin _ => true
  | .vmax _ => true
  | .vabs _ => true
  | .vneg _ => true
  | .vand _ => true
  | .vor _ => true
  | .vxor _ => true
  | .vnot _ => true
  | .vshl _ => true
  | .vshr _ => true
  | .vsar _ => true
  | .vrot _ => true
  | .vclz _ => true
  | .vpopc _ => true
  | .vcmp _ => true
  | .vsel _ => true
  | .vmov _ => true
  | .vshf _ => true
  | .fadd _ => true
  | .fsub _ => true
  | .fmul _ => true
  | .ffma _ => true
  | .ffms _ => true
  | .fmin _ => true
  | .fmax _ => true
  | .fabs _ => true
  | .fneg _ => true
  | .fcmp _ => true
  | .fclass _ => true
  | .fround _ => true
  | .fscale _ => true
  | .fdiv _ => true
  | .fsqrt _ => true
  | .frcp _ => true
  | .frsq _ => true
  | .fexp2 _ => true
  | .flog2 _ => true
  | .fsin _ => true
  | .fcos _ => true
  | .ftanh _ => true
  | .fsigm _ => true
  | .fact _ => true
  | .cvt _ => true
  | .cvtq _ => true
  | .cvtb _ => true
  | .dq _ => true
  | .vhad _ => true
  | .vdithSet f => decide (f.b ≠ 0x281#10)
  | .vdithAdv f => decide (f.b = 0x281#10)
  | .xget _ => true
  | .xput _ => true
  | .xshfl _ => true
  | .xbfly _ => true
  | .xrot _ => true
  | .xbcast _ => true
  | .xred _ => true
  | .xscan _ => true
  | .xballot _ => true
  | .gmov _ => true
  | .gadd _ => true
  | .gsub _ => true
  | .gmul _ => true
  | .gand _ => true
  | .gor _ => true
  | .gxor _ => true
  | .gshl _ => true
  | .gshr _ => true
  | .gsar _ => true
  | .gcmp _ => true
  | .gsel _ => true
  | .vtog _ => true
  | .gtov _ => true
  | .kset _ => true
  | .kand _ => true
  | .kor _ => true
  | .kxor _ => true
  | .knot _ => true
  | .kmov _ => true
  | .kpop _ => true
  | .kfirst _ => true
  | .vldi _ => true
  | .gldi _ => true
  | .ld _ => true
  | .st _ => true
  | .lds _ => true
  | .sts _ => true
  | .pftch _ => true
  | .cflush _ => true
  | .aadd _ => true
  | .amin _ => true
  | .amax _ => true
  | .aand _ => true
  | .aor _ => true
  | .axor _ => true
  | .axch _ => true
  | .acas _ => true
  | .afadd _ => true
  | .ainc _ => true
  | .fence _ => true
  | .marm _ => true
  | .mwait _ => true
  | .tbar _ => true
  | .rbar _ => true
  | .ldp _ => true
  | .stp _ => true
  | .padd _ => true
  | .psub _ => true
  | .peq _ => true
  | .pbase _ => true
  | .psize _ => true
  | .pname _ => true
  | .pswz _ => true
  | .phold _ => true
  | .pdrop _ => true
  | .kick _ => true
  | .qring _ => true
  | .cbinit _ => true
  | .cbexp _ => true
  | .cbarr _ => true
  | .cbwait _ => true
  | .cbwaitm _ => true
  | .cbtest _ => true
  | .cberr _ => true
  | .engr _ => true
  | .mloop _ => true
  | .mdrain _ => true
  | .mclr _ => true
  | .mstat _ => true
  | .srch _ => true
  | .scancel _ => true
  | .nwri _ => true
  | .npoll _ => true
  | .ferrq _ => true
  | .cjoin _ => true
  | .csend _ => true
  | .cchoose _ => true
  | .crecv _ => true
  | .cpoll _ => true
  | .cdeleg _ => true
  | .caccept _ => true
  | .cleave _ => true
  | .cstate f => !f.aux.getLsbD 0
  | .cstateSelf f => f.aux.getLsbD 0
  | .bra _ => true
  | .brc _ => true
  | .call _ => true
  | .ret _ => true
  | .jmpi _ => true
  | .exit _ => true
  | .spawn _ => true
  | .yield _ => true
  | .idem _ => true
  | .jenr _ => true
  | .jwait _ => true
  | .jstrk _ => true
  | .jclr _ => true
  | .grow _ => true
  | .shrk _ => true
  | .atload _ => true
  | .atsel _ => true
  | .mode _ => true
  | .moder _ => true
  | .trap _ => true
  | .bkpt _ => true
  | .ecall _ => true
  | .tretRetry f => decide (f.aux.extractLsb' 0 2 = 0#2)
  | .tretSkip f => decide (f.aux.extractLsb' 0 2 = 1#2)
  | .tretExit f => decide (f.aux.extractLsb' 0 2 = 2#2)
  | .tretSave f => decide (f.aux.extractLsb' 0 2 = 3#2)
  | .csrd _ => true
  | .cswr _ => true
  | .tlbinvPage f => decide (f.aux.extractLsb' 0 2 = 0#2)
  | .tlbinvAsid f => decide (f.aux.extractLsb' 0 2 = 1#2)
  | .tlbinvAll f => decide (f.aux.extractLsb' 0 2 = 2#2)
  | .potset _ => true
  | .halt _ => true
  | .tstateRd f => !f.aux.getLsbD 0
  | .tstateWr f => f.aux.getLsbD 0
  | .lresumeReplay f => decide (f.aux = 0#4)
  | .lresumeRetry f => decide (f.aux = 1#4)
  | .lresumeSkip f => decide (f.aux = 2#4)
  | .lresumeKill f => decide (f.aux = 3#4)
  | .lresumeRun f => decide (f.aux = 4#4)
  | .reservedMajor w0 rest => reservedWords w0 rest && decide (rest.length + 1 = lenWords (wordLen w0))
  | .barrelTurn core port => decide (core < 192) && decide (port < 4)
  | .runFetch core port slot => unitOk core port slot
  | .resultArrival core port slot _ => unitOk core port slot
  | .yieldCountExpiry core port slot => unitOk core port slot
  | .teamEnd _ => true
  | .recordAccept queue => decide (queue < 64)
  | .saveRequest _ => true
  | .teamSaved _ => true
  | .fenceComplete core port slot => unitOk core port slot
  | .tlbinvComplete core port slot => unitOk core port slot
  | .potsetComplete core port slot => unitOk core port slot
  | .ringSlotRead core => decide (core < 192)
  | .sharedQueueSlotRead queue => decide (queue < 64)
  | .copy core => decide (core < 192)
  | .copy3d core => decide (core < 192)
  | .fill core => decide (core < 192)
  | .spawnPacket core => decide (core < 192)
  | .pieceArrival core _ _ _ => decide (core < 192)
  | .engraveStart core => decide (core < 192)
  | .engraveComplete core => decide (core < 192)
  | .bankSwap core => decide (core < 192)
  | .mloopStep core _ => decide (core < 192)
  | .mdrainExecute core => decide (core < 192)
  | .mclrExecute core => decide (core < 192)
  | .atloadComplete core bank => decide (core < 192) && decide (bank < 2)
  | .searchPortForward core => decide (core < 192)
  | .searchArrival dog => decide (dog < 8)
  | .searchAccept dog => decide (dog < 8)
  | .neighbourListReply dog _ => decide (dog < 8)
  | .distanceRequest dog _ => decide (dog < 8)
  | .distanceAnswer dog _ => decide (dog < 8)
  | .scancelMarkArrival dog => decide (dog < 8)
  | .scancelAnswer dog core port slot => unitOk core port slot && decide (dog < 8)
  | .bellwetherOperation _ => true
  | .heldOperationAccept _ => true
  | .netPacket core => decide (core < 192)
  | .faultQueuePost => true
  | .teamPlacement => true
  | .queueAging queue => decide (queue < 64)
  | .sliceExpiry _ => true
  | .preemptT1Expiry _ => true
  | .preemptT2Expiry _ => true
  | .probeTimer core port slot lane => unitOk core port slot && decide (lane < 32)
  | .probeHop _ => true
  | .pageWalkComplete _ _ => true
  | .mwaitTimeout core port slot => unitOk core port slot
  | .scrubTick tier => decide (tier < 2)
  | .scrubLine tier => decide (tier < 2)
  | .bellwetherWithdrawal _ => true
  | .incomingFabricRequest _ world _ _ => decide (world < 16)
  | .remoteResponse _ => true
  | .remotePathLimit _ => true
  | .linkDown peer _ => decide (peer < 16)
  | .linkUp peer => decide (peer < 16)
  | .data peer _ => decide (peer < 16)
  | .ack peer _ => decide (peer < 16)
  | .nak peer _ => decide (peer < 16)
  | .keyswitch peer _ => decide (peer < 16)
  | .idle peer _ => decide (peer < 16)
  | .rekeySwitch peer => decide (peer < 16)
  | .linkAuthFailureLimit peer => decide (peer < 16)
  | .nwriMiddle _ => true
  | .nwriLast _ => true
  | .netAck f _ _ => decide (f.conn < 4096)
  | .netNak f _ _ => decide (f.conn < 4096)
  | .rnr f _ => decide (f.conn < 4096)
  | .rnrRetryTimer conn => decide (conn < 4096)
  | .netSilenceTimeout conn => decide (conn < 4096)
  | .netPortDown port => decide (port < 8)
  | .cxlCacheSnoop _ => true
  | .hostCxlMemRead _ _ _ => true
  | .hostCxlMemWrite _ _ _ => true
  | .spawnPortRecord port _ _ => decide (port < 64)
  | .cqbaseWrite _ => true
  | .cplbaseWrite _ => true
  | .cqtail _ => true
  | .cplheadWrite _ => true
  | .ignoredRegisterWrite _ _ _ => true
  | .ctxnew => true
  | .ctxend => true
  | .coreset => true
  | .wayset => true
  | .lqbind => true
  | .shqreg => true
  | .fltqreg => true
  | .errqreg => true
  | .preempt => true
  | .resume => true
  | .winreset => true
  | .scrubset => true
  | .fabset => true
  | .netconn => true
  | .ringreg => true
  | .worldnew _ => true
  | .worldfree => true
  | .modeset => true
  | .modesetReset _ => true
  | .logread => true
  | .reservedOpc => true
  | .boot _ => true
  | .clockStep _ _ => true
  | .thermalShutdown _ _ => true
  | .meterChainExtend => true
  | .measurements _ => true
  | .lockInterfaceRequest world _ => decide (world < 16)
  | .pldmMonitorRead => true
  | .powerCapSet _ => true
  | .firmwareUpdateImageWrite _ => true
  | .pldmLogRead _ => true
  | .tdispInterfaceRequest world _ => decide (world < 16)

end Sys2Proof
end

