-- ==== Sys2Proof/Decode.lean ====
section
/-! DEFINITION. From instruction words to instructions, total, and back (02_instruction_words.md R10, R11, R14 to R18,
R23, R25 to R28, R30, R38). Words that name no instruction decode to `.reservedMajor`, which keeps them whole (R27,
R28); the only words refused are too few for the LEN they announce. -/

namespace Sys2Proof

/-- Why words give no instruction: fewer words than LEN announces (R11). -/
inductive DecodeError
  | tooFewWords
deriving DecidableEq, Repr

/-- Format S fields of a word (Table 2.4). -/
def parseS (w : Word) : FmtS :=
  { rb := w.getLsbD 29, nw := w.getLsbD 28, d := w.extractLsb' 14 6, a := w.extractLsb' 7 7, b := w.extractLsb' 0 7 }

/-- Format P fields of a word (Table 2.14). -/
def parseP (w : Word) : FmtP :=
  { rb := w.getLsbD 29, nw := w.getLsbD 28, rnd := w.extractLsb' 19 3, sat := w.getLsbD 18, sub := w.extractLsb' 16 2,
    nf := w.getLsbD 15, rsv := w.extractLsb' 0 15 }

/-- Format B fields of a word (Table 2.11a). -/
def parseB (w : Word) : FmtB :=
  { rb := w.getLsbD 29, nw := w.getLsbD 28, k := w.extractLsb' 18 3, off := w.extractLsb' 0 18 }

/-- One slot of a pair from its 27 bits (R38). -/
def parseSlot (x : BitVec 27) : PairSlot :=
  { op := x.extractLsb' 21 6, d := x.extractLsb' 15 6, a := x.extractLsb' 8 7, b := x.extractLsb' 1 7, t := x.getLsbD 0 }

/-- Format D fields of two words: word 0 bits [21:0] are pair bits [53:32] (R38). -/
def parseD (w0 w1 : Word) : FmtD :=
  { rb := w0.getLsbD 29, nw := w0.getLsbD 28, x := parseSlot (w0.extractLsb' 0 22 ++ w1.extractLsb' 27 5),
    y := parseSlot (w1.extractLsb' 0 27) }

/-- Format M fields of two words (Table 2.7). -/
def parseM (w0 w1 : Word) : FmtM :=
  { rb := w0.getLsbD 29, nw := w0.getLsbD 28, d := w0.extractLsb' 13 9, a := w0.extractLsb' 3 10, g := w0.extractLsb' 0 3,
    b := w1.extractLsb' 22 10, c := w1.extractLsb' 12 10, ty := w1.extractLsb' 0 4 }

/-- Format W fields of three words (Table 2.10). -/
def parseW (w0 w1 w2 : Word) : FmtW :=
  { m := parseM w0 w1, scope := w2.extractLsb' 29 3, ord := w2.extractLsb' 27 2, promo := w2.getLsbD 26,
    hint := w2.extractLsb' 24 2, aux := w2.extractLsb' 20 4, imm := w2.extractLsb' 0 20 }

/-- Format WL fields of five words: the literal's low half stands in word 3 (R23). -/
def parseWL (w0 w1 w2 w3 w4 : Word) : FmtWL :=
  { w := parseW w0 w1 w2, lit := w4 ++ w3 }

/-- The instructions of format S by minor (Table 2.12, majors 0x01 to 0x04). -/
def minorsS (maj : Nat) : List (FmtS → Instr) :=
  match maj with
  | 1 => [Instr.vaddS32Short, Instr.vsubS32Short, Instr.vandB64Short, Instr.vxorB64Short]
  | 2 => [Instr.faddF32Short, Instr.fsubF32Short, Instr.fmulF32Short, Instr.fmaxF32Short]
  | 3 => [Instr.faddF16Short, Instr.fmulF16Short, Instr.faddBf16Short, Instr.fmulBf16Short]
  | 4 => [Instr.vmovShort, Instr.xbflyShort, Instr.vshlB64Short, Instr.nop]
  | _ => []

/-- VDITH: code 1 in B is .adv; every other B is judged by .set (Table 7.9, R172). -/
def decVdith (f : FmtM) : Instr := if f.b = 0x281#10 then .vdithAdv f else .vdithSet f

/-- CSTATE: AUX[0] = 1 is .self (R330). -/
def decCstate (f : FmtW) : Instr := if f.aux.getLsbD 0 then .cstateSelf f else .cstate f

/-- TRET: AUX[1:0] is the action (R394). -/
def decTret (f : FmtW) : Instr :=
  if f.aux.extractLsb' 0 2 = 0#2 then .tretRetry f
  else if f.aux.extractLsb' 0 2 = 1#2 then .tretSkip f
  else if f.aux.extractLsb' 0 2 = 2#2 then .tretExit f
  else .tretSave f

/-- TLBINV: AUX[1:0] is the kind (R397); kind 3 never reaches this point (`reservedWords`). -/
def decTlbinv (f : FmtW) : Instr :=
  if f.aux.extractLsb' 0 2 = 0#2 then .tlbinvPage f
  else if f.aux.extractLsb' 0 2 = 1#2 then .tlbinvAsid f
  else .tlbinvAll f

/-- TSTATE: AUX[0] = 1 is .wr (Table 15.11). -/
def decTstate (f : FmtW) : Instr := if f.aux.getLsbD 0 then .tstateWr f else .tstateRd f

/-- LRESUME: AUX is the action (R400); actions 5 to 15 never reach this point (`reservedWords`). -/
def decLresume (f : FmtW) : Instr :=
  if f.aux = 0#4 then .lresumeReplay f
  else if f.aux = 1#4 then .lresumeRetry f
  else if f.aux = 2#4 then .lresumeSkip f
  else if f.aux = 3#4 then .lresumeKill f
  else .lresumeRun f

/-- The instructions of format M by minor (Table 2.12). -/
def minorsM (maj : Nat) : List (FmtM → Instr) :=
  match maj with
  | 0x08 => [.vadd, .vsub, .vmul, .vmulh, .vmad, .vmin, .vmax, .vabs, .vneg, .vand, .vor, .vxor, .vnot, .vshl,
      .vshr, .vsar, .vrot, .vclz, .vpopc, .vcmp, .vsel, .vmov, .vshf]
  | 0x09 => [.fadd, .fsub, .fmul, .ffma, .ffms, .fmin, .fmax, .fabs, .fneg, .fcmp, .fclass, .fround, .fscale]
  | 0x0A => [.fdiv, .fsqrt, .frcp, .frsq, .fexp2, .flog2, .fsin, .fcos, .ftanh, .fsigm, .fact]
  | 0x0B => [.cvt, .cvtq, .cvtb, .dq, .vhad, decVdith]
  | 0x0C => [.xget, .xput, .xshfl, .xbfly, .xrot, .xbcast, .xred, .xscan, .xballot]
  | 0x0D => [.gmov, .gadd, .gsub, .gmul, .gand, .gor, .gxor, .gshl, .gshr, .gsar, .gcmp, .gsel, .vtog, .gtov]
  | 0x0E => [.kset, .kand, .kor, .kxor, .knot, .kmov, .kpop, .kfirst]
  | 0x1A => [.jenr, .jwait, .jstrk, .jclr]
  | 0x1B => [.grow, .shrk, .atload, .atsel, .mode, .moder]
  | _ => []

/-- The instructions of format W by minor (Table 2.12). -/
def minorsW (maj : Nat) : List (FmtW → Instr) :=
  match maj with
  | 0x10 => [.ld, .st, .lds, .sts, .pftch, .cflush]
  | 0x11 => [.aadd, .amin, .amax, .aand, .aor, .axor, .axch, .acas, .afadd, .ainc]
  | 0x12 => [.fence, .marm, .mwait, .tbar, .rbar]
  | 0x13 => [.ldp, .stp, .padd, .psub, .peq, .pbase, .psize, .pname, .pswz, .phold, .pdrop]
  | 0x14 => [.kick, .qring, .cbinit, .cbexp, .cbarr, .cbwait, .cbwaitm, .cbtest, .cberr]
  | 0x15 => [.engr, .mloop, .mdrain, .mclr, .mstat]
  | 0x16 => [.srch, .scancel]
  | 0x17 => [.nwri, .npoll, .ferrq]
  | 0x18 => [.cjoin, .csend, .cchoose, .crecv, .cpoll, .cdeleg, .caccept, .cleave, decCstate]
  | 0x19 => [.bra, .brc, .call, .ret, .jmpi, .exit, .spawn, .yield, .idem]
  | 0x1C => [.trap, decTret, .csrd, .cswr, decTlbinv, .potset, .halt, .bkpt, decTstate, decLresume, .ecall]
  | _ => []

/-- The instructions of format WL by minor (major 0x0F). -/
def minorsWL : List (FmtWL → Instr) := [.vldi, .gldi]

/-- The instruction of a first word and the words after it that belong to it, none where Table 2.12 lists none. -/
def decodeListed (w0 : Word) (rest : List Word) : Option Instr :=
  if reservedWords w0 rest then none
  else
    let maj := wordMaj w0
    if maj = 0 then some (.pfx (parseP w0))
    else if maj ≤ 4 then ((minorsS maj)[(w0.extractLsb' 20 2).toNat]?).map fun k => k (parseS w0)
    else if maj = 5 then some (if w0.getLsbD 21 then .brn (parseB w0) else .br (parseB w0))
    else
      match rest with
      | [w1] =>
        if maj = 6 then some (.pair (parseD w0 w1))
        else ((minorsM maj)[wordsFn rest]?).map fun k => k (parseM w0 w1)
      | [w1, w2] => ((minorsW maj)[wordsFn rest]?).map fun k => k (parseW w0 w1 w2)
      | [w1, w2, w3, w4] => (minorsWL[wordsFn rest]?).map fun k => k (parseWL w0 w1 w2 w3 w4)
      | _ => none

/-- Decoding (R10, R11, R27, R28): the instruction that begins at the first word, and the words after it. -/
def decode (ws : List Word) : Except DecodeError (Instr × List Word) :=
  match ws with
  | [] => .error .tooFewWords
  | w0 :: ws' =>
    let n := lenWords (wordLen w0) - 1
    if ws'.length < n then .error .tooFewWords
    else .ok ((decodeListed w0 (ws'.take n)).getD (.reservedMajor w0 (ws'.take n)), ws'.drop n)

/-- A first word's top ten bits (Table 2.2). -/
def head (len : Nat) (rb nw : Bool) (maj : Nat) : BitVec 10 :=
  BitVec.ofNat 2 len ++ BitVec.ofBool rb ++ BitVec.ofBool nw ++ BitVec.ofNat 6 maj

/-- Format S words (Table 2.4). -/
def encS (maj fn : Nat) (f : FmtS) : List Word :=
  [head 0 f.rb f.nw maj ++ BitVec.ofNat 2 fn ++ f.d ++ f.a ++ f.b]

/-- Format P word (Table 2.14). -/
def encP (f : FmtP) : List Word :=
  [head 0 f.rb f.nw 0 ++ f.rnd ++ BitVec.ofBool f.sat ++ f.sub ++ BitVec.ofBool f.nf ++ f.rsv]

/-- Format B word (Table 2.11a). -/
def encB (cond : Bool) (f : FmtB) : List Word :=
  [head 0 f.rb f.nw 5 ++ BitVec.ofBool cond ++ f.k ++ f.off]

/-- The 27 bits of one slot of a pair (R38). -/
def encSlot (x : PairSlot) : BitVec 27 := x.op ++ x.d ++ x.a ++ x.b ++ BitVec.ofBool x.t

/-- Format D words (R38). -/
def encD (f : FmtD) : List Word :=
  [head 1 f.rb f.nw 6 ++ (encSlot f.x).extractLsb' 5 22, (encSlot f.x).extractLsb' 0 5 ++ encSlot f.y]

/-- Format M's two words (Table 2.7), under the LEN of the major. -/
def encM (len maj fn : Nat) (f : FmtM) : List Word :=
  [head len f.rb f.nw maj ++ f.d ++ f.a ++ f.g, f.b ++ f.c ++ BitVec.ofNat 8 fn ++ f.ty]

/-- Word 2 of format W (Table 2.10). -/
def encW2 (f : FmtW) : Word := f.scope ++ f.ord ++ BitVec.ofBool f.promo ++ f.hint ++ f.aux ++ f.imm

/-- Format W words. -/
def encW (maj fn : Nat) (f : FmtW) : List Word := encM 2 maj fn f.m ++ [encW2 f]

/-- Format WL words (R23). -/
def encWL (maj fn : Nat) (f : FmtWL) : List Word :=
  encM 3 maj fn f.w.m ++ [encW2 f.w, f.lit.extractLsb' 0 32, f.lit.extractLsb' 32 32]

/-- The words of an instruction (the encoding tables of chapter 02); none for a step that has no words. -/
def encode (i : Instr) : Option (List Word) :=
  match i with
  | .pfx f => some (encP f)
  | .vaddS32Short f => some (encS 1 0 f)
  | .vsubS32Short f => some (encS 1 1 f)
  | .vandB64Short f => some (encS 1 2 f)
  | .vxorB64Short f => some (encS 1 3 f)
  | .faddF32Short f => some (encS 2 0 f)
  | .fsubF32Short f => some (encS 2 1 f)
  | .fmulF32Short f => some (encS 2 2 f)
  | .fmaxF32Short f => some (encS 2 3 f)
  | .faddF16Short f => some (encS 3 0 f)
  | .fmulF16Short f => some (encS 3 1 f)
  | .faddBf16Short f => some (encS 3 2 f)
  | .fmulBf16Short f => some (encS 3 3 f)
  | .vmovShort f => some (encS 4 0 f)
  | .xbflyShort f => some (encS 4 1 f)
  | .vshlB64Short f => some (encS 4 2 f)
  | .nop f => some (encS 4 3 f)
  | .br f => some (encB false f)
  | .brn f => some (encB true f)
  | .pair f => some (encD f)
  | .vadd f => some (encM 1 0x08 0 f)
  | .vsub f => some (encM 1 0x08 1 f)
  | .vmul f => some (encM 1 0x08 2 f)
  | .vmulh f => some (encM 1 0x08 3 f)
  | .vmad f => some (encM 1 0x08 4 f)
  | .vmin f => some (encM 1 0x08 5 f)
  | .vmax f => some (encM 1 0x08 6 f)
  | .vabs f => some (encM 1 0x08 7 f)
  | .vneg f => some (encM 1 0x08 8 f)
  | .vand f => some (encM 1 0x08 9 f)
  | .vor f => some (encM 1 0x08 10 f)
  | .vxor f => some (encM 1 0x08 11 f)
  | .vnot f => some (encM 1 0x08 12 f)
  | .vshl f => some (encM 1 0x08 13 f)
  | .vshr f => some (encM 1 0x08 14 f)
  | .vsar f => some (encM 1 0x08 15 f)
  | .vrot f => some (encM 1 0x08 16 f)
  | .vclz f => some (encM 1 0x08 17 f)
  | .vpopc f => some (encM 1 0x08 18 f)
  | .vcmp f => some (encM 1 0x08 19 f)
  | .vsel f => some (encM 1 0x08 20 f)
  | .vmov f => some (encM 1 0x08 21 f)
  | .vshf f => some (encM 1 0x08 22 f)
  | .fadd f => some (encM 1 0x09 0 f)
  | .fsub f => some (encM 1 0x09 1 f)
  | .fmul f => some (encM 1 0x09 2 f)
  | .ffma f => some (encM 1 0x09 3 f)
  | .ffms f => some (encM 1 0x09 4 f)
  | .fmin f => some (encM 1 0x09 5 f)
  | .fmax f => some (encM 1 0x09 6 f)
  | .fabs f => some (encM 1 0x09 7 f)
  | .fneg f => some (encM 1 0x09 8 f)
  | .fcmp f => some (encM 1 0x09 9 f)
  | .fclass f => some (encM 1 0x09 10 f)
  | .fround f => some (encM 1 0x09 11 f)
  | .fscale f => some (encM 1 0x09 12 f)
  | .fdiv f => some (encM 1 0x0A 0 f)
  | .fsqrt f => some (encM 1 0x0A 1 f)
  | .frcp f => some (encM 1 0x0A 2 f)
  | .frsq f => some (encM 1 0x0A 3 f)
  | .fexp2 f => some (encM 1 0x0A 4 f)
  | .flog2 f => some (encM 1 0x0A 5 f)
  | .fsin f => some (encM 1 0x0A 6 f)
  | .fcos f => some (encM 1 0x0A 7 f)
  | .ftanh f => some (encM 1 0x0A 8 f)
  | .fsigm f => some (encM 1 0x0A 9 f)
  | .fact f => some (encM 1 0x0A 10 f)
  | .cvt f => some (encM 1 0x0B 0 f)
  | .cvtq f => some (encM 1 0x0B 1 f)
  | .cvtb f => some (encM 1 0x0B 2 f)
  | .dq f => some (encM 1 0x0B 3 f)
  | .vhad f => some (encM 1 0x0B 4 f)
  | .vdithSet f => some (encM 1 0x0B 5 f)
  | .vdithAdv f => some (encM 1 0x0B 5 f)
  | .xget f => some (encM 1 0x0C 0 f)
  | .xput f => some (encM 1 0x0C 1 f)
  | .xshfl f => some (encM 1 0x0C 2 f)
  | .xbfly f => some (encM 1 0x0C 3 f)
  | .xrot f => some (encM 1 0x0C 4 f)
  | .xbcast f => some (encM 1 0x0C 5 f)
  | .xred f => some (encM 1 0x0C 6 f)
  | .xscan f => some (encM 1 0x0C 7 f)
  | .xballot f => some (encM 1 0x0C 8 f)
  | .gmov f => some (encM 1 0x0D 0 f)
  | .gadd f => some (encM 1 0x0D 1 f)
  | .gsub f => some (encM 1 0x0D 2 f)
  | .gmul f => some (encM 1 0x0D 3 f)
  | .gand f => some (encM 1 0x0D 4 f)
  | .gor f => some (encM 1 0x0D 5 f)
  | .gxor f => some (encM 1 0x0D 6 f)
  | .gshl f => some (encM 1 0x0D 7 f)
  | .gshr f => some (encM 1 0x0D 8 f)
  | .gsar f => some (encM 1 0x0D 9 f)
  | .gcmp f => some (encM 1 0x0D 10 f)
  | .gsel f => some (encM 1 0x0D 11 f)
  | .vtog f => some (encM 1 0x0D 12 f)
  | .gtov f => some (encM 1 0x0D 13 f)
  | .kset f => some (encM 1 0x0E 0 f)
  | .kand f => some (encM 1 0x0E 1 f)
  | .kor f => some (encM 1 0x0E 2 f)
  | .kxor f => some (encM 1 0x0E 3 f)
  | .knot f => some (encM 1 0x0E 4 f)
  | .kmov f => some (encM 1 0x0E 5 f)
  | .kpop f => some (encM 1 0x0E 6 f)
  | .kfirst f => some (encM 1 0x0E 7 f)
  | .vldi f => some (encWL 0x0F 0 f)
  | .gldi f => some (encWL 0x0F 1 f)
  | .ld f => some (encW 0x10 0 f)
  | .st f => some (encW 0x10 1 f)
  | .lds f => some (encW 0x10 2 f)
  | .sts f => some (encW 0x10 3 f)
  | .pftch f => some (encW 0x10 4 f)
  | .cflush f => some (encW 0x10 5 f)
  | .aadd f => some (encW 0x11 0 f)
  | .amin f => some (encW 0x11 1 f)
  | .amax f => some (encW 0x11 2 f)
  | .aand f => some (encW 0x11 3 f)
  | .aor f => some (encW 0x11 4 f)
  | .axor f => some (encW 0x11 5 f)
  | .axch f => some (encW 0x11 6 f)
  | .acas f => some (encW 0x11 7 f)
  | .afadd f => some (encW 0x11 8 f)
  | .ainc f => some (encW 0x11 9 f)
  | .fence f => some (encW 0x12 0 f)
  | .marm f => some (encW 0x12 1 f)
  | .mwait f => some (encW 0x12 2 f)
  | .tbar f => some (encW 0x12 3 f)
  | .rbar f => some (encW 0x12 4 f)
  | .ldp f => some (encW 0x13 0 f)
  | .stp f => some (encW 0x13 1 f)
  | .padd f => some (encW 0x13 2 f)
  | .psub f => some (encW 0x13 3 f)
  | .peq f => some (encW 0x13 4 f)
  | .pbase f => some (encW 0x13 5 f)
  | .psize f => some (encW 0x13 6 f)
  | .pname f => some (encW 0x13 7 f)
  | .pswz f => some (encW 0x13 8 f)
  | .phold f => some (encW 0x13 9 f)
  | .pdrop f => some (encW 0x13 10 f)
  | .kick f => some (encW 0x14 0 f)
  | .qring f => some (encW 0x14 1 f)
  | .cbinit f => some (encW 0x14 2 f)
  | .cbexp f => some (encW 0x14 3 f)
  | .cbarr f => some (encW 0x14 4 f)
  | .cbwait f => some (encW 0x14 5 f)
  | .cbwaitm f => some (encW 0x14 6 f)
  | .cbtest f => some (encW 0x14 7 f)
  | .cberr f => some (encW 0x14 8 f)
  | .engr f => some (encW 0x15 0 f)
  | .mloop f => some (encW 0x15 1 f)
  | .mdrain f => some (encW 0x15 2 f)
  | .mclr f => some (encW 0x15 3 f)
  | .mstat f => some (encW 0x15 4 f)
  | .srch f => some (encW 0x16 0 f)
  | .scancel f => some (encW 0x16 1 f)
  | .nwri f => some (encW 0x17 0 f)
  | .npoll f => some (encW 0x17 1 f)
  | .ferrq f => some (encW 0x17 2 f)
  | .cjoin f => some (encW 0x18 0 f)
  | .csend f => some (encW 0x18 1 f)
  | .cchoose f => some (encW 0x18 2 f)
  | .crecv f => some (encW 0x18 3 f)
  | .cpoll f => some (encW 0x18 4 f)
  | .cdeleg f => some (encW 0x18 5 f)
  | .caccept f => some (encW 0x18 6 f)
  | .cleave f => some (encW 0x18 7 f)
  | .cstate f => some (encW 0x18 8 f)
  | .cstateSelf f => some (encW 0x18 8 f)
  | .bra f => some (encW 0x19 0 f)
  | .brc f => some (encW 0x19 1 f)
  | .call f => some (encW 0x19 2 f)
  | .ret f => some (encW 0x19 3 f)
  | .jmpi f => some (encW 0x19 4 f)
  | .exit f => some (encW 0x19 5 f)
  | .spawn f => some (encW 0x19 6 f)
  | .yield f => some (encW 0x19 7 f)
  | .idem f => some (encW 0x19 8 f)
  | .jenr f => some (encM 1 0x1A 0 f)
  | .jwait f => some (encM 1 0x1A 1 f)
  | .jstrk f => some (encM 1 0x1A 2 f)
  | .jclr f => some (encM 1 0x1A 3 f)
  | .grow f => some (encM 1 0x1B 0 f)
  | .shrk f => some (encM 1 0x1B 1 f)
  | .atload f => some (encM 1 0x1B 2 f)
  | .atsel f => some (encM 1 0x1B 3 f)
  | .mode f => some (encM 1 0x1B 4 f)
  | .moder f => some (encM 1 0x1B 5 f)
  | .trap f => some (encW 0x1C 0 f)
  | .bkpt f => some (encW 0x1C 7 f)
  | .ecall f => some (encW 0x1C 10 f)
  | .tretRetry f => some (encW 0x1C 1 f)
  | .tretSkip f => some (encW 0x1C 1 f)
  | .tretExit f => some (encW 0x1C 1 f)
  | .tretSave f => some (encW 0x1C 1 f)
  | .csrd f => some (encW 0x1C 2 f)
  | .cswr f => some (encW 0x1C 3 f)
  | .tlbinvPage f => some (encW 0x1C 4 f)
  | .tlbinvAsid f => some (encW 0x1C 4 f)
  | .tlbinvAll f => some (encW 0x1C 4 f)
  | .potset f => some (encW 0x1C 5 f)
  | .halt f => some (encW 0x1C 6 f)
  | .tstateRd f => some (encW 0x1C 8 f)
  | .tstateWr f => some (encW 0x1C 8 f)
  | .lresumeReplay f => some (encW 0x1C 9 f)
  | .lresumeRetry f => some (encW 0x1C 9 f)
  | .lresumeSkip f => some (encW 0x1C 9 f)
  | .lresumeKill f => some (encW 0x1C 9 f)
  | .lresumeRun f => some (encW 0x1C 9 f)
  | .reservedMajor w0 rest => some (w0 :: rest)
  | .barrelTurn _ _ => none
  | .runFetch _ _ _ => none
  | .resultArrival _ _ _ _ => none
  | .yieldCountExpiry _ _ _ => none
  | .teamEnd _ => none
  | .recordAccept _ => none
  | .saveRequest _ => none
  | .teamSaved _ => none
  | .fenceComplete _ _ _ => none
  | .tlbinvComplete _ _ _ => none
  | .potsetComplete _ _ _ => none
  | .ringSlotRead _ => none
  | .sharedQueueSlotRead _ => none
  | .copy _ => none
  | .copy3d _ => none
  | .fill _ => none
  | .spawnPacket _ => none
  | .pieceArrival _ _ _ _ => none
  | .engraveStart _ => none
  | .engraveComplete _ => none
  | .bankSwap _ => none
  | .mloopStep _ _ => none
  | .mdrainExecute _ => none
  | .mclrExecute _ => none
  | .atloadComplete _ _ => none
  | .searchPortForward _ => none
  | .searchArrival _ => none
  | .searchAccept _ => none
  | .neighbourListReply _ _ => none
  | .distanceRequest _ _ => none
  | .distanceAnswer _ _ => none
  | .scancelMarkArrival _ => none
  | .scancelAnswer _ _ _ _ => none
  | .bellwetherOperation _ => none
  | .heldOperationAccept _ => none
  | .netPacket _ => none
  | .faultQueuePost => none
  | .teamPlacement => none
  | .queueAging _ => none
  | .sliceExpiry _ => none
  | .preemptT1Expiry _ => none
  | .preemptT2Expiry _ => none
  | .probeTimer _ _ _ _ => none
  | .probeHop _ => none
  | .pageWalkComplete _ _ => none
  | .mwaitTimeout _ _ _ => none
  | .scrubTick _ => none
  | .scrubLine _ => none
  | .bellwetherWithdrawal _ => none
  | .incomingFabricRequest _ _ _ _ => none
  | .remoteResponse _ => none
  | .remotePathLimit _ => none
  | .linkDown _ _ => none
  | .linkUp _ => none
  | .data _ _ => none
  | .ack _ _ => none
  | .nak _ _ => none
  | .keyswitch _ _ => none
  | .idle _ _ => none
  | .rekeySwitch _ => none
  | .linkAuthFailureLimit _ => none
  | .nwriMiddle _ => none
  | .nwriLast _ => none
  | .netAck _ _ _ => none
  | .netNak _ _ _ => none
  | .rnr _ _ => none
  | .rnrRetryTimer _ => none
  | .netSilenceTimeout _ => none
  | .netPortDown _ => none
  | .cxlCacheSnoop _ => none
  | .hostCxlMemRead _ _ _ => none
  | .hostCxlMemWrite _ _ _ => none
  | .spawnPortRecord _ _ _ => none
  | .cqbaseWrite _ => none
  | .cplbaseWrite _ => none
  | .cqtail _ => none
  | .cplheadWrite _ => none
  | .ignoredRegisterWrite _ _ _ => none
  | .ctxnew => none
  | .ctxend => none
  | .coreset => none
  | .wayset => none
  | .lqbind => none
  | .shqreg => none
  | .fltqreg => none
  | .errqreg => none
  | .preempt => none
  | .resume => none
  | .winreset => none
  | .scrubset => none
  | .fabset => none
  | .netconn => none
  | .ringreg => none
  | .worldnew _ => none
  | .worldfree => none
  | .modeset => none
  | .modesetReset _ => none
  | .logread => none
  | .reservedOpc => none
  | .boot _ => none
  | .clockStep _ _ => none
  | .thermalShutdown _ _ => none
  | .meterChainExtend => none
  | .measurements _ => none
  | .lockInterfaceRequest _ _ => none
  | .pldmMonitorRead => none
  | .powerCapSet _ => none
  | .firmwareUpdateImageWrite _ => none
  | .pldmLogRead _ => none
  | .tdispInterfaceRequest _ _ => none

/-- The words of an instruction whose low `nbits` bits are `w` and whose other bits are 0, laid out as the hardware
stores them: word 0 first (R2, R11). -/
def tableWords (w : Nat) : List Word :=
  [BitVec.ofNat 32 w, BitVec.ofNat 32 (w >>> 32), BitVec.ofNat 32 (w >>> 64), BitVec.ofNat 32 (w >>> 96),
   BitVec.ofNat 32 (w >>> 128)]

/-- What the decoder reads from an instruction whose bits are `w`, bit 0 the least significant bit of the first word;
bits at or above `nbits` are 0. -/
def decodeTableWord (nbits w : Nat) : Option Instr :=
  match decode (tableWords (w % 2 ^ nbits)) with
  | .ok (i, _) => some i
  | .error _ => none

end Sys2Proof
end

