-- ==== Sys2Proof/Machine/Reads.lean ====
section
/-! DEFINITION. The registers that an instruction, and a run, read: what makes a lane LATE
(14_execution_and_scheduling.md R346, R347). -/

namespace Sys2Proof.Machine

open Sys2Proof.Bits

/-- The register a source names. -/
def srcReads (x : Src) : List AwaitReg :=
  match x with
  | .v n => [.v n]
  | .g n => [.g n]
  | _ => []

/-- `n` vector registers from a source on. -/
def rangeReads (x : Src) (n : Nat) : List AwaitReg :=
  match x with
  | .v k => (List.range n).map fun j => .v (k + j)
  | .g k => (List.range n).map fun j => .g (k + j)
  | _ => []

/-- The first `n` sources of a format. -/
def sReads (f : FmtS) (n : Nat) : List AwaitReg := ([src7 f.a, src7 f.b].take n).flatMap srcReads
def mReads (f : FmtM) (n : Nat) : List AwaitReg := ([src10 f.a, src10 f.b, src10 f.c].take n).flatMap srcReads
/-- The same with the guard. -/
def gReads (f : FmtM) (n : Nat) : List AwaitReg := .k f.g.toNat :: mReads f n
/-- Mask registers that fields name. -/
def maskReads (l : List (BitVec 10)) : List AwaitReg := l.map fun x => .k x.toNat

/-- The value of a uniform source of a group, for a count that it gives. -/
def countOf (g : Group) (x : Src) : Nat :=
  match x with
  | .g n => (g.gget n).toNat
  | .imm v _ => v.toNat
  | .grp => gidGroup g.gid
  | .team => gidTeam g.gid
  | .role => gidRole g.gid
  | _ => 0

/-- CVT narrows: it reads a dither operand C (R164). -/
def cvtNarrows (f : FmtM) : Bool := decide (tyW f.ty.toNat < tyW (fld (codeOf f.b) 0 4))

/-- The registers an instruction reads. -/
def instrReads (g : Group) (i : Instr) : List AwaitReg :=
  match i with
  | .vaddS32Short f | .vsubS32Short f | .vandB64Short f | .vxorB64Short f | .faddF32Short f | .fsubF32Short f
  | .fmulF32Short f | .fmaxF32Short f | .faddF16Short f | .fmulF16Short f | .faddBf16Short f | .fmulBf16Short f
  | .vshlB64Short f => sReads f 2
  | .vmovShort f | .xbflyShort f => sReads f 1
  | .br f | .brn f => [.k f.k.toNat]
  | .pair f => ((slotSrcs f.x ++ slotSrcs f.y).map Prod.fst).flatMap srcReads
  | .vmad f | .vsel f | .vshf f | .ffma f | .ffms f | .xput f => gReads f 3
  | .cvt f => gReads f 1 ++ if cvtNarrows f then srcReads (src10 f.c) else []
  | .cvtq f => gReads f 1 ++ srcReads (src10 f.c)
  | .vadd f | .vsub f | .vmul f | .vmulh f | .vmin f | .vmax f | .vand f | .vor f | .vxor f | .vshl f | .vshr f | .vsar f
  | .vrot f | .vcmp f | .fadd f | .fsub f | .fmul f | .fmin f | .fmax f | .fcmp f | .fscale f | .fdiv f | .dq f
  | .xget f | .xshfl f | .xbfly f | .xrot f | .xbcast f => gReads f 2
  | .vabs f | .vneg f | .vnot f | .vclz f | .vpopc f | .vmov f | .fabs f | .fneg f | .fclass f | .fround f | .fsqrt f
  | .frcp f | .frsq f | .fexp2 f | .flog2 f | .fsin f | .fcos f | .ftanh f | .fsigm f | .fact f | .cvtb f | .vhad f
  | .xred f | .xscan f | .xballot f | .gtov f => gReads f 1
  | .vdithSet f | .gmov f | .kset f | .grow f | .shrk f | .atsel f | .mode f => mReads f 1
  | .gadd f | .gsub f | .gmul f | .gand f | .gor f | .gxor f | .gshl f | .gshr f | .gsar f | .gcmp f
  | .atload f => mReads f 2
  | .vtog f => srcReads (src10 f.b)
  | .gsel f => mReads f 3
  | .kand f | .kor f | .kxor f => maskReads [f.a, f.b]
  | .knot f | .kmov f | .kpop f | .kfirst f => maskReads [f.a]
  | .jenr f => .k f.g.toNat :: maskReads [f.a]
  | .jwait f | .jstrk f => [.k f.g.toNat]
  | .vldi f => [.k f.w.m.g.toNat]
  | .ld f | .lds f | .pftch f | .cflush f | .ldp f | .pbase f | .psize f | .pname f | .phold f | .pdrop f | .brc f | .ret f
  | .jmpi f => gReads f.m 1
  | .st f | .sts f => gReads f.m 1 ++ rangeReads (src10 f.m.b) (memCount f.aux)
  | .aadd f | .amin f | .amax f | .aand f | .aor f | .axor f | .axch f | .afadd f | .ainc f | .stp f | .padd f | .psub f
  | .peq f | .pswz f => gReads f.m 2
  | .acas f => gReads f.m 3
  | .marm f | .kick f | .cberr f | .cbtest f | .srch f | .scancel f | .nwri f | .npoll f | .ferrq f | .spawn f | .yield f
  | .engr f | .ecall f => mReads f.m 1
  | .cstate f => mReads f.m 1
  | .cbwait f => mReads f.m (if f.aux.getLsbD 0 then 2 else 1)
  | .mwait f | .cbexp f | .cbarr f | .cjoin f | .caccept f | .potset f => mReads f.m 2
  | .cdeleg f | .cchoose f | .mclr f => srcReads (src10 f.m.b)
  | .cbinit f | .cbwaitm f | .mloop f | .mdrain f => mReads f.m 3
  | .tlbinvPage f | .halt f | .lresumeRun f => srcReads (src10 f.m.a) ++ srcReads (src10 f.m.c)
  | .tlbinvAsid f => srcReads (src10 f.m.c)
  | .lresumeReplay f | .lresumeRetry f | .lresumeSkip f | .lresumeKill f => mReads f.m 3
  | .csend f => srcReads (src10 f.m.b) ++ srcReads (src10 f.m.c) ++
      rangeReads (src10 f.m.a) (min 6 (countOf g (src10 f.m.c)))
  | .bra f | .call f | .exit f | .trap f | .bkpt f | .tretRetry f | .tretSkip f | .tretExit f | .tretSave f => [.k f.m.g.toNat]
  | .csrd f => if 0x010 ≤ f.imm.toNat ∧ f.imm.toNat ≤ 0x014 then [.k f.m.g.toNat] else []
  | .cswr f => srcReads (src10 f.m.b) ++ if 0x010 ≤ f.imm.toNat ∧ f.imm.toNat ≤ 0x014 then [.k f.m.g.toNat] else []
  | .tstateWr f => srcReads (src10 f.m.b)
  | .tstateRd f => if 16 < f.imm.toNat ∧ f.imm.toNat < 24 then [.k (f.imm.toNat - 16)] else []
  | _ => []

/-- The registers that an instruction reads in other lanes than the lane itself, with those lanes: A of a cross-lane instruction in all
of them (R207), and so for CVTB (R175) and VHAD (R177), and A of VTOG in the one that B names (R154). -/
def crossReads (g : Group) (i : Instr) : List (AwaitReg × LaneSet) :=
  let all (x : Src) : List (AwaitReg × LaneSet) := (srcReads x).map fun r => (r, BitVec.allOnes 32)
  match i with
  | .xget f | .xput f | .xshfl f | .xbfly f | .xrot f | .xbcast f | .xred f | .xscan f | .xballot f | .cvtb f | .vhad f => all (src10 f.a)
  | .xbflyShort f => all (src7 f.a)
  | .vtog f => (srcReads (src10 f.a)).map fun r => (r, BitVec.ofNat 32 (2 ^ (countOf g (src10 f.b) % 32)))
  | _ => []

/-- The registers that a run reads, from its words: up to the first instruction with RB = 1, 24 instructions, or a word that
does not decode. `f`: what it reads of an instruction. -/
def runReads {α : Type} (f : Instr → List α) : Nat → List Word → List α
  | 0, _ => []
  | n + 1, ws =>
    match ws, decode ws with
    | w :: _, .ok (i, rest) => f i ++ if w.getLsbD 29 then [] else runReads f n rest
    | _, _ => []

/-- The lanes that await a register (R347): a g or k result is awaited for the whole group, and so is the completion of a FENCE (R282);
a register that the run reads across lanes holds every lane back while a copy that it reads is awaited. -/
def Group.awaiting (g : Group) (rs : List AwaitReg) (cross : List (AwaitReg × LaneSet)) : LaneSet :=
  g.awaits.foldl (fun m a =>
    let lanes : LaneSet :=
      match a.reg with
      | .v _ => if rs.contains a.reg then a.lanes else 0
      | .fence _ => BitVec.allOnes 32
      | _ => if rs.contains a.reg then BitVec.allOnes 32 else 0
    m ||| lanes ||| if cross.any fun x => x.1 == a.reg && decide (x.2 &&& a.lanes ≠ 0) then BitVec.allOnes 32 else 0) 0

/-- Before an instruction reads a register that a CSRD of FFLAGS has still to give, it waits until it is there (R146, R169). -/
def State.readSettle (s : State) (i : Instr) : State :=
  match s.iss? with
  | none => s
  | some x =>
    let rs := instrReads x.g i
    match x.g.csrd.filter fun w => rs.contains (.g w.reg) with
    | [] => s
    | ws => s.setGroup x.key (ws.foldl (fun a w => a.settle w.reg) x.g)

end Sys2Proof.Machine
end

