-- ==== Sys2Proof/Machine/Turn.lean ====
section
/-! DEFINITION. A port's turn: what is taken at a turn boundary (15_traps_and_preemption.md R382), the run buffer and the
sub-group that runs (14_execution_and_scheduling.md R348 to R351), and the arrivals that a group waits for. -/

namespace Sys2Proof.Machine

open Sys2Proof.Bits

/-! ## The run buffer (R350) -/

/-- One fetched word: the word, the cause it meets, or neither while its path to a peer is down. -/
inductive Fetched
  | word (w : Word)
  | cause (c : BitVec 8)
  | wait
deriving DecidableEq, Repr

/-- Fetch one word as an execute access. -/
def State.fetchWord (s : State) (t : Team) (g : Group) (c : Context) (va : Nat) : Fetched :=
  if va % 4 ≠ 0 then .cause cMisaligned
  else
    match s.resolve c (privileged t g) .exec va 4 with
    | .error e => .cause e
    | .ok l =>
      match s.reach (s.teamWorld t) (privileged t g) .exec l 4 with
      | .ok => .word (BitVec.ofNat 32 (s.readNat l.space l.pa 4))
      | .refused _ => .cause cRemoteLoadFailed
      | _ => if s.pathLost (l.space - 2) then .cause cRemoteLoadFailed else .wait

/-- The further words of an instruction. -/
def State.fetchMore (s : State) (t : Team) (g : Group) (c : Context) : Nat → Nat → List Word × Option Fetched
  | 0, _ => ([], none)
  | n + 1, va =>
    match s.fetchWord t g c va with
    | .word w =>
      let (ws, e) := s.fetchMore t g c n ((va + 4) % 2 ^ 64)
      (w :: ws, e)
    | x => ([], some x)

/-- Fetch a run of at most `n` instructions (R350). -/
def State.fetchFrom (s : State) (t : Team) (g : Group) (c : Context) : Nat → Nat → List Word × Option Fetched
  | 0, _ => ([], none)
  | n + 1, va =>
    match s.fetchWord t g c va with
    | .word w =>
      let k := lenWords (wordLen w)
      match s.fetchMore t g c (k - 1) ((va + 4) % 2 ^ 64) with
      | (ws, some x) => (w :: ws, some x)
      | (ws, none) =>
        if w.getLsbD 29 then (w :: ws, none)
        else
          let (r, e) := s.fetchFrom t g c n ((va + 4 * k) % 2 ^ 64)
          (w :: ws ++ r, e)
    | x => ([], some x)

/-- A run that is fetched whole or up to the word that met a cause; none while a word waits for a path. -/
def State.fetchRunAt (s : State) (t : Team) (g : Group) (c : Context) (pc : BitVec 64) : Option FetchedRun :=
  match s.fetchFrom t g c Config.runLimit pc.toNat with
  | (ws, none) => some { start := pc, words := ws, fail := none }
  | (ws, some (.cause e)) => some { start := pc, words := ws, fail := some e }
  | _ => none

/-- What fetching a run costs: the walks of its pages, and its words' requests on the caches and meters (R81, R90, R91). -/
def State.fetchCost (s : State) (t : Team) (g : Group) (c : Context) (core port : Nat) (r : FetchedRun) : State :=
  let n := r.words.length + if r.fail.isSome then 1 else 0
  let vas := (List.range n).map fun k => (r.start.toNat + 4 * k) % 2 ^ 64
  let locs := (vas.take r.words.length).filterMap fun va => (s.resolve c (privileged t g) .exec va 4).toOption
  let s1 := ({ s with turn := some (core, port) } : State).fillTlbs c (vas.filter fun va => va % 4 == 0)
  let s2 := s1.accountHints (s.teamWorld t) (clusterPort core) false 0 (locs.map fun l => (l, 4))
  { locs.foldl (fun a l => if l.space = spLocal then a.correct l.pa 4 else a) s2 with turn := s.turn }

/-- Insert into an ascending list without repeats. -/
def insertNat (x : Nat) : List Nat → List Nat
  | [] => [x]
  | y :: r => if x < y then x :: y :: r else if x = y then y :: r else y :: insertNat x r

/-- The lanes that may issue: READY or LATE, in handler mode only those in TMASK (R374). -/
def Group.mayIssue (g : Group) : LaneSet := g.readyLanes &&& (if g.tmask = 0 then BitVec.allOnes 32 else g.tmask)

/-- The distinct PCs of the lanes that may issue, in ascending order. -/
def Group.pcs (g : Group) : List Nat := (lanesOf g.mayIssue).foldl (fun a l => insertNat (g.lane l).pc.toNat a) []

/-- RUN_FETCH (R350): the run buffer takes the runs at the four lowest PCs; what it holds already at one of them stays. While
a run of the group is in progress it is fetched on from its PC where the buffer has no words for it. -/
def execRunFetch (core port slot : Nat) (s : State) : Out :=
  let key := slotKey core port slot
  match s.group? key with
  | none => .fault .noSuchUnit
  | some g =>
    match s.team? g.team with
    | none => .fault .noSuchUnit
    | some t =>
      match s.ctx? t.ctx with
      | none => .fault .noSuchUnit
      | some c =>
        let running := ((s.core core).port port).run.filter fun r => r.slot == slot
        let want := ((g.pcs.take 4).map (BitVec.ofNat 64)) ++ running.toList.map (·.pc)
        let mine (r : FetchedRun) : Bool := (running.map fun x => r.holds x.start x.pc).getD false
        let keep := g.buf.filter fun r => want.contains r.start || mine r
        let covered (pc : BitVec 64) : Bool := keep.any fun r => r.start == pc || ((running.map (·.pc)) == some pc && mine r)
        let need := (want.filter fun pc => !covered pc).eraseDups
        let new := need.filterMap fun pc => s.fetchRunAt t g c pc
        .next (new.foldl (fun a r => a.fetchCost t g c core port r) (s.setGroup key { g with buf := keep ++ new }))

/-! ## The turn boundary (R382) -/

/-- A lane may be taken from its park at once by a halt or a save: not while it stands at an instruction that completes
first (R256; TLBINV, POTSET and a loading bank finish in bounded time), or at an atomic in doubt (R287). -/
def State.mustFinish (s : State) (g : Group) : Bool :=
  (lanes32.any fun l =>
    (g.lane l).ret ||
    match (g.lane l).st with
    | .parked .scancel => true
    | .parked .tlbinv => true
    | .parked (.potset _) => true
    | .parked (.bank _) => true
    | .parked (.select _) => true
    | .parked .conv => true
    | .parked .monitor => true
    | _ => false) ||
  s.remotes.any fun r => r.doubt && r.org.gid == g.gid &&
    match r.kind with
    | .atomic => lanes32.any fun l => inSet r.lanes l && (g.lane l).waitsPeer
    | _ => false

/-- A halt or a save reaches a group that cannot be taken yet: its parked MWAIT returns (R109), and its conversation
operations are withdrawn (R333). -/
def State.pullBack (s : State) (key : Nat) (g : Group) : State :=
  let s1 := if g.waitsMonitor then s.setGroup key g.returnMonitor else s
  { s1 with convs := s1.convs.map fun o =>
      if o.org.gid == g.gid && o.core == keyCore key && !o.orphan &&
          lanes32.any (fun l => inSet o.lanes l && (g.lane l).st == .parked .conv) then { o with withdrawn := true } else o }

/-- Parks that a debugger halt leaves as they are, for no rule releases them (R383): absent chunks, the Plate, and requests to peers. -/
def Wait.staysHalted (w : Wait) : Bool :=
  match w with
  | .chunks => true
  | .plateQueue => true
  | .plateIdle _ => true
  | .remote => true
  | .path => true
  | _ => false

/-- The other parked lanes of a group leave their parks and will issue the instruction again: arrivals at rejoin masks and
barriers are undone (R365, R367), a GROW leaves its queue, which may grant those behind it (R143, R144), and a CRECV that waits at its
mailbox is dropped (R333). For a save, a Plate operation that has not entered leaves too, and a request to a peer that may be made again
is dropped; a halt keeps these parks (R383). YIELD stays. -/
def State.withdraw (s : State) (key : Nat) (g : Group) (halt : Bool) : State :=
  let c := keyCore key
  let p := keyPort key
  let back (l : Nat) : Bool :=
    match (g.lane l).st with
    | .parked (.turns _) => false
    | .parked w => !(halt && w.staysHalted)
    | _ => false
  let g1 := lanes32.foldl (fun a l =>
    match (g.lane l).st with
    | .parked (.rejoin d) => a.jset d (a.jget d ||| BitVec.ofNat 32 (2 ^ l))
    | _ => a) g
  let g2 := g1.onLanes (laneSet back) fun _ x => { x with st := .ready }
  let core := s.core c
  let port := core.port p
  let core1 := core.setPort p { port with waitq := port.waitq.filter fun w => w.slot != keySlot key }
  let core2 := { core1 with plate := { core1.plate with
    waiters := core1.plate.waiters.filter fun w => halt || !(w.port == p && w.slot == keySlot key) } }
  let gone := if halt then [] else core.plate.waiters.filter fun w => w.port == p && w.slot == keySlot key
  let s1 := gone.foldl (fun a w => a.writerDone c w.op.place fun _ => true) ((s.setCore c core2).setGroup key g2)
  let mine (o : Origin) (n : Nat) : Bool := o.gid == g.gid && n == c
  ({ s1 with
    remotes := s1.remotes.filter fun r => halt ||
      match r.kind with
      | .load => !mine r.org r.core
      | .promo _ => !mine r.org r.core
      | .atomic => !(mine r.org r.core && !r.doubt)
      | _ => true
    convs := s1.convs.filter fun o => !(o.parked && o.src.isNone && mine o.org o.core) } : State).grantGrows c p

/-- A debugger halt is taken (R382, R383): from the first halted group on, the deadlines of its context stand still. -/
def State.takeHalt (s : State) (key : Nat) : State :=
  match s.group? key with
  | none => s
  | some g =>
    if s.mustFinish g then s.pullBack key g
    else
      let s1 := s.withdraw key g true
      let s2 := s1.setGroup key { (s1.group? key).getD g with halted := true, haltReq := false }
      match (s2.team? g.team).bind fun t => s2.ctx? t.ctx with
      | none => s2
      | some c => if c.stopped.isSome then s2 else s2.setCtx { c with stopped := some s2.cycle.toNat }

/-- Words of an instruction from its first, a prefix and its instruction counted together; `next` is the word after it. -/
def unitWords (w : Word) (next : Fetched) : Option Nat :=
  if w.extractLsb' 22 6 == 0 && wordLen w == 0 then
    match next with
    | .word x => some (1 + lenWords (wordLen x))
    | _ => none
  else some (lenWords (wordLen w))

/-- The PC past the unit at a PC: none where a word of it meets a cause, and waiting while one waits for its path. -/
def State.pastUnit (s : State) (t : Team) (g : Group) (c : Context) (pc : BitVec 64) : Option (BitVec 64) × Bool :=
  match s.fetchWord t g c pc.toNat with
  | .wait => (none, true)
  | .cause _ => (none, false)
  | .word w =>
    let next := s.fetchWord t g c ((pc.toNat + 4) % 2 ^ 64)
    match unitWords w next with
    | some k => (some (pc + BitVec.ofNat 64 (4 * k)), false)
    | none => (none, next == .wait)

/-- A lane that is to resume past an instruction waits for a word of it. -/
def State.skipWaits (s : State) (g : Group) : Bool :=
  match s.team? g.team with
  | none => false
  | some t =>
    match s.ctx? t.ctx with
    | none => false
    | some c => lanes32.any fun l => (g.lane l).skip && (s.pastUnit t g c (g.lane l).pc).2

/-- The PC at which a lane would resume (R374): past a YIELD, past the instruction that it is to skip, else at the PC of the table. An
instruction that cannot be fetched is not skipped: the lane resumes at it and meets the cause. -/
def State.resumePc (s : State) (g : Group) (x : Lane) : BitVec 64 :=
  match x.st with
  | .parked (.turns _) => x.pc + 12
  | _ =>
    if x.skip then
      match s.team? g.team with
      | none => x.pc
      | some t => ((s.ctx? t.ctx).bind fun c => (s.pastUnit t g c x.pc).1).getD x.pc
    else x.pc

/-- The save record's budget and exited lanes of a group as they stand at its save trap (R386); a write that fails leads to
stage 3. -/
def State.saveGroupHeader (s : State) (g : Group) (rec_ : BitVec 64) : Option State :=
  let i := gidGroup g.gid
  match (s.team? g.team).bind fun t => s.ctx? t.ctx with
  | none => some s
  | some c =>
    (s.checkedWrite c (rec_.toNat + 80 + i) [BitVec.ofNat 8 g.curBudget]).bind fun s1 =>
      s1.checkedWrite c (rec_.toNat + 128 + 4 * i) (toBytes 4 g.exitedLanes.toNat)

/-- A SAVE_REQUEST is delivered (R374, R385): every lane not EXITED enters the handler, the monitor is disarmed and the
activation selection dropped. It waits while the engines hold work of the team (R119, R233); a group that has no handler leads to
stage 3 (R384). -/
def State.takeSave (s0 : State) (key : Nat) (rec_ : BitVec 64) : State :=
  match s0.group? key with
  | none => s0
  | some g =>
    if s0.mustFinish g ∨ s0.skipWaits g then s0.pullBack key g
    else if ((s0.team? g.team).map s0.engineBusy).getD false then s0
    else
    match (if g.trapv = 0 then none else s0.saveGroupHeader g rec_) with
    | none => s0.forcedReset (((s0.team? g.team).map (·.ctx)).getD 0)
    | some s =>
      let s1 := s.withdraw key g false
      let g1 := (s1.group? key).getD g
      let info (l : Nat) : BitVec 64 :=
        match (g1.lane l).st with
        | .trapped _ => (g1.lane l).tcause.setWidth 64
        | _ => 0
      let g2 := g1.enterAsync (~~~ g1.exitedLanes) cSaveRequest rec_ info (s1.resumePc g1)
      s1.setGroup key { g2 with saveReq := none, mon := { g2.mon with armed := false }, actSel := none }

/-- ERROR_QUEUE_NONEMPTY is delivered (R289, R374, R382): READY and LATE lanes enter, TINFO the number of records. It is dropped where
TRAPV = 0, and stays pending while no lane can enter. -/
def State.takeErr (s : State) (key : Nat) : State :=
  match s.group? key with
  | none => s
  | some g =>
    let n := match ((s.team? g.team).bind fun t => s.ctx? t.ctx).bind (·.errq) with
      | some q => (s.readNat spLocal q.desc 8 + 2 ^ 64 - s.readNat spLocal (q.desc + 128) 8) % 2 ^ 64
      | none => 0
    let g1 := { g with errReq := false }
    if g.trapv = 0 then s.setGroup key g1
    else if g.readyLanes = 0 ∨ s.skipWaits g then s
    else s.setGroup key (g1.enterAsync g.readyLanes cErrorQueueNonempty 0 (fun _ => BitVec.ofNat 64 n) (s.resumePc g))

/-- Precise traps not yet delivered enter the handler (R374). -/
def Group.deliverTraps (g : Group) : Group :=
  let m := g.lanesIn fun x => x.st == .trapped false
  if m = 0 then g else (g.onLanes m fun _ x => { x with bySave := false }).enterHandler m

/-- The pending items of a group at its turn boundary, highest first (R382). -/
def State.boundary (s : State) (key : Nat) : State :=
  match s.group? key with
  | none => s
  | some g =>
    if g.halted ∨ g.allExited then s
    else
      let s0 := s.leaveRecord g.team
      let s1 := s0.setGroup key g.deliverTraps
      let s2 := if g.haltReq then s1.takeHalt key else s1
      match s2.group? key with
      | none => s2
      | some g2 =>
        if g2.halted || g2.haltReq || decide (g2.tmask ≠ 0) then s2
        else
          match g2.saveReq with
          | some r => s2.takeSave key r
          | none => if g2.errReq then s2.takeErr key else s2

/-! ## Lanes that resume past an instruction (R394) -/

/-- Fix the PC of the lanes that are to resume past the instruction at their PC, where the buffer holds it: past the word
there, or past the prefix and the word after it. A cause met at a word is taken by the lanes at that word, with nothing
skipped. -/
def State.fixSkips (s : State) (key : Nat) : State :=
  match s.group? key with
  | none => s
  | some g =>
    let m := laneSet fun l => inSet g.mayIssue l && (g.lane l).skip
    let pcs := (lanesOf m).foldl (fun a l => insertNat (g.lane l).pc.toNat a) []
    pcs.foldl (fun a pc =>
      match a.group? key with
      | none => a
      | some g =>
        let ls := laneSet fun l => inSet m l && (g.lane l).skip && (g.lane l).pc.toNat == pc
        match g.wordsAt (BitVec.ofNat 64 pc) (BitVec.ofNat 64 pc) with
        | none => a
        | some (ws, fail) =>
          let past : Option Nat :=
            match ws with
            | [] => none
            | w :: r => unitWords w ((r.head?.map Fetched.word).getD .wait)
          match past, fail with
          | some k, _ =>
            a.setGroup key (g.onLanes ls fun _ x => { x with pc := x.pc + BitVec.ofNat 64 (4 * k), skip := false })
          | none, some c =>
            match a.team? g.team with
            | none => a
            | some t =>
              let va := BitVec.ofNat 64 (pc + 4 * ws.length)
              let back := (lanesOf ls).map fun l => ({ lane := l, cause := c, va := va, access := 2 } : LReplay)
              let at_ := if replayable c ∧ !t.service ∧ g.tmask ≠ 0 then BitVec.ofNat 64 pc else va
              let (g1, ps) := takeFaults (g.onLanes ls fun _ x => { x with skip := false }) t (a.teamWorld t) key at_
                a.cycle.toNat (if replayable c then [] else trapSet ls c va 0 2) (if replayable c then back else [])
              (a.setGroup key g1).addPosts ps
          | none, none => a) s

/-! ## The turn (R348, R349) -/

/-- The sub-group that a group's turn runs: its PC and lanes (R348). -/
def Group.choose (g : Group) : Option (BitVec 64 × LaneSet) :=
  let enrolled := (List.range 8).foldl (fun m d => m ||| g.jget d) (0 : LaneSet)
  g.pcs.foldl (fun found p =>
    match found with
    | some x => some x
    | none =>
      let pc := BitVec.ofNat 64 p
      match g.buf.find? fun r => r.start == pc with
      | none => none
      | some r =>
        let sub := laneSet fun l => inSet g.mayIssue l && (g.lane l).pc == pc && !(g.lane l).skip
        let late := sub &&& g.awaiting (runReads (instrReads g) Config.runLimit r.words)
          (runReads (crossReads g) Config.runLimit r.words)
        if sub = 0 then none
        else if late = 0 then some (pc, sub)
        else if late &&& ~~~ enrolled = 0 ∧ sub &&& ~~~ late ≠ 0 then some (pc, sub &&& ~~~ late)
        else none) none

/-- YIELDs whose turns are over go on (R360). -/
def Group.wakeYields (g : Group) : Group := g.wake (fun w => w == .turns 0) fun x => x.pc + 12

/-- The settings of the group's next run come into force (R142, R170); no flag of it comes in time for an earlier CSRD (R169, R349). -/
def Group.startRun (g : Group) : Group :=
  { g with budget := g.curBudget, budgetNext := none,
           fmode := (g.fmodeNext.map fun m => BitVec.ofNat 32 (g.fmode.toNat / 32 * 32 + m.toNat % 32)).getD g.fmode,
           fmodeNext := none, csrd := g.csrd.map fun w => { w with shut := true } }

/-- A turn of a group that is over counts for its YIELDs (R360). -/
def Group.countTurn (g : Group) : Group :=
  g.mapLanes fun _ x =>
    match x.st with
    | .parked (.turns (n + 1)) => { x with st := .parked (.turns n) }
    | _ => x

/-- The turn that a port gave last is over once it has no run: it counts for the group's YIELDs (R360). -/
def State.endTurn (s : State) (core port : Nat) : State :=
  let p := (s.core core).port port
  match p.turn with
  | none => s
  | some slot =>
    if p.run.isSome then s
    else
      let s1 := s.setPort core port { p with turn := none }
      match s1.group? (slotKey core port slot) with
      | none => s1
      | some g => s1.setGroup (slotKey core port slot) g.countTurn

/-- The count and the number of latches that every lane of a sub-group has kept of a run that it left at a load. -/
def Group.keptRun (g : Group) (sub : LaneSet) : Nat × Nat :=
  let ks := (lanesOf sub).map fun l => (g.lane l).kept
  if ks.all Option.isSome then
    (((ks.map fun k => (k.map (·.1)).getD 0).max?).getD 0, ((ks.map fun k => (k.map (·.2.length)).getD 0).min?).getD 0)
  else (0, 0)

/-- A run of a sub-group as it begins, empty of latches (R147); where all of its lanes come back to a load that waited for a peer, it is
the rest of the run that they left there. -/
def Group.openRun (g : Group) (slot : Nat) (sub : LaneSet) (pc : BitVec 64) : Run :=
  let n := (g.keptRun sub).2
  let held (l k : Nat) : BitVec 64 := ((g.lane l).kept.map fun x => x.2.getD k 0).getD 0
  { slot := slot, sub := sub, start := pc, pc := pc, count := (g.keptRun sub).1, filled := n, pfx := none,
    latch := (List.range n).foldl (fun a k => sput a (32 * k) (lanes32.map fun l => if inSet sub l then held l k else 0)) [] }

/-- BARREL_TURN (R348, R349): the port's rotation reaches its next slot; the boundary's items are taken, and the group's
sub-group begins a run. A port whose run is in progress has no turn. -/
def execBarrelTurn (core port : Nat) (s : State) : Out :=
  if Config.cores ≤ core ∨ Config.ports ≤ port then .fault .noSuchUnit
  else
    let p := (s.core core).port port
    if p.run.isSome then .next s
    else
      let slot := p.rot
      let key := slotKey core port slot
      let s0 := (s.endTurn core port).setPort core port { p with rot := (slot + 1) % 16, turn := none }
      match s0.group? key with
      | none => .next s0
      | some g =>
        let s1 := ((if g.halted then s0 else s0.setGroup key g.wakeYields).boundary key).groupSaved key
        match s1.group? key with
        | none => .next s1
        | some g1 =>
          if g1.halted then .next s1
          else
            let s2 := s1.fixSkips key
            let g2 := (s2.group? key).getD g1
            match g2.choose with
            | none => .next (s2.setGroup key g2.countTurn)
            | some (pc, sub) =>
              let g3 := g2.startRun
              let s3 := s2.setGroup key (g3.onLanes sub fun _ x => { x with kept := none })
              .next (s3.setPort core port { (s3.core core).port port with run := some (g3.openRun slot sub pc), turn := some slot })

/-! ## Arrivals -/

/-- Change the group of a slot. -/
def onSlot (s : State) (core port slot : Nat) (f : Group → State → State) : Out :=
  match s.group? (slotKey core port slot) with
  | none => .fault .noSuchUnit
  | some g => .next (f g s)

/-- RESULT_ARRIVAL (R347): an awaited result arrives. -/
def execResultArrival (core port slot idx : Nat) (s : State) : Out :=
  onSlot s core port slot fun g s =>
    match g.awaits[idx]? with
    | some { reg := .fence _, .. } => s
    | some { reg := .g n, .. } => s.setGroup (slotKey core port slot) ({ g with awaits := g.awaits.eraseIdx idx }.settle n)
    | some _ => s.setGroup (slotKey core port slot) { g with awaits := g.awaits.eraseIdx idx }
    | none => s

/-- YIELD_COUNT_EXPIRY (R360). -/
def execYieldCountExpiry (core port slot : Nat) (s : State) : Out :=
  let s0 := s.endTurn core port
  onSlot s0 core port slot fun g s => s.setGroup (slotKey core port slot) g.wakeYields

/-- FENCE_COMPLETE (R282): the earliest fence of the group that has nothing outstanding is complete. At .dev and wider, a
remote store of its lanes that is neither acknowledged nor recorded holds it, and the lines of the core's L1 leave it then (R274). -/
def execFenceComplete (core port slot : Nat) (s : State) : Out :=
  onSlot s core port slot fun g s =>
    let open_ (m : LaneSet) : Bool := s.remotes.any fun r =>
      match r.kind with
      | .store _ _ _ _ => r.org.gid == g.gid && r.core == core && decide (r.lanes &&& m ≠ 0)
      | _ => false
    match g.awaits.findIdx? fun a =>
        match a.reg with
        | .fence sc => decide (sc < 2) || !open_ a.lanes
        | _ => false with
    | some k =>
      let wide := (g.awaits[k]?.map fun a => match a.reg with
        | .fence sc => decide (2 ≤ sc)
        | _ => false).getD false
      (if wide then s.l1Clear core else s).setGroup (slotKey core port slot) { g with awaits := g.awaits.eraseIdx k }
    | none => s

/-- A parked instruction of three words completes: its lanes go on past it in a new region. -/
def Group.complete (g : Group) (p : Wait → Bool) : Group :=
  g.mapLanes fun _ x =>
    match x.st with
    | .parked w => if p w then { x with st := .ready, pc := x.pc + 12, tregion := x.pc + 12 } else x
    | _ => x

/-- TLBINV_COMPLETE (R397): every walk that was in flight finishes, without installing its result. -/
def execTlbinvComplete (core port slot : Nat) (s : State) : Out :=
  onSlot s core port slot fun g s =>
    ((s.walks.filter fun w => w.leaf.isSome && !w.install).foldl (fun a w => a.endWalk w) s).setGroup (slotKey core port slot)
      (g.complete fun w => w == .tlbinv)

/-- A conversation operation that has passed its check is still to write an object in a page (R85). One parked at a mailbox is not: its next
evaluation is another access (`State.convLost`). -/
def State.pageOpen (s : State) (page : Nat) : Bool := s.convs.any fun o => o.space == spLocal && o.pa / 65536 == page && !o.again && !o.parked

/-- A wait at a POTSET to a page on which no earlier access is open. -/
def State.potsetDone (s : State) (w : Wait) : Bool :=
  match w with
  | .potset page => !s.pageOpen page
  | _ => false

/-- POTSET_COMPLETE (R85, R398): the accesses that passed the check before have finished. -/
def execPotsetComplete (core port slot : Nat) (s : State) : Out :=
  onSlot s core port slot fun g s => s.setGroup (slotKey core port slot) (g.complete s.potsetDone)

/-- MWAIT_TIMEOUT (R109): not before the deadline. -/
def execMwaitTimeout (core port slot : Nat) (s : State) : Out :=
  onSlot s core port slot fun g s =>
    if g.waitsMonitor && decide (g.mon.deadline ≠ 0) && decide (g.mon.deadline ≤ s.cycle.toNat) then
      s.setGroup (slotKey core port slot) g.returnMonitor
    else s

/-- PAGE_WALK_COMPLETE (R80, R81): the walk of a page in an address space ends and installs its leaf; where none is in flight, a miss that
queues for it is walked when a walker is free, or else one is made. -/
def execPageWalkComplete (asid : BitVec 16) (va : BitVec 64) (s : State) : Out :=
  let page := va.toNat / 65536 * 65536
  let mine (w : PageWalk) : Bool := w.leaf.isSome && w.asid == asid.toNat && w.va == page
  match s.walks.find? mine with
  | some w => .next (s.endWalk w)
  | none =>
    match s.ctxs.find? fun c => c.asid == asid.toNat with
    | none => .next s
    | some c =>
      let s1 :=
        match s.walks.find? fun w => w.leaf.isNone && w.asid == asid.toNat && w.va == page with
        | some x => if s.walkerBusy x.die x.asid x.va then s else s.runWalk c x
        | none => if s.walkQueued c page then s.queueWalk c page else s.startWalk c page
      match s1.walks.find? mine with
      | some w => .next (s1.endWalk w)
      | none => .next s1

end Sys2Proof.Machine
end

