-- ==== Sys2Proof/Machine/Trans.lean ====
section
/-! DEFINITION. The exact values of the special functions (08_vector_unit.md Table 8.7), as far as rounding needs them: a
value is an `FVal`, and a flag `more` says that the magnitude lies strictly above it by less than its last place. The
transcendental values are enclosed by integer series of growing precision until the enclosure names one last place; the
largest precision suffices for every operand of F32, F16 and BF16 (notes/assumptions/22.md). -/

namespace Sys2Proof.Machine

open Sys2Proof.Bits

/-- A value and whether its magnitude is strictly above (by less than one last place). -/
structure SVal where
  val  : FVal
  more : Bool
deriving DecidableEq, Repr

/-- Floor of the square root. -/
def isqrt (n : Nat) : Nat :=
  (List.range (n.log2 / 2 + 1)).reverse.foldl (fun r i => if (r + 2 ^ i) * (r + 2 ^ i) ≤ n then r + 2 ^ i else r) 0

/-- The quotient of two finite magnitudes, n ≠ 0. -/
def divMag (neg : Bool) (m : Nat) (e : Int) (n : Nat) (d : Int) : SVal :=
  let k := 70 + n.log2
  { val := .fin neg (m * 2 ^ k / n) (e - d - k), more := decide (m * 2 ^ k % n ≠ 0) }

/-- The square root of a finite positive magnitude. -/
def sqrtMag (m : Nat) (e : Int) : SVal :=
  let k : Nat := 140 + (if (e - 140) % 2 = 0 then 0 else 1)
  let r := isqrt (m * 2 ^ k)
  { val := .fin false r ((e - k) / 2), more := decide (r * r ≠ m * 2 ^ k) }

/-- The reciprocal square root of a finite positive magnitude. -/
def rsqrtMag (m : Nat) (e : Int) : SVal :=
  let m' := if e % 2 = 0 then m else 2 * m
  let e' := if e % 2 = 0 then e else e - 1
  let k := 70 + m'.log2
  let r := isqrt (2 ^ (2 * k) / m')
  { val := .fin false r (-(e' / 2) - k), more := decide (r * r * m' ≠ 2 ^ (2 * k)) }

/-! ## Series in fixed point: a number `n` stands for n ÷ 2^w -/

/-- e^x for 0 ≤ x ≤ 1. -/
def fxExp (w x : Nat) : Nat :=
  let rec go : Nat → Nat → Nat → Nat → Nat
    | 0, _, _, acc => acc
    | f + 1, k, t, acc =>
      if t = 0 then acc
      else
        let t' := t * x / 2 ^ w / (k + 1)
        go f (k + 1) t' (acc + t')
  go w 0 (2 ^ w) (2 ^ w)

/-- artanh z for 0 ≤ z ≤ 1/3. -/
def fxAtanh (w z : Nat) : Nat :=
  let rec go : Nat → Nat → Nat → Nat → Nat
    | 0, _, _, acc => acc
    | f + 1, k, p, acc => if p = 0 then acc else go f (k + 2) (p * z / 2 ^ w * z / 2 ^ w) (acc + p / k)
  go w 1 z 0

/-- ln 2. -/
def fxLn2 (w : Nat) : Nat := 2 * fxAtanh w (2 ^ w / 3)

/-- arctan (1 ÷ n), n ≥ 2. -/
def fxAtanInv (w n : Nat) : Nat :=
  let rec go : Nat → Nat → Nat → Bool → Nat → Nat → Nat
    | 0, _, _, _, a, b => a - b
    | f + 1, k, p, s, a, b =>
      if p = 0 then a - b
      else if s then go f (k + 2) (p / (n * n)) (!s) a (b + p / k) else go f (k + 2) (p / (n * n)) (!s) (a + p / k) b
  go w 1 (2 ^ w / n) false 0 0

/-- π (Machin). -/
def fxPi (w : Nat) : Nat := 16 * fxAtanInv w 5 - 4 * fxAtanInv w 239

/-- The alternating series t − t·x²/(k(k+1)) + …, which is sin x from t = x, k = 2 and cos x from t = 1, k = 1. -/
def fxAlt (w x2 k t : Nat) : Nat :=
  let rec go : Nat → Nat → Nat → Bool → Nat → Nat → Nat
    | 0, _, _, _, a, b => a - b
    | f + 1, k, t, s, a, b =>
      if t = 0 then a - b
      else
        let t' := t * x2 / 2 ^ w / (k * (k + 1))
        if s then go f (k + 2) t' (!s) a (b + t) else go f (k + 2) t' (!s) (a + t) b
  go w k t false 0 0

/-- e^−y for y ≥ 0. -/
def fxExpNeg (w y : Nat) : Nat :=
  let l := fxLn2 w
  let k := y / l
  fxExp w (l - (y - k * l)) / 2 ^ (k + 1)

/-- Fix the last place: an approximation a × 2^e whose error is below 2^20 × 2^e, at growing precisions, until dropping 64
bits gives one answer with at least 40 bits. -/
def settle (neg : Bool) (f : Nat → Nat × Int) : List Nat → SVal
  | [] => { val := .fin neg 0 0, more := true }
  | w :: r =>
    let (a, e) := f w
    let lo := (a - 2 ^ 20) / 2 ^ 64
    if lo = (a + 2 ^ 20) / 2 ^ 64 ∧ 40 ≤ lo.log2 then { val := .fin neg lo (e + 64), more := true }
    else settle neg f r

/-- The precisions tried. -/
def precisions : List Nat := [200, 480, 1000, 2000]

/-- m × 2^e in fixed point, exact when w ≥ −e. -/
def toFx (w m : Nat) (e : Int) : Nat := if 0 ≤ e + w then m * 2 ^ (e + w).toNat else m / 2 ^ (-(e + w)).toNat

/-- A value just below 1. -/
def belowOne (neg : Bool) : SVal := { val := .fin neg (2 ^ 80 - 1) (-80), more := true }

/-- 2^a for a finite nonzero a. -/
def exp2Mag (neg : Bool) (m : Nat) (e : Int) : SVal :=
  -- floor of a and its fraction over 2^k
  let k := if e < 0 then (-e).toNat else 0
  let num : Int := if 0 ≤ e then (m * 2 ^ (min e 20).toNat : Nat) else m
  let a : Int := if neg then -num else num
  let n := max (-20000) (min 20000 (a / (2 ^ k : Nat)))
  let fr := (a % (2 ^ k : Nat)).toNat
  if fr = 0 then { val := .fin false 1 n, more := false }
  else settle false (fun w => (fxExp w (toFx w fr (-k) * fxLn2 w / 2 ^ w), n - w)) precisions

/-- log2 of a finite positive magnitude. -/
def log2Mag (m : Nat) (e : Int) : SVal :=
  let l := m.log2
  let ex := e + l
  if m = 2 ^ l then { val := .fin (decide (ex < 0)) ex.natAbs 0, more := false }
  else
    settle (decide (ex < 0)) (fun w =>
      let z := (m - 2 ^ l) * 2 ^ w / (m + 2 ^ l)
      let lg := 2 * fxAtanh w z * 2 ^ w / fxLn2 w
      (if ex < 0 then ex.natAbs * 2 ^ w - lg else ex.natAbs * 2 ^ w + lg, -w)) precisions

/-- The part of a magnitude below 2, over 2^k: (numerator, k). -/
def mod2 (m : Nat) (e : Int) : Nat × Nat :=
  if 0 < e then (0, 0) else ((m % 2 ^ (1 + (-e).toNat)), (-e).toNat)

/-- sin (π r) or cos (π r) for r = n ÷ 2^k in [0, 1/4], r > 0. -/
def sinCos (neg cos : Bool) (n k : Nat) : SVal :=
  settle neg (fun w =>
    let x := toFx w n (-k) * fxPi w / 2 ^ w
    let x2 := x * x / 2 ^ w
    (if cos then fxAlt w x2 1 (2 ^ w) else fxAlt w x2 2 x, -w)) precisions

/-- sin (π a) for a finite nonzero a. -/
def sinPi (neg : Bool) (m : Nat) (e : Int) : SVal :=
  let (n0, k) := mod2 m e
  let neg' := neg != decide (2 ^ k ≤ n0)
  let n1 := n0 % 2 ^ k
  let n := if 2 ^ k < 2 * n1 then 2 ^ k - n1 else n1
  if n = 0 then { val := .fin false 0 0, more := false }
  else if 2 * n = 2 ^ k then { val := .fin neg' 1 0, more := false }
  else if 4 * n ≤ 2 ^ k then sinCos neg' false n k
  else sinCos neg' true (2 ^ k - 2 * n) (k + 1)

/-- cos (π a) for a finite a. -/
def cosPi (m : Nat) (e : Int) : SVal :=
  let (n0, k) := mod2 m e
  let n1 := if 2 ^ k < n0 then 2 * 2 ^ k - n0 else n0
  let neg := decide (2 ^ k < 2 * n1)
  let n := if neg then 2 ^ k - n1 else n1
  if n = 0 then { val := .fin neg 1 0, more := false }
  else if 2 * n = 2 ^ k then { val := .fin false 0 0, more := false }
  else if 4 * n ≤ 2 ^ k then sinCos neg true n k
  else sinCos neg false (2 ^ k - 2 * n) (k + 1)

/-- tanh of a finite nonzero a. -/
def tanhMag (neg : Bool) (m : Nat) (e : Int) : SVal :=
  if 5 ≤ e + m.log2 then belowOne neg
  else
    settle neg (fun w =>
      let q := fxExpNeg w (2 * toFx w m e)
      ((2 ^ w - q) * 2 ^ w / (2 ^ w + q), -w)) precisions

/-- 1 ÷ (1 + e^−a) of a finite nonzero a. -/
def sigmMag (neg : Bool) (m : Nat) (e : Int) : SVal :=
  if 7 ≤ e + m.log2 then (if neg then { val := .fin false 1 (-180), more := true } else belowOne false)
  else
    settle false (fun w =>
      let q := fxExpNeg w (toFx w m e)
      (if neg then q * 2 ^ w / (2 ^ w + q) else 2 ^ w * 2 ^ w / (2 ^ w + q), -w)) precisions

end Sys2Proof.Machine
end

