-- ==== Sys2Proof/Machine/Vsfu.lean ====
section
/-! DEFINITION. The VSFU major (08_vector_unit.md R196 to R200, R204). -/

namespace Sys2Proof.Machine

open Sys2Proof.Bits

/-- A special function's exact value for an operand, with its flags, rounded: under the mode as issued, or to nearest for
F32 where `nearest` (R196). -/
def sfuRound (nearest : Bool) (md : Modes) (ty pos : Nat) (x : SVal × Flags) : Nat × Flags :=
  let md' := if nearest && ty == 10 then { md with rm := Rm.rne } else md.plain
  let (r, f) := roundFull md' (ditherAt md pos) ty x.1.val x.1.more
  (r, f ||| x.2)

/-- An exact value. -/
def sv (x : FVal) : SVal := { val := x, more := false }

/-- a ÷ b (Table 8.7, FDIV). -/
def divVal (a b : FVal) : SVal × Flags :=
  match a, b with
  | .nan _, _ => (sv (.nan false), snanFlag [a, b])
  | _, .nan _ => (sv (.nan false), snanFlag [a, b])
  | .inf _, .inf _ => (sv (.nan false), fNV)
  | .inf p, .fin q _ _ => (sv (.inf (p != q)), 0)
  | .fin p _ _, .inf q => (sv (.fin (p != q) 0 0), 0)
  | .fin p m e, .fin q n d =>
    if n = 0 then (if m = 0 then (sv (.nan false), fNV) else (sv (.inf (p != q)), fDZ))
    else if m = 0 then (sv (.fin (p != q) 0 0), 0)
    else (divMag (p != q) m e n d, 0)

/-- A unary function that Table 8.7 gives: NaN operands as R196, infinities and finite values as `inf` and `fin` say. -/
def unaryVal (inf : Bool → SVal × Flags) (fin : Bool → Nat → Int → SVal × Flags) (a : FVal) : SVal × Flags :=
  match a with
  | .nan s => (sv (.nan false), if s then fNV else 0)
  | .inf n => inf n
  | .fin n m e => fin n m e

/-- The invalid result. -/
def invalid : SVal × Flags := (sv (.nan false), fNV)

def sqrtVal : FVal → SVal × Flags :=
  unaryVal (fun n => if n then invalid else (sv (.inf false), 0)) fun n m e =>
    if m = 0 then (sv (.fin n 0 0), 0) else if n then invalid else (sqrtMag m e, 0)

def rsqVal : FVal → SVal × Flags :=
  unaryVal (fun n => if n then invalid else (sv (.fin false 0 0), 0)) fun n m e =>
    if m = 0 then (sv (.inf n), fDZ) else if n then invalid else (rsqrtMag m e, 0)

def exp2Val : FVal → SVal × Flags :=
  unaryVal (fun n => (sv (if n then .fin false 0 0 else .inf false), 0)) fun n m e =>
    if m = 0 then (sv (.fin false 1 0), 0) else (exp2Mag n m e, 0)

def log2Val : FVal → SVal × Flags :=
  unaryVal (fun n => if n then invalid else (sv (.inf false), 0)) fun n m e =>
    if m = 0 then (sv (.inf true), fDZ) else if n then invalid else (log2Mag m e, 0)

def sinVal : FVal → SVal × Flags :=
  unaryVal (fun _ => invalid) fun n m e => if m = 0 then (sv (.fin n 0 0), 0) else (sinPi n m e, 0)

def cosVal : FVal → SVal × Flags :=
  unaryVal (fun _ => invalid) fun _ m e => if m = 0 then (sv (.fin false 1 0), 0) else (cosPi m e, 0)

def tanhVal : FVal → SVal × Flags :=
  unaryVal (fun n => (sv (.fin n 1 0), 0)) fun n m e => if m = 0 then (sv (.fin n 0 0), 0) else (tanhMag n m e, 0)

def sigmVal : FVal → SVal × Flags :=
  unaryVal (fun n => (sv (if n then .fin false 0 0 else .fin false 1 0), 0)) fun n m e =>
    if m = 0 then (sv (.fin false 1 (-1)), 0) else (sigmMag n m e, 0)

/-- An element operation from a function's values. -/
def sfuOp (nearest : Bool) (f : FVal → FVal → SVal × Flags) : EltOp := fun md ty pos a b _ =>
  sfuRound nearest md ty pos (f (fread md ty a) (fread md ty b))

/-- A VSFU minor of one source, types 8 to 10. -/
def vsfu1 (s : State) (f : FmtM) (v : FVal → SVal × Flags) : Out :=
  let ty := f.ty.toNat
  arith s (headM f true (!(decide (8 ≤ ty) && decide (ty ≤ 10))) .float [src10 f.a]) f.d.toNat f.g.toNat ty f.nw false
    [(src10 f.a, ty)] (sfuOp true fun a _ => v a)

/-- FDIV (R196). -/
def execFdiv (f : FmtM) (s : State) : Out := vflt s f false false 2 (sfuOp false divVal)
/-- FSQRT (R196). -/
def execFsqrt (f : FmtM) (s : State) : Out := vflt s f false false 1 (sfuOp false fun a _ => sqrtVal a)
/-- FRCP (R196). -/
def execFrcp (f : FmtM) (s : State) : Out := vsfu1 s f (divVal (.fin false 1 0))
/-- FRSQ (R196). -/
def execFrsq (f : FmtM) (s : State) : Out := vsfu1 s f rsqVal
/-- FEXP2 (R196). -/
def execFexp2 (f : FmtM) (s : State) : Out := vsfu1 s f exp2Val
/-- FLOG2 (R196). -/
def execFlog2 (f : FmtM) (s : State) : Out := vsfu1 s f log2Val
/-- FSIN (R196). -/
def execFsin (f : FmtM) (s : State) : Out := vsfu1 s f sinVal
/-- FCOS (R196). -/
def execFcos (f : FmtM) (s : State) : Out := vsfu1 s f cosVal
/-- FTANH (R196). -/
def execFtanh (f : FmtM) (s : State) : Out := vsfu1 s f tanhVal
/-- FSIGM (R196). -/
def execFsigm (f : FmtM) (s : State) : Out := vsfu1 s f sigmVal

/-! ## Activation tables -/

/-- A 32-bit word of a table image. -/
def tabWord (b : Sparse 8) (off : Nat) : Nat := ofBytes (sread b off 4)

/-- The table's value of x (R200), as F32 bits, with its flags. -/
def factF32 (b : Sparse 8) (x : FVal) : Nat × Flags :=
  let x0 := fval 10 (tabWord b 0)
  let h := sval 8 (sget b 4).toNat
  let lo := (sget b 5).getLsbD 0
  let hi := (sget b 5).getLsbD 1
  let const (off : Nat) : Nat × Flags :=
    match fval 10 (tabWord b off) with
    | .nan s => (fnan 10, if s then fNV else 0)
    | _ => (tabWord b off, 0)
  let y (i : Nat) : FVal := fval 10 (tabWord b (16 + 8 * i))
  let sl (i : Nat) : FVal := fval 10 (tabWord b (20 + 8 * i))
  match x with
  | .nan s => (fnan 10, if s then fNV else 0)
  | .inf n =>
    if n && lo then const 8
    else if !n && hi then const 12
    else
      let i := if n then 0 else 1023
      if (y i).isNan || (sl i).isNan then (fnan 10, snanFlag [y i, sl i])
      else if (sl i).isZero then (tabWord b (16 + 8 * i), 0)
      else
        let sneg := match sl i with
          | .inf p => p
          | .fin p _ _ => p
          | .nan _ => false
        (finf 10 + (if sneg != n then fsign 10 else 0), 0)
  | .fin _ _ _ =>
    match (fadd false x x0.neg).1 with
    | .fin un um ue =>
      let below := un && um != 0
      let e := ue - h
      let u := if 0 ≤ e then um * 2 ^ (min e 2000).toNat else um / 2 ^ (-e).toNat
      if below && lo then const 8
      else if !below && decide (1024 ≤ u) && hi then const 12
      else
        let i := if below then 0 else min u 1023
        let t := (fadd false (.fin un um ue) (.fin true i h)).1
        rounded Modes.exactRne 10 0 (ffma false (sl i) t (y i))
    | _ => (fnan 10, 0)

/-- The bank a group has selected, if it is READY (R204). -/
def Core.readyBank (c : Core) (sel : Option Nat) : Option (Sparse 8) :=
  match sel with
  | none => none
  | some n =>
    let b := if n = 0 then c.bank0 else c.bank1
    if b.st = .ready then some b.bytes else none

/-- FACT (R200, R204). -/
def execFact (f : FmtM) (s : State) : Out :=
  let ty := f.ty.toNat
  let l : List TySrc := [(src10 f.a, ty)]
  issue s (headM f true (!(decide (8 ≤ ty) && decide (ty ≤ 10))) .float [src10 f.a])
    (fun i => dvOk f.d.toNat i.g.budget && tySrcsOk i l)
    (fun i s =>
      match (s.core i.core).readyBank i.g.actSel with
      | none =>
        let m := i.act f.g.toNat
        (s, { i.eff.shift 0 (fun _ => 0) with traps := trapSet m cTableBound 0 0 7 })
      | some b =>
        vecResult f.d.toNat f.g.toNat f.nw (tyP ty) (fun i m => eltwise i ty m l fun md ty pos a _ _ =>
          let (y, fl) := factF32 b (fread md ty a)
          rounded md.plain ty pos (fval 10 y, fl)) i s)

end Sys2Proof.Machine
end

