-- ==== Sys2Proof/Machine/Xlane.lean ====
section
/-! DEFINITION. The XLANE major and the short butterfly (08_vector_unit.md R206 to R212, 02_instruction_words.md R36). -/

namespace Sys2Proof.Machine

open Sys2Proof.Bits

/-- Element `e` of a register read in all 32 lanes (R181, R207). -/
def element (i : Iss) (l : List TySrc) (n e : Nat) : Nat := elt i l n (e % 32) (e / 32)

/-- An XLANE instruction whose result sub-element (lane, k) is `f`. -/
def xlane (s : State) (f : FmtM) (tyOk : Bool) (l : List TySrc) (ok : Bool) (g : Iss → Nat → Nat → Nat) : Out :=
  let ty := f.ty.toNat
  issue s (headM f true (!tyOk) .none (l.map Prod.fst))
    (fun i => dvOk f.d.toNat i.g.budget && ok && tySrcsOk i l)
    (vecResult f.d.toNat f.g.toNat f.nw (tyP ty) fun i m =>
      (lanes32.map fun lane => if inSet m lane then pack (tyW ty) ((List.range (tyP ty)).map (g i lane)) else 0, 0))

/-- A uniform B as a signed integer, modulo n (R206). -/
def uniMod (i : Iss) (b : Src) (n : Nat) : Nat := ((i.uni b).toInt % (n : Int)).toNat

/-- XGET (R208). -/
def execXget (f : FmtM) (s : State) : Out :=
  let ty := f.ty.toNat
  let l : List TySrc := [(src10 f.a, ty), (src10 f.b, ty)]
  xlane s f (ty != 14) l true fun i lane k => element i l 0 (elt i l 1 lane k % (32 * tyP ty))

/-- The elements that XPUT writes, in ascending order of source index: (target element, value). -/
def xputs (i : Iss) (l : List TySrc) (ty : Nat) (m : LaneSet) : List (Nat × Nat) :=
  (List.range (32 * tyP ty)).filterMap fun e =>
    if inSet m (e % 32) then some (elt i l 1 (e % 32) (e / 32) % (32 * tyP ty), element i l 0 e) else none

/-- XPUT (R208): the highest source index wins. -/
def execXput (f : FmtM) (s : State) : Out :=
  let ty := f.ty.toNat
  let l : List TySrc := [(src10 f.a, ty), (src10 f.b, ty), (src10 f.c, ty)]
  issue s (headM f true (ty == 14) .none (l.map Prod.fst))
    (fun i => dvOk f.d.toNat i.g.budget && tySrcsOk i l)
    (vecResult f.d.toNat f.g.toNat f.nw (tyP ty) fun i m =>
      let puts := (xputs i l ty m).reverse
      (lanes32.map fun lane =>
        pack (tyW ty) ((List.range (tyP ty)).map fun k =>
          match puts.find? fun p => p.1 == 32 * k + lane with
          | some p => p.2
          | none => elt i l 2 lane k), 0))

/-- XSHFL (R206): all of A from the lane that B names. -/
def execXshfl (f : FmtM) (s : State) : Out :=
  let ty := f.ty.toNat
  let l : List TySrc := [(src10 f.a, ty), (src10 f.b, ty)]
  xlane s f true l true fun i lane k => elt i l 0 ((i.read (src10 f.b) lane ty).toNat % 32) k

/-- XBFLY (R206). -/
def execXbfly (f : FmtM) (s : State) : Out :=
  let ty := f.ty.toNat
  let b := src10 f.b
  let l : List TySrc := [(src10 f.a, ty)]
  xlane s f true l b.uniform fun i lane k => elt i l 0 (lane ^^^ uniMod i b 32) k

/-- XROT (R206). -/
def execXrot (f : FmtM) (s : State) : Out :=
  let ty := f.ty.toNat
  let b := src10 f.b
  let n := 32 * tyP ty
  let l : List TySrc := [(src10 f.a, ty)]
  xlane s f true l b.uniform fun i lane k => element i l 0 ((32 * k + lane + n - uniMod i b n) % n)

/-- XBCAST (R206). -/
def execXbcast (f : FmtM) (s : State) : Out :=
  let ty := f.ty.toNat
  let b := src10 f.b
  let l : List TySrc := [(src10 f.a, ty)]
  xlane s f true l b.uniform fun i _ _ => element i l 0 (uniMod i b (32 * tyP ty))

/-- XBFLY, short (R36): B is an immediate whose four bits are the lane mask, read unsigned. -/
def execXbflyShort (f : FmtS) (s : State) : Out :=
  let a := src7 f.a
  let b := src7 f.b
  issue s (headS f true false .none [a])
    (fun i => dvOk f.d.toNat i.g.budget && b.isImm && a.ok i.g.budget)
    (vecResult f.d.toNat 0 f.nw 1 fun i _ => (lanes32.map fun lane => i.read a (lane ^^^ b.raw) 15, 0))

/-! ## Reductions -/

/-- The identity of a reduction (R209). -/
def redId (op ty : Nat) : Nat :=
  if tyFloat ty then (match op with
    | 0 => fsign ty
    | 1 => finf ty
    | _ => finf ty + fsign ty)
  else (match op with
    | 1 => wrap (tyW ty) (imax ty)
    | 2 => wrap (tyW ty) (imin ty)
    | 3 => 2 ^ tyW ty - 1
    | _ => 0)

/-- `Comb` of R209. -/
def redComb (md : Modes) (op ty : Nat) (x y : Nat × Flags) : Nat × Flags :=
  let r : Nat × Flags :=
    if tyFloat ty then (match op with
      | 0 => opFadd md ty 0 x.1 y.1 0
      | 1 => fminmax md ty false x.1 y.1
      | _ => fminmax md ty true x.1 y.1)
    else (match op with
      | 0 => ((x.1 + y.1) % 2 ^ tyW ty, 0)
      | 1 => (if ival ty x.1 ≤ ival ty y.1 then x.1 else y.1, 0)
      | 2 => (if ival ty x.1 ≤ ival ty y.1 then y.1 else x.1, 0)
      | 3 => (x.1 &&& y.1, 0)
      | 4 => (x.1 ||| y.1, 0)
      | _ => (x.1 ^^^ y.1, 0))
  (r.1, r.2 ||| x.2 ||| y.2)

/-- One level of the tree: neighbours combined. -/
def treeLevel (comb : Nat × Flags → Nat × Flags → Nat × Flags) : List (Nat × Flags) → List (Nat × Flags)
  | x :: y :: r => comb x y :: treeLevel comb r
  | l => l

/-- The tree of five levels (R209). -/
def redTree (md : Modes) (op ty : Nat) (xs : List (Nat × Flags)) : Nat × Flags :=
  ((List.range 5).foldl (fun l _ => treeLevel (redComb md op ty) l) xs).headD (0, 0)

/-- The code of XRED or XSCAN is legal for the type (R209, R210). -/
def redOk (code ty : Nat) : Bool := decide (code % 8 ≤ 5) && !(tyFloat ty && decide (3 ≤ code % 8))

/-- The inputs of a reduction at position `k`: the identity in inactive lanes. -/
def redIn (i : Iss) (l : List TySrc) (op ty : Nat) (m : LaneSet) (k : Nat) : List (Nat × Flags) :=
  lanes32.map fun lane => (if inSet m lane then elt i l 0 lane k else redId op ty, 0)

/-- XRED (R209). -/
def execXred (f : FmtM) (s : State) : Out :=
  let ty := f.ty.toNat
  let code := codeOf f.c
  let l : List TySrc := [(src10 f.a, ty)]
  issue s (headM f true (decide (11 < ty)) .none [src10 f.a])
    (fun i => dvOk f.d.toNat i.g.budget && (src10 f.c).isImm && decide (code < 8) && redOk code ty && tySrcsOk i l)
    (vecResult f.d.toNat f.g.toNat f.nw (tyP ty) fun i m =>
      let rs := (List.range (tyP ty)).map fun k => redTree i.modes code ty (redIn i l code ty m k)
      (lanes32.map fun _ => pack (tyW ty) (rs.map Prod.fst), orFlags (rs.map Prod.snd)))

/-- The prefix combinations of a position, lane 0 upwards (R210). -/
def scanFrom (comb : Nat × Flags → Nat × Flags → Nat × Flags) (excl : Bool) :
    Nat × Flags → List (Nat × Flags) → List (Nat × Flags)
  | _, [] => []
  | acc, v :: r =>
    let acc' := comb acc v
    (if excl then acc.1 else acc'.1, acc'.2) :: scanFrom comb excl acc' r

/-- XSCAN (R210). -/
def execXscan (f : FmtM) (s : State) : Out :=
  let ty := f.ty.toNat
  let code := codeOf f.c
  let l : List TySrc := [(src10 f.a, ty)]
  issue s (headM f true (decide (11 < ty)) .none [src10 f.a])
    (fun i => dvOk f.d.toNat i.g.budget && (src10 f.c).isImm && decide (code < 16) && redOk code ty && tySrcsOk i l)
    (vecResult f.d.toNat f.g.toNat f.nw (tyP ty) fun i m =>
      let op := code % 8
      let cols := (List.range (tyP ty)).map fun k =>
        scanFrom (redComb i.modes op ty) (bit code 3) (redId op ty, 0) (redIn i l op ty m k)
      (lanes32.map fun lane => pack (tyW ty) (cols.map fun c => (c.getD lane (0, 0)).1),
       orFlags (cols.map fun c => (c.getD 31 (0, 0)).2)))

/-- XBALLOT (R211). -/
def execXballot (f : FmtM) (s : State) : Out :=
  let ty := f.ty.toNat
  let code := codeOf f.c
  let l : List TySrc := [(src10 f.a, ty)]
  issue s (headM f false (!(tyInt ty || ty == 15)) .none [src10 f.a])
    (fun i => d8Ok f.d.toNat && (src10 f.c).isImm && decide (code < tyP ty) && tySrcsOk i l)
    (fun i s =>
      let m := i.act f.g.toNat
      ((s.countOps i m (tyP ty)).setGroup i.key
        (i.g.kset f.d.toNat (laneSet fun lane => inSet m lane && elt i l 0 lane code != 0)), i.eff))

end Sys2Proof.Machine
end

