-- ==== Sys2Proof/Machine/Dispatch.lean ====
section
/-! DEFINITION. The dispatch of every instruction and step to its meaning: one arm per constructor of `Instr`. -/

namespace Sys2Proof.Machine

def exec (i : Instr) (s : State) : Host.Outcome State Fault Refusal :=
  match i with
  | .pfx f => Sys2Proof.Machine.execPfx f s
  | .vaddS32Short f => Sys2Proof.Machine.execVaddS32Short f s
  | .vsubS32Short f => Sys2Proof.Machine.execVsubS32Short f s
  | .vandB64Short f => Sys2Proof.Machine.execVandB64Short f s
  | .vxorB64Short f => Sys2Proof.Machine.execVxorB64Short f s
  | .faddF32Short f => Sys2Proof.Machine.execFaddF32Short f s
  | .fsubF32Short f => Sys2Proof.Machine.execFsubF32Short f s
  | .fmulF32Short f => Sys2Proof.Machine.execFmulF32Short f s
  | .fmaxF32Short f => Sys2Proof.Machine.execFmaxF32Short f s
  | .faddF16Short f => Sys2Proof.Machine.execFaddF16Short f s
  | .fmulF16Short f => Sys2Proof.Machine.execFmulF16Short f s
  | .faddBf16Short f => Sys2Proof.Machine.execFaddBf16Short f s
  | .fmulBf16Short f => Sys2Proof.Machine.execFmulBf16Short f s
  | .vmovShort f => Sys2Proof.Machine.execVmovShort f s
  | .xbflyShort f => Sys2Proof.Machine.execXbflyShort f s
  | .vshlB64Short f => Sys2Proof.Machine.execVshlB64Short f s
  | .nop f => Sys2Proof.Machine.execNop f s
  | .br f => Sys2Proof.Machine.execBr f s
  | .brn f => Sys2Proof.Machine.execBrn f s
  | .pair f => Sys2Proof.Machine.execPair f s
  | .vadd f => Sys2Proof.Machine.execVadd f s
  | .vsub f => Sys2Proof.Machine.execVsub f s
  | .vmul f => Sys2Proof.Machine.execVmul f s
  | .vmulh f => Sys2Proof.Machine.execVmulh f s
  | .vmad f => Sys2Proof.Machine.execVmad f s
  | .vmin f => Sys2Proof.Machine.execVmin f s
  | .vmax f => Sys2Proof.Machine.execVmax f s
  | .vabs f => Sys2Proof.Machine.execVabs f s
  | .vneg f => Sys2Proof.Machine.execVneg f s
  | .vand f => Sys2Proof.Machine.execVand f s
  | .vor f => Sys2Proof.Machine.execVor f s
  | .vxor f => Sys2Proof.Machine.execVxor f s
  | .vnot f => Sys2Proof.Machine.execVnot f s
  | .vshl f => Sys2Proof.Machine.execVshl f s
  | .vshr f => Sys2Proof.Machine.execVshr f s
  | .vsar f => Sys2Proof.Machine.execVsar f s
  | .vrot f => Sys2Proof.Machine.execVrot f s
  | .vclz f => Sys2Proof.Machine.execVclz f s
  | .vpopc f => Sys2Proof.Machine.execVpopc f s
  | .vcmp f => Sys2Proof.Machine.execVcmp f s
  | .vsel f => Sys2Proof.Machine.execVsel f s
  | .vmov f => Sys2Proof.Machine.execVmov f s
  | .vshf f => Sys2Proof.Machine.execVshf f s
  | .fadd f => Sys2Proof.Machine.execFadd f s
  | .fsub f => Sys2Proof.Machine.execFsub f s
  | .fmul f => Sys2Proof.Machine.execFmul f s
  | .ffma f => Sys2Proof.Machine.execFfma f s
  | .ffms f => Sys2Proof.Machine.execFfms f s
  | .fmin f => Sys2Proof.Machine.execFmin f s
  | .fmax f => Sys2Proof.Machine.execFmax f s
  | .fabs f => Sys2Proof.Machine.execFabs f s
  | .fneg f => Sys2Proof.Machine.execFneg f s
  | .fcmp f => Sys2Proof.Machine.execFcmp f s
  | .fclass f => Sys2Proof.Machine.execFclass f s
  | .fround f => Sys2Proof.Machine.execFround f s
  | .fscale f => Sys2Proof.Machine.execFscale f s
  | .fdiv f => Sys2Proof.Machine.execFdiv f s
  | .fsqrt f => Sys2Proof.Machine.execFsqrt f s
  | .frcp f => Sys2Proof.Machine.execFrcp f s
  | .frsq f => Sys2Proof.Machine.execFrsq f s
  | .fexp2 f => Sys2Proof.Machine.execFexp2 f s
  | .flog2 f => Sys2Proof.Machine.execFlog2 f s
  | .fsin f => Sys2Proof.Machine.execFsin f s
  | .fcos f => Sys2Proof.Machine.execFcos f s
  | .ftanh f => Sys2Proof.Machine.execFtanh f s
  | .fsigm f => Sys2Proof.Machine.execFsigm f s
  | .fact f => Sys2Proof.Machine.execFact f s
  | .cvt f => Sys2Proof.Machine.execCvt f s
  | .cvtq f => Sys2Proof.Machine.execCvtq f s
  | .cvtb f => Sys2Proof.Machine.execCvtb f s
  | .dq f => Sys2Proof.Machine.execDq f s
  | .vhad f => Sys2Proof.Machine.execVhad f s
  | .vdithSet f => Sys2Proof.Machine.execVdithSet f s
  | .vdithAdv f => Sys2Proof.Machine.execVdithAdv f s
  | .xget f => Sys2Proof.Machine.execXget f s
  | .xput f => Sys2Proof.Machine.execXput f s
  | .xshfl f => Sys2Proof.Machine.execXshfl f s
  | .xbfly f => Sys2Proof.Machine.execXbfly f s
  | .xrot f => Sys2Proof.Machine.execXrot f s
  | .xbcast f => Sys2Proof.Machine.execXbcast f s
  | .xred f => Sys2Proof.Machine.execXred f s
  | .xscan f => Sys2Proof.Machine.execXscan f s
  | .xballot f => Sys2Proof.Machine.execXballot f s
  | .gmov f => Sys2Proof.Machine.execGmov f s
  | .gadd f => Sys2Proof.Machine.execGadd f s
  | .gsub f => Sys2Proof.Machine.execGsub f s
  | .gmul f => Sys2Proof.Machine.execGmul f s
  | .gand f => Sys2Proof.Machine.execGand f s
  | .gor f => Sys2Proof.Machine.execGor f s
  | .gxor f => Sys2Proof.Machine.execGxor f s
  | .gshl f => Sys2Proof.Machine.execGshl f s
  | .gshr f => Sys2Proof.Machine.execGshr f s
  | .gsar f => Sys2Proof.Machine.execGsar f s
  | .gcmp f => Sys2Proof.Machine.execGcmp f s
  | .gsel f => Sys2Proof.Machine.execGsel f s
  | .vtog f => Sys2Proof.Machine.execVtog f s
  | .gtov f => Sys2Proof.Machine.execGtov f s
  | .kset f => Sys2Proof.Machine.execKset f s
  | .kand f => Sys2Proof.Machine.execKand f s
  | .kor f => Sys2Proof.Machine.execKor f s
  | .kxor f => Sys2Proof.Machine.execKxor f s
  | .knot f => Sys2Proof.Machine.execKnot f s
  | .kmov f => Sys2Proof.Machine.execKmov f s
  | .kpop f => Sys2Proof.Machine.execKpop f s
  | .kfirst f => Sys2Proof.Machine.execKfirst f s
  | .vldi f => Sys2Proof.Machine.execVldi f s
  | .gldi f => Sys2Proof.Machine.execGldi f s
  | .ld f => Sys2Proof.Machine.execLd f s
  | .st f => Sys2Proof.Machine.execSt f s
  | .lds f => Sys2Proof.Machine.execLds f s
  | .sts f => Sys2Proof.Machine.execSts f s
  | .pftch f => Sys2Proof.Machine.execPftch f s
  | .cflush f => Sys2Proof.Machine.execCflush f s
  | .aadd f => Sys2Proof.Machine.execAadd f s
  | .amin f => Sys2Proof.Machine.execAmin f s
  | .amax f => Sys2Proof.Machine.execAmax f s
  | .aand f => Sys2Proof.Machine.execAand f s
  | .aor f => Sys2Proof.Machine.execAor f s
  | .axor f => Sys2Proof.Machine.execAxor f s
  | .axch f => Sys2Proof.Machine.execAxch f s
  | .acas f => Sys2Proof.Machine.execAcas f s
  | .afadd f => Sys2Proof.Machine.execAfadd f s
  | .ainc f => Sys2Proof.Machine.execAinc f s
  | .fence f => Sys2Proof.Machine.execFence f s
  | .marm f => Sys2Proof.Machine.execMarm f s
  | .mwait f => Sys2Proof.Machine.execMwait f s
  | .tbar f => Sys2Proof.Machine.execTbar f s
  | .rbar f => Sys2Proof.Machine.execRbar f s
  | .ldp f => Sys2Proof.Machine.execLdp f s
  | .stp f => Sys2Proof.Machine.execStp f s
  | .padd f => Sys2Proof.Machine.execPadd f s
  | .psub f => Sys2Proof.Machine.execPsub f s
  | .peq f => Sys2Proof.Machine.execPeq f s
  | .pbase f => Sys2Proof.Machine.execPbase f s
  | .psize f => Sys2Proof.Machine.execPsize f s
  | .pname f => Sys2Proof.Machine.execPname f s
  | .pswz f => Sys2Proof.Machine.execPswz f s
  | .phold f => Sys2Proof.Machine.execPhold f s
  | .pdrop f => Sys2Proof.Machine.execPdrop f s
  | .kick f => Sys2Proof.Machine.execKick f s
  | .qring f => Sys2Proof.Machine.execQring f s
  | .cbinit f => Sys2Proof.Machine.execCbinit f s
  | .cbexp f => Sys2Proof.Machine.execCbexp f s
  | .cbarr f => Sys2Proof.Machine.execCbarr f s
  | .cbwait f => Sys2Proof.Machine.execCbwait f s
  | .cbwaitm f => Sys2Proof.Machine.execCbwaitm f s
  | .cbtest f => Sys2Proof.Machine.execCbtest f s
  | .cberr f => Sys2Proof.Machine.execCberr f s
  | .engr f => Sys2Proof.Machine.execEngr f s
  | .mloop f => Sys2Proof.Machine.execMloop f s
  | .mdrain f => Sys2Proof.Machine.execMdrain f s
  | .mclr f => Sys2Proof.Machine.execMclr f s
  | .mstat f => Sys2Proof.Machine.execMstat f s
  | .srch f => Sys2Proof.Machine.execSrch f s
  | .scancel f => Sys2Proof.Machine.execScancel f s
  | .nwri f => Sys2Proof.Machine.execNwri f s
  | .npoll f => Sys2Proof.Machine.execNpoll f s
  | .ferrq f => Sys2Proof.Machine.execFerrq f s
  | .cjoin f => Sys2Proof.Machine.execCjoin f s
  | .csend f => Sys2Proof.Machine.execCsend f s
  | .cchoose f => Sys2Proof.Machine.execCchoose f s
  | .crecv f => Sys2Proof.Machine.execCrecv f s
  | .cpoll f => Sys2Proof.Machine.execCpoll f s
  | .cdeleg f => Sys2Proof.Machine.execCdeleg f s
  | .caccept f => Sys2Proof.Machine.execCaccept f s
  | .cleave f => Sys2Proof.Machine.execCleave f s
  | .cstate f => Sys2Proof.Machine.execCstate f s
  | .cstateSelf f => Sys2Proof.Machine.execCstateSelf f s
  | .bra f => Sys2Proof.Machine.execBra f s
  | .brc f => Sys2Proof.Machine.execBrc f s
  | .call f => Sys2Proof.Machine.execCall f s
  | .ret f => Sys2Proof.Machine.execRet f s
  | .jmpi f => Sys2Proof.Machine.execJmpi f s
  | .exit f => Sys2Proof.Machine.execExit f s
  | .spawn f => Sys2Proof.Machine.execSpawn f s
  | .yield f => Sys2Proof.Machine.execYield f s
  | .idem f => Sys2Proof.Machine.execIdem f s
  | .jenr f => Sys2Proof.Machine.execJenr f s
  | .jwait f => Sys2Proof.Machine.execJwait f s
  | .jstrk f => Sys2Proof.Machine.execJstrk f s
  | .jclr f => Sys2Proof.Machine.execJclr f s
  | .grow f => Sys2Proof.Machine.execGrow f s
  | .shrk f => Sys2Proof.Machine.execShrk f s
  | .atload f => Sys2Proof.Machine.execAtload f s
  | .atsel f => Sys2Proof.Machine.execAtsel f s
  | .mode f => Sys2Proof.Machine.execMode f s
  | .moder f => Sys2Proof.Machine.execModer f s
  | .trap f => Sys2Proof.Machine.execTrap f s
  | .bkpt f => Sys2Proof.Machine.execBkpt f s
  | .ecall f => Sys2Proof.Machine.execEcall f s
  | .tretRetry f => Sys2Proof.Machine.execTretRetry f s
  | .tretSkip f => Sys2Proof.Machine.execTretSkip f s
  | .tretExit f => Sys2Proof.Machine.execTretExit f s
  | .tretSave f => Sys2Proof.Machine.execTretSave f s
  | .csrd f => Sys2Proof.Machine.execCsrd f s
  | .cswr f => Sys2Proof.Machine.execCswr f s
  | .tlbinvPage f => Sys2Proof.Machine.execTlbinvPage f s
  | .tlbinvAsid f => Sys2Proof.Machine.execTlbinvAsid f s
  | .tlbinvAll f => Sys2Proof.Machine.execTlbinvAll f s
  | .potset f => Sys2Proof.Machine.execPotset f s
  | .halt f => Sys2Proof.Machine.execHalt f s
  | .tstateRd f => Sys2Proof.Machine.execTstateRd f s
  | .tstateWr f => Sys2Proof.Machine.execTstateWr f s
  | .lresumeReplay f => Sys2Proof.Machine.execLresumeReplay f s
  | .lresumeRetry f => Sys2Proof.Machine.execLresumeRetry f s
  | .lresumeSkip f => Sys2Proof.Machine.execLresumeSkip f s
  | .lresumeKill f => Sys2Proof.Machine.execLresumeKill f s
  | .lresumeRun f => Sys2Proof.Machine.execLresumeRun f s
  | .reservedMajor w0 rest => Sys2Proof.Machine.execReservedMajor w0 rest s
  | .barrelTurn core port => Sys2Proof.Machine.execBarrelTurn core port s
  | .runFetch core port slot => Sys2Proof.Machine.execRunFetch core port slot s
  | .resultArrival core port slot idx => Sys2Proof.Machine.execResultArrival core port slot idx s
  | .yieldCountExpiry core port slot => Sys2Proof.Machine.execYieldCountExpiry core port slot s
  | .teamEnd team => Sys2Proof.Machine.execTeamEnd team s
  | .recordAccept queue => Sys2Proof.Machine.execRecordAccept queue s
  | .saveRequest team => Sys2Proof.Machine.execSaveRequest team s
  | .teamSaved team => Sys2Proof.Machine.execTeamSaved team s
  | .fenceComplete core port slot => Sys2Proof.Machine.execFenceComplete core port slot s
  | .tlbinvComplete core port slot => Sys2Proof.Machine.execTlbinvComplete core port slot s
  | .potsetComplete core port slot => Sys2Proof.Machine.execPotsetComplete core port slot s
  | .ringSlotRead core => Sys2Proof.Machine.execRingSlotRead core s
  | .sharedQueueSlotRead queue => Sys2Proof.Machine.execSharedQueueSlotRead queue s
  | .copy core => Sys2Proof.Machine.execCopy core s
  | .copy3d core => Sys2Proof.Machine.execCopy3d core s
  | .fill core => Sys2Proof.Machine.execFill core s
  | .spawnPacket core => Sys2Proof.Machine.execSpawnPacket core s
  | .pieceArrival core idx start len => Sys2Proof.Machine.execPieceArrival core idx start len s
  | .engraveStart core => Sys2Proof.Machine.execEngraveStart core s
  | .engraveComplete core => Sys2Proof.Machine.execEngraveComplete core s
  | .bankSwap core => Sys2Proof.Machine.execBankSwap core s
  | .mloopStep core mismatch => Sys2Proof.Machine.execMloopStep core mismatch s
  | .mdrainExecute core => Sys2Proof.Machine.execMdrainExecute core s
  | .mclrExecute core => Sys2Proof.Machine.execMclrExecute core s
  | .atloadComplete core bank => Sys2Proof.Machine.execAtloadComplete core bank s
  | .searchPortForward core => Sys2Proof.Machine.execSearchPortForward core s
  | .searchArrival dog => Sys2Proof.Machine.execSearchArrival dog s
  | .searchAccept dog => Sys2Proof.Machine.execSearchAccept dog s
  | .neighbourListReply dog query => Sys2Proof.Machine.execNeighbourListReply dog query s
  | .distanceRequest dog query => Sys2Proof.Machine.execDistanceRequest dog query s
  | .distanceAnswer dog query => Sys2Proof.Machine.execDistanceAnswer dog query s
  | .scancelMarkArrival dog => Sys2Proof.Machine.execScancelMarkArrival dog s
  | .scancelAnswer dog core port slot => Sys2Proof.Machine.execScancelAnswer dog core port slot s
  | .bellwetherOperation idx => Sys2Proof.Machine.execBellwetherOperation idx s
  | .heldOperationAccept idx => Sys2Proof.Machine.execHeldOperationAccept idx s
  | .netPacket core => Sys2Proof.Machine.execNetPacket core s
  | .faultQueuePost => Sys2Proof.Machine.execFaultQueuePost s
  | .teamPlacement => Sys2Proof.Machine.execTeamPlacement s
  | .queueAging queue => Sys2Proof.Machine.execQueueAging queue s
  | .sliceExpiry ctx => Sys2Proof.Machine.execSliceExpiry ctx s
  | .preemptT1Expiry ctx => Sys2Proof.Machine.execPreemptT1Expiry ctx s
  | .preemptT2Expiry ctx => Sys2Proof.Machine.execPreemptT2Expiry ctx s
  | .probeTimer core port slot lane => Sys2Proof.Machine.execProbeTimer core port slot lane s
  | .probeHop idx => Sys2Proof.Machine.execProbeHop idx s
  | .pageWalkComplete asid va => Sys2Proof.Machine.execPageWalkComplete asid va s
  | .mwaitTimeout core port slot => Sys2Proof.Machine.execMwaitTimeout core port slot s
  | .scrubTick tier => Sys2Proof.Machine.execScrubTick tier s
  | .scrubLine tier => Sys2Proof.Machine.execScrubLine tier s
  | .bellwetherWithdrawal idx => Sys2Proof.Machine.execBellwetherWithdrawal idx s
  | .incomingFabricRequest src world seq req => Sys2Proof.Machine.execIncomingFabricRequest src world seq req s
  | .remoteResponse idx => Sys2Proof.Machine.execRemoteResponse idx s
  | .remotePathLimit idx => Sys2Proof.Machine.execRemotePathLimit idx s
  | .linkDown peer reset => Sys2Proof.Machine.execLinkDown peer reset s
  | .linkUp peer => Sys2Proof.Machine.execLinkUp peer s
  | .data peer flit => Sys2Proof.Machine.execData peer flit s
  | .ack peer flit => Sys2Proof.Machine.execAck peer flit s
  | .nak peer flit => Sys2Proof.Machine.execNak peer flit s
  | .keyswitch peer flit => Sys2Proof.Machine.execKeyswitch peer flit s
  | .idle peer flit => Sys2Proof.Machine.execIdle peer flit s
  | .rekeySwitch peer => Sys2Proof.Machine.execRekeySwitch peer s
  | .linkAuthFailureLimit peer => Sys2Proof.Machine.execLinkAuthFailureLimit peer s
  | .nwriMiddle pkt => Sys2Proof.Machine.execNwriMiddle pkt s
  | .nwriLast pkt => Sys2Proof.Machine.execNwriLast pkt s
  | .netAck frame psn ece => Sys2Proof.Machine.execNetAck frame psn ece s
  | .netNak frame psn cause => Sys2Proof.Machine.execNetNak frame psn cause s
  | .rnr frame psn => Sys2Proof.Machine.execRnr frame psn s
  | .rnrRetryTimer conn => Sys2Proof.Machine.execRnrRetryTimer conn s
  | .netSilenceTimeout conn => Sys2Proof.Machine.execNetSilenceTimeout conn s
  | .netPortDown port => Sys2Proof.Machine.execNetPortDown port s
  | .cxlCacheSnoop addr => Sys2Proof.Machine.execCxlCacheSnoop addr s
  | .hostCxlMemRead pa len iface => Sys2Proof.Machine.execHostCxlMemRead pa len iface s
  | .hostCxlMemWrite pa bytes iface => Sys2Proof.Machine.execHostCxlMemWrite pa bytes iface s
  | .spawnPortRecord port offset bytes => Sys2Proof.Machine.execSpawnPortRecord port offset bytes s
  | .cqbaseWrite value => Sys2Proof.Machine.execCqbaseWrite value s
  | .cplbaseWrite value => Sys2Proof.Machine.execCplbaseWrite value s
  | .cqtail value => Sys2Proof.Machine.execCqtail value s
  | .cplheadWrite value => Sys2Proof.Machine.execCplheadWrite value s
  | .ignoredRegisterWrite bar offset value => Sys2Proof.Machine.execIgnoredRegisterWrite bar offset value s
  | .ctxnew => Sys2Proof.Machine.execCtxnew s
  | .ctxend => Sys2Proof.Machine.execCtxend s
  | .coreset => Sys2Proof.Machine.execCoreset s
  | .wayset => Sys2Proof.Machine.execWayset s
  | .lqbind => Sys2Proof.Machine.execLqbind s
  | .shqreg => Sys2Proof.Machine.execShqreg s
  | .fltqreg => Sys2Proof.Machine.execFltqreg s
  | .errqreg => Sys2Proof.Machine.execErrqreg s
  | .preempt => Sys2Proof.Machine.execPreempt s
  | .resume => Sys2Proof.Machine.execResume s
  | .winreset => Sys2Proof.Machine.execWinreset s
  | .scrubset => Sys2Proof.Machine.execScrubset s
  | .fabset => Sys2Proof.Machine.execFabset s
  | .netconn => Sys2Proof.Machine.execNetconn s
  | .ringreg => Sys2Proof.Machine.execRingreg s
  | .worldnew failedDraws => Sys2Proof.Machine.execWorldnew failedDraws s
  | .worldfree => Sys2Proof.Machine.execWorldfree s
  | .modeset => Sys2Proof.Machine.execModeset s
  | .modesetReset train => Sys2Proof.Machine.execModesetReset train s
  | .logread => Sys2Proof.Machine.execLogread s
  | .reservedOpc => Sys2Proof.Machine.execReservedOpc s
  | .boot train => Sys2Proof.Machine.execBoot train s
  | .clockStep temp power => Sys2Proof.Machine.execClockStep temp power s
  | .thermalShutdown sensor temp => Sys2Proof.Machine.execThermalShutdown sensor temp s
  | .meterChainExtend => Sys2Proof.Machine.execMeterChainExtend s
  | .measurements block => Sys2Proof.Machine.execMeasurements block s
  | .lockInterfaceRequest world requester => Sys2Proof.Machine.execLockInterfaceRequest world requester s
  | .pldmMonitorRead => Sys2Proof.Machine.execPldmMonitorRead s
  | .powerCapSet watts => Sys2Proof.Machine.execPowerCapSet watts s
  | .firmwareUpdateImageWrite image => Sys2Proof.Machine.execFirmwareUpdateImageWrite image s
  | .pldmLogRead count => Sys2Proof.Machine.execPldmLogRead count s
  | .tdispInterfaceRequest world req => Sys2Proof.Machine.execTdispInterfaceRequest world req s

end Sys2Proof.Machine
end

