-- ==== Sys2Proof/Machine/Sched.lean ====
section
/-! DEFINITION. What a step does next: the head of the agenda, the instruction that a port issues from its run buffer
(14_execution_and_scheduling.md R349, R350, R352), and the placing of one instruction for the next step. -/

namespace Sys2Proof.Machine

open Sys2Proof.Bits

/-- What one step comes to. -/
inductive Action
  /-- a port issues an instruction of its run -/
  | instr (core port : Nat) (i : Instr)
  /-- the run check fails in place of the next instruction (R352) -/
  | tooLong (core port : Nat)
  /-- a port's run reaches a word that could not be fetched: its cause and its address (R350) -/
  | badFetch (core port : Nat) (cause : BitVec 8) (addr : BitVec 64)
  /-- a step of an engine, a link, the scheduler or the host -/
  | event (i : Instr)
  /-- reference cycles pass -/
  | pass (n : Nat)
deriving DecidableEq, Repr

/-- What a port does when it goes on: the next instruction of its run, or, with no run, its turn (R349). -/
def State.portAction (s : State) (c p : Nat) : Action :=
  match ((s.core c).port p).run with
  | none => .event (.barrelTurn c p)
  | some r =>
    if Config.runLimit ≤ r.count then .tooLong c p
    else
      match (s.group? (slotKey c p r.slot)).bind fun g => g.wordsAt r.start r.pc with
      | none => .event (.runFetch c p r.slot)
      | some (ws, fail) =>
        match decode ws with
        | .ok (i, _) => .instr c p i
        | .error _ =>
          match fail with
          | some e => .badFetch c p e (r.pc + BitVec.ofNat 64 (4 * ws.length))
          | none => .event (.runFetch c p r.slot)

/-- What happens when the agenda is empty: a run in progress goes on; otherwise a cycle passes. -/
def State.idle (s : State) : Action :=
  match (List.range (Config.cores * Config.ports)).find? fun k => ((s.core (k / 4)).port (k % 4)).run.isSome with
  | some k => s.portAction (k / 4) (k % 4)
  | none => .pass 1

/-- What the next step does, and the state without the agenda entry it takes. -/
def State.pick (s : State) : Action × State :=
  match s.agenda with
  | [] => (s.idle, s)
  | .issue c p :: r => (s.portAction c p, { s with agenda := r })
  | .event i :: r => (.event i, { s with agenda := r })
  | .elapse n :: r => (.pass n, { s with agenda := r })

/-- The run check takes the whole sub-group (R352). -/
def State.stopRun (s : State) : Out :=
  match s.iss? with
  | none => .fault .noIssuingRun
  | some i => .next (decodeTrap s i 1 false cRunTooLong)

/-- TINFO of a fetch's cause: that of R287 for a fetch from a peer. -/
def State.fetchInfo (s : State) (i : Iss) (cause : BitVec 8) (addr : BitVec 64) : BitVec 64 :=
  if cause = cRemoteLoadFailed then
    match s.resolve i.c (privileged i.t i.g) .exec addr.toNat 4 with
    | .ok l =>
      match s.reach (s.teamWorld i.t) i.priv .exec l 4 with
      | .refused c => remoteInfo (peerByte l.space) c.toNat
      | _ => remoteInfo (peerByte l.space) (s.limitCode (l.space - 2))
    | .error _ => 0
  else 0

/-- The lanes of the sub-group take the cause of a fetch at the word it failed at, with TPC that word's PC (R350, R457); in handler mode
a replayable cause leaves them with the instruction's PC as their restart PC (R376), and
the buffer gives the failed run up. -/
def State.stopFetch (s : State) (cause : BitVec 8) (addr : BitVec 64) : Out :=
  match s.iss? with
  | none => .fault .noIssuingRun
  | some i =>
    let e := if replayable cause then
        { i.eff with replays := (lanesOf i.sub).map fun l => { lane := l, cause := cause, va := addr, access := 2 } }
      else { i.eff with traps := trapSet i.sub cause addr (s.fetchInfo i cause addr) 2 }
    let s1 := s.updGroup i fun g => { g with buf := g.buf.filter fun r => r.fail.isNone }
    let at_ := if replayable cause ∧ !i.t.service ∧ i.g.tmask ≠ 0 then i.pci else addr
    .next (finish s1 { i with pci := at_ } 1 false e)

/-! ## Placing one instruction for the next step -/

/-- The context, team and group that run a placed instruction: context 0, group 0 of team 0 on core 0, port 0, slot 0,
with a budget of 48 blocks and every lane READY at the instruction. -/
def fetchPc : BitVec 64 := 0x1000

def fetchCtx : Context :=
  { num := 0, asid := 1, desc := 0, proot := 0, wroot := 0, rotBase := 0, rotLog2 := 4, world := 1, priv := false, lq := 0,
    hpc := 0, saveBase := 0, saveSz := 0, saveN := 0, t1 := 0, t2 := 0, slice := 0, wtPool := 0, wtPoolSz := 0, realms := [],
    cursor := 0, wtNext := 0, errq := none, errLost := false, rings := [], stage := .none, deadline := 0, stopped := none,
    waiting := false, resumed := 0, recs := [], savedTeams := [] }

def fetchTeam : Team :=
  { tid := 0, core := 0, ctx := 0, record := [], seq := 0, index := 0, base := 0, scr := 128, service := false,
    firmware := false, ngroups := 1, groups := [(0, 0)], ring := List.replicate 8 .free, saveRec := none, saveSent := false, savedGrp := [] }

def fetchGroup (words : List Word) : Group :=
  { gid := 0, team := 0, budget := 48, budgetNext := none, v := [], g := [], k := [], j := [], cv := [], fmode := 0,
    fmodeNext := none, fflags := 0, csrd := [], tmask := 0, trapv := 0, mon := Monitor.off, actSel := none, plateErr := none,
    halted := false, haltReq := false, saveReq := none, errReq := false,
    buf := [{ start := fetchPc, words := words, fail := none }], awaits := [],
    lanes := List.replicate 32 { Lane.fresh with pc := fetchPc, tregion := fetchPc } }

def fetchRun : Run :=
  { slot := 0, sub := BitVec.allOnes 32, start := fetchPc, pc := fetchPc, count := 0, latch := [], filled := 0, pfx := none }

/-- Place words as the next instruction of the run of core 0, port 0. -/
def State.placeWords (s : State) (ws : List Word) : State :=
  let s1 := { s with
    ctxs := fetchCtx :: s.ctxs.filter (fun c => c.num != 0),
    teams := fetchTeam :: s.teams.filter (fun t => t.tid != 0),
    groups := (0, fetchGroup ws) :: s.groups.filter (fun x => x.1 != 0),
    agenda := [.issue 0 0] }
  s1.setPort 0 0 { (s1.core 0).port 0 with run := some fetchRun }

end Sys2Proof.Machine
end

