-- ==== Sys2Proof/Machine/Step.lean ====
section
/-! DEFINITION. One step of the machine. -/

namespace Sys2Proof.Machine

/-- One step: what `State.pick` finds next, run. The counter of free values advances with every step. -/
def step (s : State) : Host.Outcome State Fault Refusal :=
  let (a, s1) := s.pick
  let s2 := { s1 with tick := s1.tick + 1 }
  match a with
  | .instr c p i => exec i (({ s2 with turn := some (c, p) } : State).readSettle i)
  | .tooLong c p => State.stopRun { s2 with turn := some (c, p) }
  | .badFetch c p cause addr => State.stopFetch { s2 with turn := some (c, p) } cause addr
  | .event i => exec i { s2 with turn := none }
  | .pass n => .next { s2.elapse n with turn := none }

/-- The state with an instruction placed where the next step issues it: bit 0 of `w` is the least significant bit of the
first word, bits at or above `nbits` are 0. -/
def State.withFetchWord (s : State) (nbits w : Nat) : State := s.placeWords (tableWords (w % 2 ^ nbits))

end Sys2Proof.Machine
end

