-- ==== Sys2Proof/Safety.lean ====
section
/-! DEFINITION. The terms that statements about the KX880 are made in: when a step goes on, when an instruction issues with
its checks passed, what it means that it has completed, and what it then leaves as it was. -/

namespace Sys2Proof

open Sys2Proof.Machine Sys2Proof.Bits

/-- A step from a state goes on. -/
def Goes (s : State) : Prop := ∃ t, step s = .next t

/-- A run of `n` steps from a state goes on throughout. -/
def GoesFor : Nat → State → Prop
  | 0, _ => True
  | n + 1, s => ∃ t, step s = .next t ∧ GoesFor n t

/-- The port whose turn it is makes the issue `i` of an instruction of prefix class `k` that reads the sources `srcs`: the
run has room (R352), a prefix carries only fields that the class accepts and the word after it begins no run (R32, R353), every source is encoded and within the budget
(R15, R19), every latch that is read is filled (R29 step 6), and some lane has not exited (R344). -/
structure Issues (s : State) (i : Iss) (k : PfxClass) (srcs : List Src) : Prop where
  iss  : s.iss? = some i
  room : i.run.count < Config.runLimit
  pfx  : i.pfxRefused k = false
  src  : ∀ x ∈ srcs, x.ok i.g.budget = true ∧ ∀ n ∈ x.latchNo, n ≤ i.run.filled
  live : ∃ l, l < 32 ∧ (i.g.lane l).st ≠ .exited

/-- The sources of a typed instruction carry no immediate under a type that takes none (R22). -/
def ImmFit (ty : Nat) (srcs : List Src) : Prop := ∀ x ∈ srcs, x.isImm = true → immOk ty = true

/-- One byte of a space, as an access reads it. -/
def byteAt (s : State) (space a : Nat) : List Byte := s.readBytes space a 1

/-- The machine outside the issuing group, its port's run and the worlds' meters is as it was: memory of every space by
bytes, scratchpads, Plates, activation banks, engine and search queues, every other group, teams, contexts, launch queues,
postings, requests to peers, conversations, the clock. -/
structure Untouched (s t : State) (key : Nat) : Prop where
  bytes  : ∀ space a, byteAt t space a = byteAt s space a
  cores  : ∀ c, (t.core c).spad = (s.core c).spad ∧ (t.core c).plate = (s.core c).plate ∧ (t.core c).bank0 = (s.core c).bank0 ∧
    (t.core c).bank1 = (s.core c).bank1 ∧ (t.core c).queue = (s.core c).queue ∧ (t.core c).search = (s.core c).search ∧
    (t.core c).net = (s.core c).net ∧ (t.core c).writers = (s.core c).writers
  groups : ∀ k, k ≠ key → t.group? k = s.group? k
  teams  : t.teams = s.teams
  ctxs   : t.ctxs = s.ctxs
  queues : t.queues = s.queues
  posts  : t.posts = s.posts
  remotes : t.remotes = s.remotes
  convs  : t.convs = s.convs
  cycle  : t.cycle = s.cycle

/-- The registers of a group that an instruction on vector, uniform or mask registers leaves alone whatever it is (Tables
6.1 and 6.2): identity, budget, rejoin masks, role registers, TMASK, TRAPV, the monitor, the activation selection, a pending
Plate error, and the pending halts, saves and errors. -/
structure SpecialsKept (g g' : Group) : Prop where
  gid    : g'.gid = g.gid
  team   : g'.team = g.team
  budget : g'.budget = g.budget
  next   : g'.budgetNext = g.budgetNext
  cv     : g'.cv = g.cv
  tmask  : g'.tmask = g.tmask
  trapv  : g'.trapv = g.trapv
  mon    : g'.mon = g.mon
  actSel : g'.actSel = g.actSel
  plate  : g'.plateErr = g.plateErr
  halted : g'.halted = g.halted
  halt   : g'.haltReq = g.haltReq
  save   : g'.saveReq = g.saveReq
  err    : g'.errReq = g.errReq

/-- An instruction of `n` words has completed in every lane of the sub-group: its group stands at its slot as `g`, the lanes
of the sub-group are at the next instruction in the state they had, no lane's trap registers have changed, every other lane
is as it was, the special registers are kept and the rest of the machine is untouched. -/
structure Completed (s t : State) (i : Iss) (n : Nat) (g : Group) : Prop where
  group  : t.group? i.key = some g
  went   : ∀ l, inSet i.sub l = true → (g.lane l).pc = i.run.pc + BitVec.ofNat 64 (4 * n) ∧ (g.lane l).st = (i.g.lane l).st
  traps  : ∀ l, l < 32 → (g.lane l).tcause = (i.g.lane l).tcause ∧ (g.lane l).tpc = (i.g.lane l).tpc ∧
    (g.lane l).taddr = (i.g.lane l).taddr ∧ (g.lane l).tinfo = (i.g.lane l).tinfo ∧ (g.lane l).tregion = (i.g.lane l).tregion
  others : ∀ l, l < 32 → inSet i.sub l = false → g.lane l = i.g.lane l
  kept   : SpecialsKept i.g g
  rest   : Untouched s t i.key

/-- The vector registers are as they were, but for register `d` in the lanes of `m`. -/
def VectorsKept (g g' : Group) (d : Nat) (m : LaneSet) : Prop :=
  ∀ r l, l < 32 → (r ≠ d ∨ inSet m l = false) → g'.vget r l = g.vget r l

/-- The lanes in which an instruction under a guard and NW writes its vector destination (R16, R145). -/
def written (i : Iss) (guard : Nat) (nw : Bool) : LaneSet := if nw then 0 else i.act guard

/-- Sub-element `k` of source `n` of a list in lane `l`, under a type (R180). -/
def srcElem (i : Iss) (srcs : List Src) (ty n l k : Nat) : Nat := sube (tyW ty) k (i.read (srcs.getD n .zero) l ty)

/-- A vector instruction has completed with destination `d` under a guard and NW: it has completed, no other vector register
and no other lane of `d` has changed, and the uniform, mask and rejoin registers, FMODE and the awaited results are as they
were. What `d` and FFLAGS hold is said beside it. -/
structure VecDone (s t : State) (i : Iss) (n : Nat) (g : Group) (d guard : Nat) (nw : Bool) : Prop where
  completed : Completed s t i n g
  vectors   : VectorsKept i.g g d (written i guard nw)
  uniform   : g.g = i.g.g
  masks     : g.k = i.g.k
  rejoin    : g.j = i.g.j
  fmode     : g.fmode = i.g.fmode
  fmodeNext : g.fmodeNext = i.g.fmodeNext
  awaits    : g.awaits = i.g.awaits

/-- An instruction that writes no vector register has completed; what the uniform and mask registers hold is said beside it. -/
structure ScalarDone (s t : State) (i : Iss) (n : Nat) (g : Group) : Prop where
  completed : Completed s t i n g
  vectors   : g.v = i.g.v
  rejoin    : g.j = i.g.j
  fmode     : g.fmode = i.g.fmode
  fmodeNext : g.fmodeNext = i.g.fmodeNext
  awaits    : g.awaits = i.g.awaits

/-- FFLAGS after an instruction under modes `md` whose elements, of `p` in each lane of `m`, raise `fl`: they accumulate, unless NF is 1
(R169). -/
def FlagsRaised (g g' : Group) (md : Modes) (m : LaneSet) (p : Nat) (fl : Nat → Nat → Flags) : Prop :=
  ∀ n, g'.fflags.getLsbD n = true ↔ g.fflags.getLsbD n = true ∨
    (md.nf = false ∧ ∃ l k, inSet m l = true ∧ k < p ∧ (fl l k).getLsbD n = true)

/-- The run of an issue goes on after an instruction of `n` words (R351): RB is 0, its sub-group is not empty, and no other READY lane
stands at the next instruction. -/
def RunOn (i : Iss) (rb : Bool) (n : Nat) : Prop :=
  rb = false ∧ i.run.sub ≠ 0 ∧
    ∀ l, l < 32 → inSet i.sub l = false → (i.g.lane l).st = .ready → (i.g.lane l).pc ≠ i.run.pc + BitVec.ofNat 64 (4 * n)

/-- The run after an instruction of `n` words that shifts the latches once (R145): L1 holds `x` in the lanes of `m` and 0 in the others,
L2 to L4 hold what L1 to L3 held, and at most four are filled. -/
structure Shifted (i : Iss) (n : Nat) (m : LaneSet) (x : Nat → BitVec 64) (r : Run) : Prop where
  filled : r.filled = min (i.run.filled + 1) 4
  goes   : r.sub = i.run.sub ∧ r.slot = i.run.slot ∧ r.pc = i.run.pc + BitVec.ofNat 64 (4 * n) ∧ r.count = i.run.count + 1 ∧ r.pfx = none
  first  : ∀ l, inSet m l = true → sget r.latch l = x l
  idle   : ∀ l, l < 32 → inSet m l = false → sget r.latch l = 0
  older  : ∀ k l, k < 3 → l < 32 → sget r.latch (32 * (k + 1) + l) = sget i.run.latch (32 * k + l)

/-- An instruction of `n` words shifts what it gives v_d into the latches, under NW = 0 and NW = 1 alike (R145). -/
def ShiftsResult (s : State) (i : Iss) (ins : Bool → Instr) (n d : Nat) (m : LaneSet) : Prop :=
  ∀ nw, ∃ t u g r, exec (ins nw) s = .next t ∧ exec (ins false) s = .next u ∧ u.group? i.key = some g ∧
    ((t.core i.core).port i.port).run = some r ∧ Shifted i n m (g.vget d) r

/-! ## Table 8.3 -/

/-- One row of Table 8.3: the instruction, how many of A, B, C it uses, whether TY 15 is accepted beside 0 to 7, whether SAT
is, and the exact result from the type and the sub-elements read unsigned. -/
structure IntMinor where
  ins   : Instr
  n     : Nat
  logic : Bool
  sat   : Bool
  val   : Nat → Nat → Nat → Nat → Int

/-- The rows of Table 8.3 that compute on sub-elements (VCMP and VSHF have their own rules). In shifts and rotations the
count is b mod w. -/
def intMinors (f : FmtM) : List IntMinor :=
  [ ⟨.vadd f, 2, false, true, fun ty a b _ => ival ty a + ival ty b⟩,
    ⟨.vsub f, 2, false, true, fun ty a b _ => ival ty a - ival ty b⟩,
    ⟨.vmul f, 2, false, true, fun ty a b _ => ival ty a * ival ty b⟩,
    ⟨.vmulh f, 2, false, false, fun ty a b _ => ival ty a * ival ty b / (2 ^ tyW ty : Nat)⟩,
    ⟨.vmad f, 3, false, true, fun ty a b c => ival ty a * ival ty b + ival ty c⟩,
    ⟨.vmin f, 2, false, false, fun ty a b _ => if ival ty a ≤ ival ty b then ival ty a else ival ty b⟩,
    ⟨.vmax f, 2, false, false, fun ty a b _ => if ival ty a ≤ ival ty b then ival ty b else ival ty a⟩,
    ⟨.vabs f, 1, false, true, fun ty a _ _ => if ival ty a < 0 then -ival ty a else ival ty a⟩,
    ⟨.vneg f, 1, false, true, fun ty a _ _ => -ival ty a⟩,
    ⟨.vand f, 2, true, false, fun _ a b _ => (a &&& b : Nat)⟩,
    ⟨.vor f, 2, true, false, fun _ a b _ => (a ||| b : Nat)⟩,
    ⟨.vxor f, 2, true, false, fun _ a b _ => (a ^^^ b : Nat)⟩,
    ⟨.vnot f, 1, true, false, fun ty a _ _ => (2 ^ tyW ty - 1 - a : Nat)⟩,
    ⟨.vshl f, 2, true, true, fun ty a b _ => ival ty a * (2 ^ (b % tyW ty) : Nat)⟩,
    ⟨.vshr f, 2, true, false, fun ty a b _ => (a / 2 ^ (b % tyW ty) : Nat)⟩,
    ⟨.vsar f, 2, true, false, fun ty a b _ => sval (tyW ty) a / (2 ^ (b % tyW ty) : Nat)⟩,
    ⟨.vrot f, 2, true, false, fun ty a b _ => (a * 2 ^ (b % tyW ty) % 2 ^ tyW ty + a / 2 ^ (tyW ty - b % tyW ty) : Nat)⟩,
    ⟨.vclz f, 1, true, false, fun ty a _ _ => (if a = 0 then tyW ty else tyW ty - 1 - a.log2 : Nat)⟩,
    ⟨.vpopc f, 1, true, false, fun ty a _ _ => (((List.range (tyW ty)).filter a.testBit).length : Nat)⟩,
    ⟨.vsel f, 3, true, false, fun _ a b c => (if c ≠ 0 then a else b : Nat)⟩ ]

/-- `Fit` of R184: an exact integer brought to the type, by the nearer limit under SAT, else by wrapping. -/
def fitted (sat : Bool) (ty : Nat) (x : Int) : Nat :=
  if imin ty ≤ x ∧ x ≤ imax ty then wrap (tyW ty) x
  else if sat then wrap (tyW ty) (if x < imin ty then imin ty else imax ty) else wrap (tyW ty) x

/-- The sources of an instruction of format M, in order. -/
def srcsM (f : FmtM) (n : Nat) : List Src := [src10 f.a, src10 f.b, src10 f.c].take n

/-! ## What each family leaves, and the tables its statements run over -/

/-- One cross-lane move: the instruction, its per-lane sources, its uniform B if it has one, and the element of A, by lane and
sub-element, that each result element takes. -/
structure CrossMove where
  ins  : Instr
  srcs : List Src
  uni  : Option Src
  from_ : Nat → Nat → Nat × Nat

/-- A uniform B modulo a count, read as a signed 64-bit integer (R206). -/
def crossCount (i : Iss) (f : FmtM) (n : Nat) : Nat := ((i.uni (src10 f.b)).toInt % (n : Int)).toNat

/-- The moves of Table 8.11; element e of a register read in all lanes is sub-element e ÷ 32 of lane e mod 32 (R181). -/
def crossMoves (i : Iss) (f : FmtM) : List CrossMove :=
  let ty := f.ty.toNat
  let n := 32 * tyP ty
  let at_ (e : Nat) : Nat × Nat := (e % 32, e / 32)
  [ ⟨.xget f, srcsM f 2, none, fun l k => at_ (srcElem i (srcsM f 2) ty 1 l k % n)⟩,
    ⟨.xshfl f, srcsM f 2, none, fun l k => ((i.read (src10 f.b) l ty).toNat % 32, k)⟩,
    ⟨.xbfly f, srcsM f 1, some (src10 f.b), fun l k => (l ^^^ crossCount i f 32, k)⟩,
    ⟨.xrot f, srcsM f 1, some (src10 f.b), fun l k => at_ ((32 * k + l + n - crossCount i f n) % n)⟩,
    ⟨.xbcast f, srcsM f 1, some (src10 f.b), fun _ _ => at_ (crossCount i f n)⟩ ]

/-- Whether an integer condition of Table 8.4 holds. -/
def condHolds (cc : Nat) (a b : Int) : Prop :=
  match cc with
  | 0 => a = b
  | 1 => a ≠ b
  | 2 => a < b
  | 3 => a ≤ b
  | 4 => a > b
  | _ => a ≥ b

/-- The exact results of R189, before rounding: a + b, a − b, a × b, a × b + c and a × b − c, with the NaN, infinity and zero cases that
R189 and R165 give (`fadd`, `fmul` and `ffma` are exact). -/
def floatExact (f : FmtM) : List (Instr × Nat × (Modes → FVal → FVal → FVal → FVal × Flags)) :=
  [ (.fadd f, 2, fun md a b _ => fadd md.rdn a b),
    (.fsub f, 2, fun md a b _ => fadd md.rdn a b.neg),
    (.fmul f, 2, fun _ a b _ => fmul a b),
    (.ffma f, 3, fun md a b c => ffma md.rdn a b c),
    (.ffms f, 3, fun md a b c => ffma md.rdn a b c.neg) ]

/-- The functions of Table 8.7 on operands read under SUBN. -/
def specialFunctions (f : FmtM) : List (Instr × Nat × Bool × (FVal → FVal → SVal × Flags)) :=
  [ (.fdiv f, 2, false, divVal), (.fsqrt f, 1, false, fun a _ => sqrtVal a), (.frcp f, 1, true, fun a _ => divVal (.fin false 1 0) a),
    (.frsq f, 1, true, fun a _ => rsqVal a), (.fexp2 f, 1, true, fun a _ => exp2Val a), (.flog2 f, 1, true, fun a _ => log2Val a),
    (.fsin f, 1, true, fun a _ => sinVal a), (.fcos f, 1, true, fun a _ => cosVal a), (.ftanh f, 1, true, fun a _ => tanhVal a),
    (.fsigm f, 1, true, fun a _ => sigmVal a) ]

/-- One short form of Table 2.4: the instruction, how many sources it reads, the type it is read under, the prefix fields it accepts,
and the result and flags from the modes, the element's position and its operands. -/
structure ShortForm where
  ins : Instr
  n   : Nat
  ty  : Nat
  pfx : PfxClass
  val : Modes → Nat → Nat → Nat → Nat × Flags

/-- An exact integer under an optional SAT, with the flag R184 gives it. -/
def intResult (md : Modes) (ty : Nat) (x : Int) : Nat × Flags :=
  (fitted md.sat ty x, if md.sat && !(decide (imin ty ≤ x) && decide (x ≤ imax ty)) then 32 else 0)

/-- A floating result rounded once (R189). -/
def fltResult (md : Modes) (ty pos : Nat) (x : FVal × Flags) : Nat × Flags := rounded md.plain ty pos x

/-- The arithmetic short forms with the long form each executes as (R35): FMAX is the FMAX of `FloatSelections`. -/
def shortForms (f : FmtS) : List ShortForm :=
  let sum (ty : Nat) : Modes → Nat → Nat → Nat → Nat × Flags := fun md pos a b =>
    fltResult md ty pos (fadd md.rdn (fread md ty a) (fread md ty b))
  let product (ty : Nat) : Modes → Nat → Nat → Nat → Nat × Flags := fun md pos a b =>
    fltResult md ty pos (fmul (fread md ty a) (fread md ty b))
  [ ⟨.vaddS32Short f, 2, 2, .sat, fun md _ a b => intResult md 2 (ival 2 a + ival 2 b)⟩,
    ⟨.vsubS32Short f, 2, 2, .sat, fun md _ a b => intResult md 2 (ival 2 a - ival 2 b)⟩,
    ⟨.vandB64Short f, 2, 15, .none, fun _ _ a b => (a &&& b, 0)⟩,
    ⟨.vxorB64Short f, 2, 15, .none, fun _ _ a b => (a ^^^ b, 0)⟩,
    ⟨.vshlB64Short f, 2, 15, .none, fun _ _ a b => (a * 2 ^ (b % 64) % 2 ^ 64, 0)⟩,
    ⟨.vmovShort f, 1, 15, .none, fun _ _ a _ => (a, 0)⟩,
    ⟨.faddF32Short f, 2, 10, .float, sum 10⟩,
    ⟨.fsubF32Short f, 2, 10, .float, fun md pos a b =>
      fltResult md 10 pos (fadd md.rdn (fread md 10 a) (fread md 10 b).neg)⟩,
    ⟨.fmulF32Short f, 2, 10, .float, product 10⟩,
    ⟨.fmaxF32Short f, 2, 10, .float, fun md _ a b => fminmax md 10 true a b⟩,
    ⟨.faddF16Short f, 2, 8, .float, sum 8⟩,
    ⟨.fmulF16Short f, 2, 8, .float, product 8⟩,
    ⟨.faddBf16Short f, 2, 9, .float, sum 9⟩,
    ⟨.fmulBf16Short f, 2, 9, .float, product 9⟩ ]

/-- The sources of a short form. -/
def srcsS (f : FmtS) (n : Nat) : List Src := [src7 f.a, src7 f.b].take n

/-- Convert of Table 7.10, from a source type to a destination type. -/
def converted (md : Modes) (sty dty pos a : Nat) : Nat × Flags :=
  let v := ival sty a
  let clamp (n : Int) : Nat := wrap (tyW dty) (max (imin dty) (min (imax dty) n))
  if tyInt sty then
    if tyInt dty then intResult md dty v else roundTo md dty (.fin (decide (v < 0)) v.natAbs 0) pos
  else
    match fread md sty a with
    | .nan sig => if tyInt dty then (0, 1) else (fnan dty, if sig then 1 else 0)
    | .inf neg => if tyInt dty then (wrap (tyW dty) (if neg then imin dty else imax dty), 1) else roundTo md dty (.inf neg) pos
    | .fin neg m e =>
      if tyInt dty then
        let r := roundInt md.rm (ditherAt md pos) neg m e
        let n : Int := if neg then -(r.1 : Int) else r.1
        (clamp n, if n < imin dty ∨ imax dty < n then 1 else if r.2 then 16 else 0)
      else roundTo md dty (.fin neg m e) pos

/-- The GRP minors that compute (R153): how many uniform sources each reads, and its result modulo 2^64. -/
def groupMinors (f : FmtM) : List (Instr × Nat × (BitVec 64 → BitVec 64 → BitVec 64 → BitVec 64)) :=
  [ (.gmov f, 1, fun a _ _ => a), (.gadd f, 2, fun a b _ => a + b), (.gsub f, 2, fun a b _ => a - b),
    (.gmul f, 2, fun a b _ => a * b), (.gand f, 2, fun a b _ => a &&& b), (.gor f, 2, fun a b _ => a ||| b),
    (.gxor f, 2, fun a b _ => a ^^^ b), (.gshl f, 2, fun a b _ => BitVec.ofNat 64 (a.toNat * 2 ^ (b.toNat % 64))),
    (.gshr f, 2, fun a b _ => BitVec.ofNat 64 (a.toNat / 2 ^ (b.toNat % 64))),
    (.gsar f, 2, fun a b _ => BitVec.ofInt 64 (a.toInt / (2 ^ (b.toNat % 64) : Nat))),
    (.gsel f, 3, fun a b c => if c ≠ 0 then a else b) ]

/-- An instruction has completed and has written, of the uniform and mask registers, only g_d, which holds `x`; FFLAGS too is as it was.
-/
structure UniformDone (s t : State) (i : Iss) (n : Nat) (g : Group) (d : Nat) (x : BitVec 64) : Prop where
  done   : ScalarDone s t i n g
  value  : g.gget d = x
  others : ∀ r, r ≠ d → g.gget r = i.g.gget r
  masks  : g.k = i.g.k
  flags  : g.fflags = i.g.fflags

/-- The MASK minors that write a mask register (R155). -/
def maskMinors (i : Iss) (f : FmtM) : List (Instr × Bool × LaneSet) :=
  let a := i.g.kget f.a.toNat
  let b := i.g.kget f.b.toNat
  [(.kand f, true, a &&& b), (.kor f, true, a ||| b), (.kxor f, true, a ^^^ b), (.knot f, false, ~~~ a), (.kmov f, false, a)]

/-- The lanes of a sub-group have gone to the PCs that a flow instruction gives them, the run has ended, and but for v_d of a CALL
nothing else has changed. -/
structure Flowed (s t : State) (i : Iss) (g : Group) (target : Nat → BitVec 64) : Prop where
  group  : t.group? i.key = some g
  went   : ∀ l, inSet i.sub l = true → (g.lane l).pc = target l ∧ (g.lane l).st = (i.g.lane l).st
  ended  : ((t.core i.core).port i.port).run = none
  traps  : ∀ l, l < 32 → (g.lane l).tcause = (i.g.lane l).tcause ∧ (g.lane l).tpc = (i.g.lane l).tpc ∧
    (g.lane l).taddr = (i.g.lane l).taddr ∧ (g.lane l).tinfo = (i.g.lane l).tinfo ∧ (g.lane l).tregion = (i.g.lane l).tregion
  others : ∀ l, l < 32 → inSet i.sub l = false → g.lane l = i.g.lane l
  kept   : SpecialsKept i.g g
  regs   : g.g = i.g.g ∧ g.k = i.g.k ∧ g.j = i.g.j ∧ g.fmode = i.g.fmode ∧ g.fflags = i.g.fflags ∧ g.awaits = i.g.awaits
  rest   : Untouched s t i.key

/-- An instruction of `n` words has gone by: the lanes of its sub-group stand at the next instruction in the state they had, and TCAUSE,
TPC, TADDR and TINFO of every lane, every lane outside the sub-group, and the special registers are as they were. It may have ended the
idempotent region and changed registers or memory, as is said beside it. -/
structure Moved (s t : State) (i : Iss) (n : Nat) (g : Group) : Prop where
  group  : t.group? i.key = some g
  went   : ∀ l, inSet i.sub l = true → (g.lane l).pc = i.run.pc + BitVec.ofNat 64 (4 * n) ∧ (g.lane l).st = (i.g.lane l).st
  causes : ∀ l, l < 32 → (g.lane l).tcause = (i.g.lane l).tcause ∧ (g.lane l).tpc = (i.g.lane l).tpc ∧
    (g.lane l).taddr = (i.g.lane l).taddr ∧ (g.lane l).tinfo = (i.g.lane l).tinfo
  others : ∀ l, l < 32 → inSet i.sub l = false → g.lane l = i.g.lane l
  kept   : SpecialsKept i.g g

/-- The registers of Table 6.1 that a program computes in are as they were. -/
structure RegistersKept (g g' : Group) : Prop where
  vectors : g'.v = g.v
  uniform : g'.g = g.g
  masks   : g'.k = g.k
  rejoin  : g'.j = g.j
  fmode   : g'.fmode = g.fmode
  fflags  : g'.fflags = g.fflags

/-- No lane of any group waits at a team or role barrier. -/
def NoBarrierWait (s : State) : Prop :=
  ∀ k g, s.group? k = some g → ∀ l w, l < 32 → (g.lane l).st = .parked w → w.isTbar = false ∧ w.isRbar = false

/-- How lanes parked on rejoin registers stand after the registers have become `j`: on a register that is empty they are READY past
their JWAIT (R364). -/
def Rejoined (g g' : Group) (j : Nat → LaneSet) (sub : LaneSet) : Prop :=
  ∀ l, l < 32 → inSet sub l = false →
    (∀ d, (g.lane l).st = .parked (.rejoin d) → j d = 0 → (g'.lane l).st = .ready ∧ (g'.lane l).pc = (g.lane l).pc + 8) ∧
    ((∀ d, (g.lane l).st = .parked (.rejoin d) → j d ≠ 0) → g'.lane l = g.lane l)

/-- The machine outside the issuing group and the caches, TLBs, meters and requests to peers is as it was. -/
structure RestKept (s t : State) (key : Nat) : Prop where
  bytes  : ∀ space a, byteAt t space a = byteAt s space a
  cores  : ∀ c, (t.core c).spad = (s.core c).spad ∧ (t.core c).plate = (s.core c).plate ∧ (t.core c).bank0 = (s.core c).bank0 ∧
    (t.core c).bank1 = (s.core c).bank1 ∧ (t.core c).queue = (s.core c).queue ∧ (t.core c).search = (s.core c).search ∧
    (t.core c).net = (s.core c).net ∧ (t.core c).writers = (s.core c).writers
  groups : ∀ k, k ≠ key → t.group? k = s.group? k
  teams  : t.teams = s.teams
  ctxs   : t.ctxs = s.ctxs
  queues : t.queues = s.queues
  posts  : t.posts = s.posts
  convs  : t.convs = s.convs
  cycle  : t.cycle = s.cycle

/-- One lane's check passes: it lands where `x` says, and neither traps nor replays nor waits. -/
structure Passes (c : Chk) (x : LaneLoc) : Prop where
  ok      : c.ok = [x]
  traps   : c.traps = []
  replays : c.replays = []
  waits   : c.waits = []

/-- No lane of an access traps, replays or waits: every lane of `m` passes the checks of Table 4.11 and lands at `loc`. -/
def AllPass (s : State) (i : Iss) (acc : Acc) (code align n : Nat) (m : LaneSet) (va : Nat → Nat) (loc : Nat → Loc) : Prop :=
  ∀ l, inSet m l = true → Passes (s.checkLane i acc code align n l (va l)) { lane := l, va := va l, loc := loc l }

/-- The lane under which a check made once for the sub-group stands: its lowest. -/
def lowestLane (i : Iss) : Nat := ((lanesOf i.sub).head?).getD 0

/-- No promotion holds an access back: it carries no PROMO, or for each of its lines no other core is recorded, or that core has
answered, or has nothing left to answer for (R275). -/
def NoPromotion (s : State) (i : Iss) (promo : Bool) (m : LaneSet) (loc : Nat → Loc) : Prop :=
  promo = true → ∀ l, inSet m l = true → ∀ tgt, s.promoTo (s.fabNum.getD 0) i.core (loc l).space (loc l).pa = some tgt →
    s.promoOpen tgt = false ∨ s.promoted i l tgt = true

/-- The registers `d` to `d + n − 1` have taken `x k l` in the lanes of `m`, no other vector register or lane has changed, and the other
registers are as they were. -/
structure VectorsLoaded (g g' : Group) (d n : Nat) (m : LaneSet) (x : Nat → Nat → BitVec 64) : Prop where
  value   : ∀ k l, k < n → inSet m l = true → g'.vget (d + k) l = x k l
  others  : ∀ r l, l < 32 → (r < d ∨ d + n ≤ r ∨ inSet m l = false) → g'.vget r l = g.vget r l
  uniform : g'.g = g.g
  masks   : g'.k = g.k
  rejoin  : g'.j = g.j
  fmode   : g'.fmode = g.fmode
  fflags  : g'.fflags = g.fflags

/-- Element `k` of `w` bytes among loaded bytes, extended as its type says (R100). -/
def element_ (ty w k : Nat) (bs : List Byte) : BitVec 64 := extend ty w (ofBytes ((bs.drop (k * w)).take w))

/-- What an instruction that writes memory leaves of its group: READY lanes of the sub-group stand at the next instruction, the
exception registers of every lane, the budget, the role registers and TMASK, TRAPV are as they were. (A write can wake lanes that wait
on its bytes.) -/
structure Stored (s t : State) (i : Iss) (n : Nat) (g : Group) : Prop where
  group  : t.group? i.key = some g
  went   : ∀ l, inSet i.sub l = true → (i.g.lane l).st = .ready →
    (g.lane l).pc = i.run.pc + BitVec.ofNat 64 (4 * n) ∧ (g.lane l).st = .ready
  causes : ∀ l, l < 32 → (g.lane l).tcause = (i.g.lane l).tcause ∧ (g.lane l).tpc = (i.g.lane l).tpc ∧
    (g.lane l).taddr = (i.g.lane l).taddr ∧ (g.lane l).tinfo = (i.g.lane l).tinfo
  same   : g.gid = i.g.gid ∧ g.budget = i.g.budget ∧ g.budgetNext = i.g.budgetNext ∧ g.cv = i.g.cv ∧ g.tmask = i.g.tmask ∧
    g.trapv = i.g.trapv ∧ g.actSel = i.g.actSel
  cores  : ∀ c, (t.core c).plate = (s.core c).plate ∧ (t.core c).queue = (s.core c).queue ∧ (t.core c).writers = (s.core c).writers
  teams  : t.teams = s.teams
  ctxs   : t.ctxs = s.ctxs

/-- No page that an instruction translates waits for a walker (R81). -/
def Walked (s : State) (i : Iss) (vas : List Nat) : Prop := s.walksWait i.c vas = false

/-- A lane whose access meets a replayable cause (R42, R376): the lane goes REPLAYING, to restart at its TREGION, or in handler mode at
the instruction; its vector registers and TREGION are as they were, and a posting of its group names the lane, the cause, the access and
its page. In service mode it takes a precise trap instead. -/
def ReplayTaken (s t : State) (i : Iss) (g : Group) (l : Nat) (cause : BitVec 8) (va : Nat) (code : Nat) : Prop :=
  (∀ r, g.vget r l = i.g.vget r l) ∧ (g.lane l).tregion = (i.g.lane l).tregion ∧
  (i.t.service = true → (g.lane l).st = .trapped (!toHandler i.g l) ∧ (g.lane l).tcause = cause ∧ (g.lane l).tpc = i.pci ∧
    (g.lane l).taddr = BitVec.ofNat 64 va) ∧
  (i.t.service = false → (g.lane l).st = .replaying ∧ (g.lane l).pc = (if i.g.tmask = 0 then (i.g.lane l).tregion else i.pci) ∧
    ∃ p ∈ t.posts, inSet p.lanes l = true ∧ p.cause = cause ∧ p.access = code ∧ p.va.toNat / 65536 = va % 2 ^ 64 / 65536 ∧ p.gid = i.g.gid ∧
      p.ctx = i.t.ctx ∧ p.world = s.teamWorld i.t ∧ p.priv = decide (i.g.tmask ≠ 0))

/-- An address may change beside the bytes stored only where it holds the bit of a stored page in the cleared bitmap of its space (R94).
-/
def NotCleared (space a : Nat) (m : LaneSet) (loc : Nat → Loc) : Prop :=
  ∀ l, inSet m l = true → (loc l).space = space → space ≠ 1 → a ≠ Config.clearedBase + potIndex (loc l).pa / 8

/-- The atomics of Table 4.12: the types each accepts, what it does, and whether it takes C. -/
def atomics (f : FmtW) : List (Instr × List Nat × AtomOp × Bool) :=
  let ty := f.m.ty.toNat
  [ (.aadd f, [2, 3, 6, 7], .add, false), (.amin f, [2, 3, 6, 7], if ty ≤ 3 then .minS else .minN, false),
    (.amax f, [2, 3, 6, 7], if ty ≤ 3 then .maxS else .maxN, false), (.aand f, [6, 7, 15], .and, false),
    (.aor f, [6, 7, 15], .or, false), (.axor f, [6, 7, 15], .xor, false), (.axch f, [6, 7, 10, 11, 15], .xch, false),
    (.acas f, [6, 7, 15], .cas, true), (.afadd f, [10, 11], .fadd, false),
    (.ainc f, [6, 7], if f.aux.getLsbD 0 then .incWrap else .incStop, false) ]

/-- What a lane of an atomic leaves at its location when it finds `old` there (Table 4.12): the sum, minimum, maximum, bitwise result,
B, or C where B was found; the rounded floating sum (R105); the count. -/
def atomResult (op : AtomOp) (ty w old b c : Nat) : Nat :=
  match op with
  | .add => (old + b) % 2 ^ (8 * w)
  | .minS => if sval (8 * w) b < sval (8 * w) old then b else old
  | .minN => if b < old then b else old
  | .maxS => if sval (8 * w) old < sval (8 * w) b then b else old
  | .maxN => if old < b then b else old
  | .and => old &&& b
  | .or => old ||| b
  | .xor => old ^^^ b
  | .xch => b
  | .cas => if old = b then c else old
  | .fadd => (rounded Modes.exactRne ty 0 (fadd false (fval ty old) (fval ty b))).1
  | .incStop => if old < b then old + 1 else old
  | .incWrap => if old < b then old + 1 else 0

/-- Nothing has changed but what reading memory costs: the LLC, the worlds' meters, the NoC's counters, the pool of free choices and the
sectors that a read corrects (R88, R91, R92, R410). -/
def CostsOnly (s t : State) : Prop :=
  t = { s with llc := t.llc, worlds := t.worlds, noc := t.noc, tick := t.tick, eccSoft := t.eccSoft }

/-- A name swizzles to a pointer with nothing to be inserted: it is a plain address, or its object is resident, and only the entries of
the object table that the search reads cost anything (R66, R48, R54). -/
def Resident (s : State) (ctx name : Nat) (p : BitVec 64) : Prop :=
  ∀ u : State, u.mem = s.mem → u.ctxs = s.ctxs → u.fabNum = s.fabNum → ∃ t, u.swizzle ctx name = (t, .ok p) ∧ CostsOnly u t

/-- The effect of PHOLD or PDROP on memory, lane by lane in ascending order (R72): the 16-bit HOLD field of the ROT entry of each lane's
object is raised by one, or lowered unless it is zero; a PHOLD needs a LIVE object and a count below 65,535. -/
def HoldsCounted (i : Iss) (up : Bool) (p : Nat → BitVec 64) : List Nat → State → State → Prop
  | [], s, u => u = s
  | l :: r, s, u => inWindow (p l).toNat = true ∧ ∃ e, s.rangeOf i.c (p l).toNat = .ok (some e) ∧
      (up = true → e.st = 1 ∧ e.hold < 0xFFFF) ∧
      HoldsCounted i up p r
        (if up then s.devWrite i.c.world (i.c.rotBase + 32 * e.idx + 12) (toBytes 2 (e.hold + 1))
         else if e.hold = 0 then s else s.devWrite i.c.world (i.c.rotBase + 32 * e.idx + 12) (toBytes 2 (e.hold - 1))) u

/-- The barrier operand of an ASYNC instruction names the barrier at `loc`: a 16-byte aligned offset below the team's ring, or with DEV
a device address at which an atomic of 16 bytes passes its checks (R132, R133). -/
def BarrierAt (s : State) (i : Iss) (f : FmtW) (loc : BarLoc) : Prop :=
  let ba := barAddr i (src10 f.m.a)
  if devOf f then ∃ x : Loc, loc = .dev x.space x.pa ∧
    Passes (s.checkLane i .atomic 3 16 16 (lowestLane i) ba) { lane := lowestLane i, va := ba, loc := x }
  else loc = .spad i.core (i.t.base + ba) ∧ ba % 16 = 0 ∧ ba + 16 ≤ i.t.ringStart

/-- No byte but the sixteen of a barrier has changed, in any scratchpad or space (but for the bit of its page in the cleared bitmap,
R94). -/
def OnlyBarrier (s t : State) (loc : BarLoc) : Prop :=
  match loc with
  | .spad c at_ => (∀ space a, byteAt t space a = byteAt s space a) ∧
      ∀ c' a, (c' ≠ c ∨ a < at_ ∨ at_ + 16 ≤ a) → sget (t.core c').spad a = sget (s.core c').spad a
  | .dev sp pa => (∀ c', (t.core c').spad = (s.core c').spad) ∧
      ∀ space a, (space ≠ sp ∨ a < pa ∨ pa + 16 ≤ a) → (space = sp → space ≠ 1 → a ≠ Config.clearedBase + potIndex pa / 8) →
        byteAt t space a = byteAt s space a

/-- The operands with which an instruction of the PLATE major submits an operation, and the operation (Table 9.7, R218, R220, R224,
R225): offsets aligned and below the team's ring, reserved fields zero, rows within 0 to 63. -/
def plateForms (i : Iss) (f : FmtW) : List (Instr × Prop × PlateKind) :=
  let a := (i.uni (src10 f.m.a)).toNat
  let b := (i.uni (src10 f.m.b)).toNat
  let c := (i.uni (src10 f.m.c)).toNat
  let ty := f.m.ty.toNat
  let ring := i.t.ringStart
  let base := i.t.base
  let steps := fld c 0 16
  let ba := barAddr i (src10 f.m.c)
  let ok (l : List Src) : Prop := ∀ x ∈ l, plateOk x = true
  let rows : Prop := b / 2 ^ 15 = 0 ∧ fld b 6 2 = 0 ∧ 1 ≤ fld b 8 7 ∧ fld b 0 6 + fld b 8 7 ≤ 64
  [ (.engr f, (ty = 14 ∨ ty = 0) ∧ ok [src10 f.m.a] ∧ a % 512 = 0 ∧ a + (if ty = 14 then 34816 else 66560) ≤ ring,
      .engr (ty == 14) (base + a)),
    (.mloop f, f.aux.toNat < 4 ∧ ok (srcsM f.m 3) ∧ a / 2 ^ 40 = 0 ∧ b / 2 ^ 40 = 0 ∧ c / 2 ^ 30 = 0 ∧ fld c 22 2 = 0 ∧ 1 ≤ steps ∧
        fld a 0 20 % 256 = 0 ∧ fld b 0 20 % 256 = 0 ∧ fld a 20 20 % 8 = 0 ∧ fld b 20 20 % 8 = 0 ∧
        fld a 0 20 + (steps - 1) * fld b 0 20 + 2048 ≤ ring ∧ fld a 20 20 + (steps - 1) * fld b 20 20 + 32 ≤ ring,
      .mloop f.aux.toNat (base + fld a 0 20) (base + fld a 20 20) (fld b 0 20) (fld b 20 20) (fld c 24 6) (fld c 16 6) steps),
    (.mdrain f, (ty = 10 ∨ ty = 8 ∨ ty = 9 ∨ ty = 12) ∧ f.aux.toNat % 8 < 6 ∧ ok [src10 f.m.a, src10 f.m.b] ∧
        (plateOk (src10 f.m.c) = true ∨ (src10 f.m.c).isImm = true ∧ barOk (src10 f.m.c) false = true) ∧ ba % 16 = 0 ∧
        ba + 16 ≤ ring ∧ rows ∧ a % 256 = 0 ∧ a + 256 * fld b 8 7 * memW ty ≤ ring,
      .mdrain ty (f.aux.toNat % 8) (f.aux.getLsbD 3) (base + a) ba (fld b 0 6) (fld b 8 7)),
    (.mclr f, ok [src10 f.m.b] ∧ rows, .mclr (fld b 0 6) (fld b 8 7)) ]

/-- An address names a conversation object whose base is `base` and whose header lies at `loc` (R324 steps 4 and 5): its range is a CONV
object with the USE right, of at least the layout's size, and the access to its header line passes. -/
def ObjectAt (s : State) (i : Iss) (a base : Nat) (loc : Loc) : Prop :=
  inWindow a = true ∧ ∃ r, s.rangeOf i.c a = .ok (some r) ∧ r.kind = 2 ∧ bit r.rights 3 = true ∧ 0x4640 ≤ r.size ∧ base = r.base ∧
    Passes (s.checkLane i .use 3 1 128 (lowestLane i) base) { lane := lowestLane i, va := base, loc := loc }

/-- One conversation instruction that acts at the Bellwether (R325 to R329): whether it releases, its operand conditions, whether its
role register must be bound (else it must not be), the address of its object, and the operation it sends. -/
structure ConvForm where
  ins      : Instr
  releases : Bool
  operands : Prop
  bound    : Bool
  object   : Nat
  op       : ConvOp

/-- The conversation instructions that act at the Bellwether. A role register names the object for all but CJOIN and CACCEPT. -/
def convForms (i : Iss) (f : FmtW) : List ConvForm :=
  let d := f.m.d.toNat
  let a := src10 f.m.a
  let b := src10 f.m.b
  let c := src10 f.m.c
  let ua := (i.uni a).toNat
  let ub := (i.uni b).toNat
  let uc := (i.uni c).toNat
  let cv := i.g.cvget d
  let via (kind : ConvKind) (areg : Nat) : ConvOp := { opOf kind (cvRole cv) d areg with epoch := cvEpoch cv }
  [ ⟨.cjoin f, false, a.isG = true ∧ b.uniform = true ∧ ub ≤ 15, false, ua, opOf .join ub d 0⟩,
    ⟨.caccept f, false, a.isG = true ∧ b.uniform = true ∧ ub ≤ 15, false, ua, opOf .accept ub d 0⟩,
    ⟨.csend f, true, a.isG = true ∧ b.uniform = true ∧ c.uniform = true ∧ ub ≤ 63 ∧ uc ≤ 6 ∧ a.gnum + uc ≤ 64, true, cvBase cv,
      { via .send 0 with mkind := ub, count := uc, pay := (List.range uc).map fun k => i.g.gget (a.gnum + k) }⟩,
    ⟨.cchoose f, true, b.uniform = true ∧ ub ≤ 63, true, cvBase cv, { via .choose 0 with mkind := ub }⟩,
    ⟨.crecv f, false, a.isG = true ∧ a.gnum ≤ 57, true, cvBase cv, via .recv a.gnum⟩,
    ⟨.cpoll f, false, a.isG = true ∧ a.gnum ≤ 57, true, cvBase cv, via .poll a.gnum⟩,
    ⟨.cdeleg f, true, b.uniform = true, true, cvBase cv, { via .deleg 0 with target := i.uni b }⟩,
    ⟨.cleave f, false, True, true, cvBase cv, via .leave 0⟩ ]

/-- Operation `idx` may be evaluated (R318): it is a group's of this device, not held, parked or withdrawn by a reset, its home can be
reached, none of its group's to the same home stands before it, and, unless it is a CRECV or CPOLL, no operation holds the conversation.
-/
def MayEvaluate (s : State) (idx : Nat) (o : ConvOp) : Prop :=
  s.convs[idx]? = some o ∧ o.src = none ∧ s.leaveLost o = false ∧ o.discarded = false ∧ o.held = false ∧ o.parked = false ∧
    s.convReach o = true ∧ s.convBehind idx o = false ∧
    (o.kind ≠ .recv → o.kind ≠ .poll → ∀ p ∈ s.convs, p.space = o.space → p.pa = o.pa → p.held = false)

/-- A conversation begins a page of memory that is there, outside the carve-out, and that holds no error. -/
def ConvThere (s : State) (c : ConvAt) : Prop :=
  c.pa % 65536 = 0 ∧ (c.space = 1 ∨ c.pa + 0x4640 ≤ Config.potBase ∨ Config.hbmEnd ≤ c.pa) ∧
    (∀ n, c.space = n + 2 → (s.peer? n).isSome = true) ∧ (c.space = 0 → s.eccBad = [] ∧ s.tagBad = [])

/-- The operations outstanding are as they were, but that some parked at a mailbox have woken (R327). -/
def ConvsKept (l l' : List ConvOp) : Prop :=
  (l'.map fun o => { o with parked := false, again := false }) = l.map fun o => { o with parked := false, again := false }

/-- The refusals of a Bellwether (R316, R318, R325, R327 to R329): the kinds of operation, the condition, the cause. -/
def convRefusals (s : State) (c : ConvAt) (o : ConvOp) : List (List ConvKind × Prop × BitVec 8) :=
  let h := s.convStatus c
  let r := o.role
  let held : Prop := s.holds c r o.who o.epoch = true
  let ts := s.convTrans c (stCur h)
  let shut : Prop := stClosed h = true
  let live : Prop := stLive h = true
  let fits (t : Nat) : Prop := trSend t = r ∧ trKind t = o.mkind ∧ (trChoice t = true ↔ o.kind = .choose)
  let bad (t : Nat) : Prop := trMax t < o.count ∨ trMax t = 7 ∨ s.convStates c ≤ trNext t ∨ fld t 32 4 ≠ 0 ∨ fld t 0 16 ≠ 0 ∨
    (trChoice t = false ∧ trNotify t ≠ 0) ∨ s.convKinds c ≤ o.mkind ∨ ∃ q ∈ trDest t, s.convRoles c ≤ q
  let sends : List ConvKind := [.send, .choose]
  let takes : List ConvKind := [.recv, .poll]
  let joins : List ConvKind := [.join, .accept]
  let tid := s.convGet c (roleOff r + 8) 8
  [ (sends, shut, cConvClosed),
    (sends, ¬ shut ∧ ¬ held, cConvNotHolder),
    (sends, ¬ shut ∧ held ∧ ∀ t ∈ ts, trSend t ≠ r, cConvOutOfTurn),
    (sends, ¬ shut ∧ held ∧ (∃ t ∈ ts, trSend t = r) ∧ ∀ t ∈ ts, ¬ fits t, cConvProtocol),
    (sends, ¬ shut ∧ held ∧ ∃ pre t post, ts = pre ++ t :: post ∧ (∀ x ∈ pre, ¬ fits x) ∧ fits t ∧ bad t, cConvProtocol),
    (takes, ¬ held, cConvNotHolder),
    (takes, held ∧ s.mailCount c r = 0 ∧ shut, cConvClosed),
    ([.deleg], shut, cConvClosed),
    ([.deleg], ¬ shut ∧ ¬ held, cConvNotHolder),
    ([.deleg], ¬ shut ∧ held ∧ ∀ t ∈ ts, ¬ (trSend t = r ∧ trDeleg t = true), cConvProtocol),
    ([.leave], ¬ held, cConvNotHolder),
    (joins, ¬ live ∧ s.imageValid c = false, cConvProtocol),
    (joins, live ∧ shut, cConvClosed),
    (joins, live ∧ ¬ shut ∧ s.convRoles c ≤ r, cConvProtocol),
    ([.join], live ∧ ¬ shut ∧ r < s.convRoles c ∧ s.roleState c r ≠ 0, cConvNotHolder),
    ([.accept], live ∧ ¬ shut ∧ r < s.convRoles c ∧ s.roleState c r ≠ 2, cConvProtocol),
    ([.accept], live ∧ ¬ shut ∧ r < s.convRoles c ∧ s.roleState c r = 2 ∧ tid ≠ o.who.toNat, cConvNotHolder) ]

/-- The lanes that waited for an answer go on past their instruction. -/
def Answered (o : ConvOp) (g g' : Group) : Prop :=
  ∀ l, inSet o.lanes l = true → (g.lane l).st = .parked .conv → (g'.lane l).st = .ready ∧ (g'.lane l).pc = (g.lane l).pc + 12

/-- The lanes of `m` have trapped (R42, Table 15.1): they stand TRAPPED at `pc`, TPC is `pc`, and TCAUSE, TADDR and TINFO hold what the
cause gives; delivered at once where no handler takes it (R376). -/
def TrapTaken (g g' : Group) (m : LaneSet) (pc : BitVec 64) (cause : BitVec 8) (addr info : BitVec 64) : Prop :=
  ∀ l, inSet m l = true → (g'.lane l).st = .trapped (!toHandler g l) ∧ (g'.lane l).pc = pc ∧ (g'.lane l).tcause = cause ∧
    (g'.lane l).tpc = pc ∧ (g'.lane l).taddr = addr ∧ (g'.lane l).tinfo = info ∧ (g'.lane l).tregion = (g.lane l).tregion

/-- An instruction meets a check that comes before its own effect (R29 steps 1 to 6, R352): every lane of its sub-group traps with the
cause at the instruction, or at the prefix before it (R33), and it has no effect. -/
def Refused (s : State) (i : Iss) (ins : Instr) (cause : BitVec 8) : Prop :=
  ∃ t g, exec ins s = .next t ∧ t.group? i.key = some g ∧ RegistersKept i.g g ∧ SpecialsKept i.g g ∧ TrapTaken i.g g i.sub i.pci cause 0 0 ∧
    (∀ l, l < 32 → inSet i.sub l = false → g.lane l = i.g.lane l) ∧ (∀ space a, byteAt t space a = byteAt s space a) ∧
    ((t.core i.core).port i.port).run = none

/-- What the checks of R29 look at in an instruction: whether step 1 lets its words through, the prefix fields it accepts (Table 2.15), its
sources, and whether its other operands are encoded and within the budget. -/
structure CheckForm where
  ins      : Instr
  words    : Prop
  pfx      : PfxClass
  srcs     : List Src
  operands : Prop

/-- The checks of the arithmetic of VINT and VFLT and of a load. -/
def checkForms (i : Iss) (f : FmtM) (w : FmtW) : List CheckForm :=
  let ty := f.ty.toNat
  let vec (srcs : List Src) : Prop := dvOk f.d.toNat i.g.budget = true ∧ ImmFit ty srcs
  ((intMinors f).map fun x =>
    ⟨x.ins, tyInt ty = true ∨ (x.logic = true ∧ ty = 15), vintPfx x.sat ty, srcsM f x.n, vec (srcsM f x.n)⟩) ++
  ((floatExact f).map fun x => ⟨x.1, tyF4 ty = true, .float, srcsM f x.2.1, vec (srcsM f x.2.1)⟩) ++
  [⟨.ld w, memBad w = false ∧ wScopeBad w = false ∧ wRel w = false, .none, srcsM w.m 1,
    vRangeOk w.m.d.toNat (memCount w.aux) i.g.budget = true ∧ (src10 w.m.a).address = true⟩]

/-- The lanes of the sub-group outside `m` are at the next instruction, after `n` words, and the lanes outside the sub-group are as they
were. -/
def OthersGoOn (i : Iss) (n : Nat) (g : Group) (m : LaneSet) : Prop :=
  (∀ l, inSet i.sub l = true → inSet m l = false →
    (g.lane l).pc = i.run.pc + BitVec.ofNat 64 (4 * n) ∧ (g.lane l).st = (i.g.lane l).st) ∧
  ∀ l, l < 32 → inSet i.sub l = false → g.lane l = i.g.lane l

/-- An instruction of three words has completed with g_d awaited from a long-latency unit (R347): g_d holds `x`, no other vector,
uniform, mask or rejoin register has changed, nor FMODE nor FFLAGS. -/
structure UniformLate (s t : State) (i : Iss) (g : Group) (d : Nat) (x : BitVec 64) : Prop where
  done   : Completed s t i 3 g
  value  : g.gget d = x
  others : ∀ r, r ≠ d → g.gget r = i.g.gget r
  rest   : g.v = i.g.v ∧ g.k = i.g.k ∧ g.j = i.g.j ∧ g.fmode = i.g.fmode ∧ g.fflags = i.g.fflags
  late   : g.awaits = i.g.awaits ++ [{ reg := .g d, lanes := i.sub }]

/-- The control registers of Table 6.2 that each lane holds: number, value, and the value that it takes from a written word. -/
def laneRegisters : List (Nat × (Lane → BitVec 64) × (BitVec 64 → BitVec 64)) :=
  [ (0x010, fun x => x.tcause.setWidth 64, fun w => w &&& 0xFF), (0x011, Lane.tpc, id), (0x012, Lane.taddr, id),
    (0x013, Lane.tinfo, id), (0x014, Lane.tregion, id) ]

/-- Those of the group and the device: number, value, and whether reading it takes privileged mode. -/
def groupRegisters (i : Iss) (s : State) : List (Nat × BitVec 64 × Bool) :=
  [ (0x000, i.g.fmode.setWidth 64, false), (0x001, i.g.fflags.setWidth 64, false), (0x002, s.cycle, false), (0x003, i.g.gid, false),
    (0x020, i.g.tmask.setWidth 64, true), (0x021, i.g.trapv, true) ]

/-- What an action of LRESUME takes: the lane states (R400). -/
def resumable (action : Nat) (st : LaneState) : Prop :=
  (action = 0 ∧ st = .replaying) ∨ ((action = 1 ∨ action = 2) ∧ ∃ b, st = .trapped b) ∨
    (action = 3 ∧ (st = .replaying ∨ ∃ b, st = .trapped b))

/-- A core and a port that the device has. -/
def HasPort (s : State) (c p : Nat) : Prop := c < 192 ∧ p < 4 ∧ s.cores.length = 192 ∧ (s.core c).ports.length = 4

/-- A group with no item to take at its turn boundary (R382) and no lane that is to skip. -/
structure Quiet (g : Group) : Prop where
  halts : g.halted = false ∧ g.haltReq = false
  save  : g.saveReq = none
  err   : g.errReq = false
  lanes : ∀ l, l < 32 → (g.lane l).st ≠ .trapped false ∧ (g.lane l).st ≠ .parked (.turns 0) ∧ (g.lane l).skip = false

/-- The barrier of a packet is in its team's scratchpad, aligned and below the ring (R129). -/
def TeamBar (s : State) (core : Nat) (p : Packet) (tm : Team) (at_ : Nat) : Prop :=
  s.packetTeam p = some tm ∧ pkBdev p.bytes = false ∧
    16 * (pk p.bytes 0 8 / 2 ^ 16 % 2 ^ 16) + 16 ≤ tm.ringStart ∧ at_ = tm.base + 16 * (pk p.bytes 0 8 / 2 ^ 16 % 2 ^ 16) ∧
    s.cores.length = 192 ∧ core < 192

/-- The four A rows of a pull as a column's accumulator takes them (R219, R221, R222), in whole numbers: `b` mantissa bits, mantissas,
exponents, cells, block scales in units of 2^−15, the column scale and the value accumulated so far. -/
def pulled (b : Nat) (m : Nat → Int) (e : Nat → Nat) (cell : Nat → Int) (w : Nat → Nat) (ss acc : Nat) : Nat :=
  let emax := ((List.range 8).map e).foldl max 0
  let dot (g : Nat) : Int := ((List.range 32).map fun i => m (32 * g + i) * cell (32 * g + i)).sum
  let t : Int := ((List.range 8).map fun g => if e g + 60 < emax then 0 else dot g * (w g : Int) * ((2 ^ (e g + 60 - emax) : Nat) : Int)).sum
  let rne (x : FVal × Flags) : Nat := (rounded Modes.exactRne 10 0 x).1
  let f : Nat := if t = 0 then 0
    else rne (fmul (.fin (decide (t < 0)) t.natAbs ((emax : Int) - 60 - 127 - ((b : Int) - 1) - 15)) (fval 10 ss))
  rne (fadd false (fval 10 acc) (fval 10 f))

/-- A barrier after bytes have arrived in pieces of 512, the last one shorter where they do not come out even. -/
def arrivesIn512 (b : Bar) (n : Nat) : Bar :=
  (List.replicate (n / 512) 512 ++ if n % 512 = 0 then [] else [n % 512]).foldl (fun b k => (b.arrive k).written) b

/-- What ends a query with its result in its team's scratchpad (R248, Table 10.3): the query has left, the pairs of distance and id
stand best first with +∞ and all ones after the last, then the status word, and the barrier has counted it all. -/
def ResultStands (s t : State) (dog : Nat) (q : Query) (tm : Team) (bar status : Nat) (cand : List (BitVec 32 × Nat)) : Prop :=
  let n := sCount q.pkt.bytes
  let at_ := tm.base + sResult q.pkt.bytes
  let word (a : Nat) : Nat := ofBytes (spadRead (t.core q.core) (at_ + a) 4)
  (∀ y ∈ (t.dog dog).active, ¬ (y.pkt.place = q.pkt.place ∧ y.core = q.core)) ∧
  (∀ k, k < n → (∀ e, cand[k]? = some e → word (8 * k) = e.1.toNat ∧ word (8 * k + 4) = e.2 % 2 ^ 32) ∧
    (cand[k]? = none → word (8 * k) = 0x7F800000 ∧ word (8 * k + 4) = 0xFFFFFFFF)) ∧
  word (8 * n) % 256 = status ∧ word (8 * n + 4) / 2 ^ 16 = q.nexp % 65536 ∧
  t.barGet (.spad q.core bar) = ((s.barGet (.spad q.core bar)).arrive (8 * n + 8)).written

/-- The query's result buffer is apart from its barrier. -/
def ResultApart (q : Query) (tm : Team) (bar : Nat) : Prop :=
  let at_ := tm.base + sResult q.pkt.bytes
  at_ + 8 * sCount q.pkt.bytes + 8 ≤ bar ∨ bar + 16 ≤ at_

/-- A link has nothing that waits for room in its retry buffer, and no slot to change (R296, R297). -/
def LinkSettled (l : Link) : Prop := l.sendq = [] ∧ l.ksOwed = false ∧ l.tx.ctr l.tx.cur < 2 ^ 32 - 2 ^ 16

/-- A host access to a page passes (R402): the page is memory outside the carve-out and, outside confidential mode, OWNED or SYSTEM; in
it SYSTEM of world 0, or OWNED by the world whose interface, in RUN, carries the request. -/
def HostMay (s : State) (pa : Nat) (iface : Option Nat) : Prop :=
  let e := potEntry s.mem pa
  isMemPa pa = true ∧ isCarve pa = false ∧ (s.conf = false → potState e = 1 ∨ potState e = 2) ∧
    (s.conf = true → (potOwner e = 0 ∧ potState e = 2) ∨
      (potState e = 1 ∧ iface = some (potOwner e) ∧ (s.world (potOwner e)).tdisp = .run))

/-- The command at CQHEAD is due and has the OPC `opc` (R403, R404). -/
def CommandDue (s : State) (opc : Nat) : Prop := s.cmdDue = true ∧ pk s.command 0 1 = opc

/-- The command at CQHEAD has completed (R403, R404): CQHEAD has gone on, and its completion entry holds TAG, STATUS, the phase and
RESULT. -/
structure CommandDone (s t : State) (status result : Nat) : Prop where
  head  : t.host.cqHead = s.host.cqHead + 1
  idle  : t.host.busy = none
  entry : t.readBytes 1 (s.host.cplBase.toNat / 4096 * 4096 + 16 * (s.host.cqHead.toNat % s.host.entries)) 16 =
    (s.command.drop 4).take 4 ++ [BitVec.ofNat 8 status, 0, 0, if s.host.phase then 1 else 0] ++ toBytes 8 result

/-- The form that the model's data keeps: every memory is canonical, and there are as many cores with their ports, launch queues, spawn
ports, shared queues, links, Bellwether units, worlds with their meters and way masks, and ring slots of a team as the device has. -/
structure WellShaped (s : State) : Prop where
  mem    : Memory.wf s.mem = true
  host   : Memory.wf s.hostMem = true
  peers  : ∀ p ∈ s.peers, Memory.wf p.mem = true
  cores  : s.cores.length = 192 ∧ ∀ c ∈ s.cores, c.ports.length = 4
  queues : s.queues.length = 64 ∧ s.sports.length = 64 ∧ s.shared.length = 64
  units  : s.links.length = 16 ∧ s.dogs.length = 8
  worlds : s.worlds.length = 16 ∧ ∀ w ∈ s.worlds, w.meters.length = 16 ∧ w.ways.length = 32
  teams  : ∀ t ∈ s.teams, t.ring.length = 8

end Sys2Proof
end

