-- ==== Sys2Proof/Certificates/Slice0/Obligations.lean ====
section
/-! DEFINITION. The statements for the provers, one `def Obligations.<Name> : Prop` each (OBLIGATIONS.json lists them). -/

open Sys2Proof Sys2Proof.Machine Sys2Proof.Bits

/-! ## Encoding and the step -/

/-- Decoding an encoded well-formed instruction gives it back, whatever words follow it: no bit of an encoding is dropped
(02_instruction_words.md R10 to R28, R30, R38). -/
def Obligations.DecodeOfEncode : Prop :=
  ∀ (i : Instr) (ws rest : List Word), i.wf = true → encode i = some ws → decode (ws ++ rest) = .ok (i, rest)

/-- Decoding keeps every bit: the instruction that words decode to is well-formed and encodes to just those words (R10, R11, R27, R28).
-/
def Obligations.EncodeOfDecode : Prop :=
  ∀ (i : Instr) (ws rest : List Word), decode ws = .ok (i, rest) →
    i.wf = true ∧ ∃ pre, encode i = some pre ∧ ws = pre ++ rest

/-- Words written out from the encoding tables of chapter 02 decode to what they stand for: VADD.S32 v1, v2, v3 under k1 (Tables 2.2,
2.7, 2.12), the short VADD.S32 v1, v2, v3 (Table 2.4), BR k2, −1 with RB (Table 2.11a), LD of three words (Table 2.10), GLDI with its
literal (R23), and a pair of VADD.S32 and FMUL.F16 on L1 (R38, R39). -/
def Obligations.WrittenWordsDecode : Prop :=
  decode [0b01000010000000000010000000010001#32, 0b00000000110000000000000000000010#32] =
    .ok (.vadd { rb := false, nw := false, d := 1, a := 2, g := 1, b := 3, c := 0, ty := 2 }, []) ∧
  decode [0b00000000010000000100000100000011#32] = .ok (.vaddS32Short { rb := false, nw := false, d := 1, a := 2, b := 3 }, []) ∧
  decode [0b00100001010010111111111111111111#32] = .ok (.br { rb := true, nw := false, k := 2, off := 0x3FFFF }, []) ∧
  decode [0b10000100000000000011000000001000#32, 0b00000000000000000000000000000111#32,
      0b01001000000000000000000000010000#32] =
    .ok (.ld { m := { rb := false, nw := false, d := 1, a := 0x201, g := 0, b := 0, c := 0, ty := 7 }, scope := 2, ord := 1,
               promo := false, hint := 0, aux := 0, imm := 16 }, []) ∧
  decode [0b11000011110000000110000000000000#32, 0b00000000000000000000000000010000#32, 0#32, 0x89ABCDEF#32,
      0x01234567#32] =
    .ok (.gldi { w := { m := { rb := false, nw := false, d := 3, a := 0, g := 0, b := 0, c := 0, ty := 0 }, scope := 0, ord := 0,
                        promo := false, hint := 0, aux := 0, imm := 0 }, lit := 0x0123456789ABCDEF#64 }, []) ∧
  decode [0b01000001100000000000010000010000#32, 0b00110100010000100110000010100001#32] =
    .ok (.pair { rb := false, nw := false, x := { op := 0, d := 1, a := 2, b := 3, t := false }, y := { op := 34, d := 4, a := 96, b := 80, t := true } }, [])

/-- A step runs the instruction that the words at the PC of the port's run decode to, with the port's turn set and the counter of free
values advanced, and nothing else done around it (R350, R351); only where a CSRD of FFLAGS still waits for a register that the
instruction reads does its wait end first (`readSettle`; R146, R169). A step of an engine, a link, the scheduler or the host that the agenda
names runs with no port's turn set, and a port without a run takes its turn (R349). -/
def Obligations.StepRunsDecoded : Prop :=
  (∀ (s : State) (c p : Nat) (rest : List Next) (r : Run) (g : Group) (ws tail : List Word) (fail : Option (BitVec 8)) (i : Instr),
    s.agenda = .issue c p :: rest → ((s.core c).port p).run = some r → r.count < Config.runLimit →
    s.group? (slotKey c p r.slot) = some g → g.wordsAt r.start r.pc = some (ws, fail) → decode ws = .ok (i, tail) →
    let u : State := { s with agenda := rest, tick := s.tick + 1, turn := some (c, p) }
    step s = exec i (u.readSettle i) ∧ (g.csrd = [] → step s = exec i u)) ∧
  (∀ (s : State) (rest : List Next),
    (∀ i, s.agenda = .event i :: rest → step s = exec i { s with agenda := rest, tick := s.tick + 1, turn := none }) ∧
    (∀ c p, s.agenda = .issue c p :: rest → ((s.core c).port p).run = none →
      step s = exec (.barrelTurn c p) { s with agenda := rest, tick := s.tick + 1, turn := none }))

/-! ## Vector unit -/

/-- R184: each sub-element of an active lane takes the exact result of Table 8.3 brought to the type by Fit, FFLAGS.SAT is raised just
where Fit limits a result and NF is 0, and nothing else changes. -/
def Obligations.IntegerMinors : Prop :=
  ∀ (s : State) (i : Iss) (f : FmtM), dvOk f.d.toNat i.g.budget = true → ∀ x ∈ intMinors f,
    (tyInt f.ty.toNat = true ∨ (x.logic = true ∧ f.ty.toNat = 15)) → Issues s i (vintPfx x.sat f.ty.toNat) (srcsM f x.n) →
    let ty := f.ty.toNat
    let val (l k : Nat) : Int :=
      x.val ty (srcElem i (srcsM f x.n) ty 0 l k) (srcElem i (srcsM f x.n) ty 1 l k) (srcElem i (srcsM f x.n) ty 2 l k)
    let limited : Prop := (x.sat && i.modes.sat && !i.modes.nf) = true ∧
      ∃ l k, inSet (i.act f.g.toNat) l = true ∧ k < tyP ty ∧ ¬ (imin ty ≤ val l k ∧ val l k ≤ imax ty)
    ∃ t g, exec x.ins s = .next t ∧ VecDone s t i 2 g f.d.toNat f.g.toNat f.nw ∧
      (∀ l k, inSet (written i f.g.toNat f.nw) l = true → k < tyP ty →
        sube (tyW ty) k (g.vget f.d.toNat l) = fitted (x.sat && i.modes.sat) ty (val l k)) ∧
      (limited → g.fflags = i.g.fflags ||| 32) ∧ (¬ limited → g.fflags = i.g.fflags)

/-- VMOV copies the whole 64 bits of A, TY mattering only to the splat of an immediate (R183); VSHF permutes sub-elements within each
lane: sub-element j of A, of C from P on, and zero from 2P on, j being B's sub-element (R187). -/
def Obligations.MovesWithinLanes : Prop :=
  ∀ (s : State) (i : Iss) (f : FmtM), dvOk f.d.toNat i.g.budget = true →
    (Issues s i (vintPfx false f.ty.toNat) [src10 f.a] → ImmFit f.ty.toNat [src10 f.a] →
      ∃ t g, exec (.vmov f) s = .next t ∧ VecDone s t i 2 g f.d.toNat f.g.toNat f.nw ∧ g.fflags = i.g.fflags ∧
        ∀ l, inSet (written i f.g.toNat f.nw) l = true → g.vget f.d.toNat l = i.read (src10 f.a) l f.ty.toNat) ∧
    (Issues s i .zero (srcsM f 3) → tyInt f.ty.toNat = true →
      ∃ t g, exec (.vshf f) s = .next t ∧ VecDone s t i 2 g f.d.toNat f.g.toNat f.nw ∧ g.fflags = i.g.fflags ∧
        ∀ l k, inSet (written i f.g.toNat f.nw) l = true → k < tyP f.ty.toNat →
          let ty := f.ty.toNat
          let j := srcElem i (srcsM f 3) ty 1 l k
          sube (tyW ty) k (g.vget f.d.toNat l) =
            if j < tyP ty then srcElem i (srcsM f 3) ty 0 l j
            else if j < 2 * tyP ty then srcElem i (srcsM f 3) ty 2 l (j - tyP ty) else 0)

/-- R206 to R208: XGET, XSHFL, XBFLY, XROT and XBCAST give each element of each active lane the element of A that Table 8.11 names, read
as A stood at issue in all 32 lanes whatever the guard; no flag is raised. XPUT scatters (R208): a place of an active lane takes the
element of A with the highest index among the active lanes' elements that B sends there, and C's own element where none is sent. -/
def Obligations.CrossLaneMoves : Prop :=
  (∀ (s : State) (i : Iss) (f : FmtM), dvOk f.d.toNat i.g.budget = true → ∀ x ∈ crossMoves i f,
    Issues s i .none x.srcs → ImmFit f.ty.toNat x.srcs → (∀ b, x.uni = some b → b.uniform = true) →
    (x.ins = .xget f → f.ty ≠ 14) →
    ∃ t g, exec x.ins s = .next t ∧ VecDone s t i 2 g f.d.toNat f.g.toNat f.nw ∧ g.fflags = i.g.fflags ∧
      ∀ l k, inSet (written i f.g.toNat f.nw) l = true → k < tyP f.ty.toNat →
        sube (tyW f.ty.toNat) k (g.vget f.d.toNat l) =
          srcElem i (srcsM f 1) f.ty.toNat 0 (x.from_ l k).1 (x.from_ l k).2) ∧
  (∀ (s : State) (i : Iss) (f : FmtM), dvOk f.d.toNat i.g.budget = true → f.ty ≠ 14 → Issues s i .none (srcsM f 3) →
    ImmFit f.ty.toNat (srcsM f 3) →
    let ty := f.ty.toNat
    let n := 32 * tyP ty
    let sent (e place : Nat) : Prop :=
      e < n ∧ inSet (i.act f.g.toNat) (e % 32) = true ∧ srcElem i (srcsM f 3) ty 1 (e % 32) (e / 32) % n = place
    ∃ t g, exec (.xput f) s = .next t ∧ VecDone s t i 2 g f.d.toNat f.g.toNat f.nw ∧ g.fflags = i.g.fflags ∧
      ∀ l k, inSet (written i f.g.toNat f.nw) l = true → k < tyP ty →
        (∀ e, sent e (32 * k + l) → (∀ e', sent e' (32 * k + l) → e' ≤ e) →
          sube (tyW ty) k (g.vget f.d.toNat l) = srcElem i (srcsM f 3) ty 0 (e % 32) (e / 32)) ∧
        ((∀ e, ¬ sent e (32 * k + l)) → sube (tyW ty) k (g.vget f.d.toNat l) = srcElem i (srcsM f 3) ty 2 l k))

/-- XRED and XSCAN with integer ADD (R209, R210): XRED gives every active lane the sum of the active lanes' elements modulo 2^w, XSCAN
the sum of those in lanes up to its own, its own left out in the exclusive form; no flag is raised. Every form of XRED and XSCAN
completes (R209, R210, R212): in each active lane an element of XRED is the root of the five-level tree over the lanes' elements, with
the operation's identity in inactive lanes, and an element of XSCAN the combination of those up to its lane in lane order; the flags
raised on the way accumulate. -/
def Obligations.IntegerSums : Prop :=
  (∀ (s : State) (i : Iss) (f : FmtM) (excl : Bool), dvOk f.d.toNat i.g.budget = true → Issues s i .none (srcsM f 1) →
    tyInt f.ty.toNat = true →
    let ty := f.ty.toNat
    let sum (upTo k : Nat) : Nat :=
      (((List.range upTo).filter (inSet (i.act f.g.toNat))).map fun l => srcElem i (srcsM f 1) ty 0 l k).sum % 2 ^ tyW ty
    (src10 f.c = .imm 0 0 →
      ∃ t g, exec (.xred f) s = .next t ∧ VecDone s t i 2 g f.d.toNat f.g.toNat f.nw ∧ g.fflags = i.g.fflags ∧
        ∀ l k, inSet (written i f.g.toNat f.nw) l = true → k < tyP ty → sube (tyW ty) k (g.vget f.d.toNat l) = sum 32 k) ∧
    (src10 f.c = .imm (if excl then 8 else 0) (if excl then 8 else 0) →
      ∃ t g, exec (.xscan f) s = .next t ∧ VecDone s t i 2 g f.d.toNat f.g.toNat f.nw ∧ g.fflags = i.g.fflags ∧
        ∀ l k, inSet (written i f.g.toNat f.nw) l = true → k < tyP ty →
          sube (tyW ty) k (g.vget f.d.toNat l) = sum (if excl then l else l + 1) k)) ∧
  (∀ (s : State) (i : Iss) (f : FmtM), dvOk f.d.toNat i.g.budget = true → Issues s i .none (srcsM f 1) →
    ImmFit f.ty.toNat (srcsM f 1) → f.ty.toNat ≤ 11 → (src10 f.c).isImm = true →
    redOk (src10 f.c).raw f.ty.toNat = true →
    let ty := f.ty.toNat
    let op := (src10 f.c).raw % 8
    let comb := redComb i.modes op ty
    let x (k l : Nat) : Nat × Flags :=
      (if inSet (i.act f.g.toNat) l then srcElem i (srcsM f 1) ty 0 l k else redId op ty, 0)
    let pairs (l : Nat → Nat × Flags) (j : Nat) : Nat × Flags := comb (l (2 * j)) (l (2 * j + 1))
    ((src10 f.c).raw < 8 →
      ∃ t g, exec (.xred f) s = .next t ∧ VecDone s t i 2 g f.d.toNat f.g.toNat f.nw ∧
        (∀ l k, inSet (written i f.g.toNat f.nw) l = true → k < tyP ty →
          sube (tyW ty) k (g.vget f.d.toNat l) = (pairs (pairs (pairs (pairs (pairs (x k))))) 0).1 % 2 ^ tyW ty) ∧
        g.fflags = (if i.modes.nf then i.g.fflags else
          i.g.fflags ||| orFlags ((List.range (tyP ty)).map fun k => (pairs (pairs (pairs (pairs (pairs (x k))))) 0).2))) ∧
    ((src10 f.c).raw < 16 →
      let upTo (k n : Nat) : Nat × Flags := (List.range n).foldl (fun a l => comb a (x k l)) (redId op ty, 0)
      ∃ t g, exec (.xscan f) s = .next t ∧ VecDone s t i 2 g f.d.toNat f.g.toNat f.nw ∧
        (∀ l k, inSet (written i f.g.toNat f.nw) l = true → k < tyP ty →
          sube (tyW ty) k (g.vget f.d.toNat l) =
            (upTo k (if bit (src10 f.c).raw 3 then l else l + 1)).1 % 2 ^ tyW ty) ∧
        g.fflags = (if i.modes.nf then i.g.fflags else
          i.g.fflags ||| orFlags ((List.range (tyP ty)).map fun k => (upTo k 32).2))))

/-- R186: VCMP in its mask form writes k_d, one bit for each lane: the condition at sub-element C[5:3] in active lanes, 0 in the others,
and nothing for k0; in its vector form each sub-element of an active lane becomes all ones or zero. No flag is raised, and the mask form
changes no vector register. R192: FCMP in the same two forms. A comparison is ordered when neither operand is a NaN; EQ, LT, LE, GT and
GE hold only then, NE also when one is a NaN, UN when one is and OR when none is, the two zeros being equal and subnormal operands taken
under SUBN (`fkey0` orders the values as numbers); NV is raised by a signalling NaN, and by any NaN under LT to GE. -/
def Obligations.Compares : Prop :=
  (∀ (s : State) (i : Iss) (f : FmtM) (code : Nat) (v : Int), tyInt f.ty.toNat = true → src10 f.c = .imm v code →
    Issues s i .zero (srcsM f 2) → code % 8 ≤ 5 →
    let ty := f.ty.toNat
    let holds (l k : Nat) : Prop :=
      condHolds (code % 8) (ival ty (srcElem i (srcsM f 2) ty 0 l k)) (ival ty (srcElem i (srcsM f 2) ty 1 l k))
    (code < 64 → code / 8 < tyP ty → f.d.toNat < 8 → f.nw = false →
      ∃ t g, exec (.vcmp f) s = .next t ∧ ScalarDone s t i 2 g ∧ g.fflags = i.g.fflags ∧ g.g = i.g.g ∧
        (∀ n, (n ≠ f.d.toNat ∨ n = 0) → g.kget n = i.g.kget n) ∧
        (f.d.toNat ≠ 0 → ∀ l, l < 32 →
          (inSet (g.kget f.d.toNat) l = true ↔ inSet (i.act f.g.toNat) l = true ∧ holds l (code / 8)))) ∧
    (64 ≤ code → code / 8 % 8 = 0 → dvOk f.d.toNat i.g.budget = true →
      ∃ t g, exec (.vcmp f) s = .next t ∧ VecDone s t i 2 g f.d.toNat f.g.toNat f.nw ∧ g.fflags = i.g.fflags ∧
        ∀ l k, inSet (written i f.g.toNat f.nw) l = true → k < tyP ty →
          (holds l k → sube (tyW ty) k (g.vget f.d.toNat l) = 2 ^ tyW ty - 1) ∧
          (¬ holds l k → sube (tyW ty) k (g.vget f.d.toNat l) = 0))) ∧
  (∀ (s : State) (i : Iss) (f : FmtM) (code : Nat) (v : Int), tyF4 f.ty.toNat = true → src10 f.c = .imm v code →
    Issues s i .float (srcsM f 2) →
    let ty := f.ty.toNat
    let a (l k : Nat) : Nat := fin i.modes ty (srcElem i (srcsM f 2) ty 0 l k)
    let b (l k : Nat) : Nat := fin i.modes ty (srcElem i (srcsM f 2) ty 1 l k)
    let nan (l k : Nat) : Prop := (fval ty (a l k)).isNan = true ∨ (fval ty (b l k)).isNan = true
    let holds (l k : Nat) : Prop :=
      match code % 8 with
      | 6 => nan l k
      | 7 => ¬ nan l k
      | 1 => nan l k ∨ fkey0 ty (a l k) ≠ fkey0 ty (b l k)
      | cc => ¬ nan l k ∧ condHolds cc (fkey0 ty (a l k)) (fkey0 ty (b l k))
    let invalid (l k : Nat) : Prop :=
      (fval ty (a l k)).isSnan = true ∨ (fval ty (b l k)).isSnan = true ∨ (2 ≤ code % 8 ∧ code % 8 ≤ 5 ∧ nan l k)
    (code < 64 → code / 8 < tyP ty → f.d.toNat < 8 → f.nw = false →
      ∃ t g, exec (.fcmp f) s = .next t ∧ ScalarDone s t i 2 g ∧ g.g = i.g.g ∧
        (∀ n, (n ≠ f.d.toNat ∨ n = 0) → g.kget n = i.g.kget n) ∧
        (f.d.toNat ≠ 0 → ∀ l, l < 32 →
          (inSet (g.kget f.d.toNat) l = true ↔ inSet (i.act f.g.toNat) l = true ∧ holds l (code / 8))) ∧
        ((∃ l, inSet (i.act f.g.toNat) l = true ∧ invalid l (code / 8)) ∧ i.modes.nf = false → g.fflags = i.g.fflags ||| 1) ∧
        (¬ ((∃ l, inSet (i.act f.g.toNat) l = true ∧ invalid l (code / 8)) ∧ i.modes.nf = false) → g.fflags = i.g.fflags)) ∧
    (64 ≤ code → code / 8 % 8 = 0 → dvOk f.d.toNat i.g.budget = true →
      ∃ t g, exec (.fcmp f) s = .next t ∧ VecDone s t i 2 g f.d.toNat f.g.toNat f.nw ∧
        ((∃ l k, inSet (i.act f.g.toNat) l = true ∧ k < tyP ty ∧ invalid l k) ∧ i.modes.nf = false →
          g.fflags = i.g.fflags ||| 1) ∧
        (¬ ((∃ l k, inSet (i.act f.g.toNat) l = true ∧ k < tyP ty ∧ invalid l k) ∧ i.modes.nf = false) →
          g.fflags = i.g.fflags) ∧
        ∀ l k, inSet (written i f.g.toNat f.nw) l = true → k < tyP ty →
          (holds l k → sube (tyW ty) k (g.vget f.d.toNat l) = 2 ^ tyW ty - 1) ∧
          (¬ holds l k → sube (tyW ty) k (g.vget f.d.toNat l) = 0)))

/-- XBALLOT (R211) and PEQ (R69) write k_d: the active lanes whose sub-element C of A is nonzero, and the active lanes whose A and B
agree in all 64 bits. -/
def Obligations.LaneVotes : Prop :=
  (∀ (s : State) (i : Iss) (f : FmtM) (v : Int) (code : Nat), (tyInt f.ty.toNat = true ∨ f.ty = 15) → src10 f.c = .imm v code →
    Issues s i .none (srcsM f 1) → code < tyP f.ty.toNat → f.d.toNat < 8 → f.nw = false →
    ∃ t g, exec (.xballot f) s = .next t ∧ ScalarDone s t i 2 g ∧ g.fflags = i.g.fflags ∧ g.g = i.g.g ∧
      (∀ n, (n ≠ f.d.toNat ∨ n = 0) → g.kget n = i.g.kget n) ∧
      (f.d.toNat ≠ 0 → ∀ l, l < 32 → (inSet (g.kget f.d.toNat) l = true ↔
        inSet (i.act f.g.toNat) l = true ∧ srcElem i (srcsM f 1) f.ty.toNat 0 l code ≠ 0))) ∧
  (∀ (s : State) (i : Iss) (f : FmtW), Issues s i .none (srcsM f.m 2) → f.m.d.toNat < 8 → f.m.nw = false →
    ∃ t g, exec (.peq f) s = .next t ∧ ScalarDone s t i 3 g ∧ g.fflags = i.g.fflags ∧ g.g = i.g.g ∧
      (∀ n, (n ≠ f.m.d.toNat ∨ n = 0) → g.kget n = i.g.kget n) ∧
      (f.m.d.toNat ≠ 0 → ∀ l, l < 32 → (inSet (g.kget f.m.d.toNat) l = true ↔
        inSet (i.act f.m.g.toNat) l = true ∧ i.read (src10 f.m.a) l 15 = i.read (src10 f.m.b) l 15)))

/-- R189: FADD, FSUB, FMUL, FFMA and FFMS round the exact result once under the mode as issued, at the element's position lane + 32 ×
sub-element (R166), operands read under SUBN; the flags of active lanes accumulate unless NF is 1 (R169). -/
def Obligations.FloatArithmetic : Prop :=
  ∀ (s : State) (i : Iss) (f : FmtM), dvOk f.d.toNat i.g.budget = true → tyF4 f.ty.toNat = true → ∀ x ∈ floatExact f,
    Issues s i .float (srcsM f x.2.1) →
    let ty := f.ty.toNat
    let v (n l k : Nat) : FVal := fread i.modes ty (srcElem i (srcsM f x.2.1) ty n l k)
    let r (l k : Nat) : Nat × Flags :=
      rounded i.modes.plain ty (l + 32 * k) (x.2.2 i.modes (v 0 l k) (v 1 l k) (v 2 l k))
    ∃ t g, exec x.1 s = .next t ∧ VecDone s t i 2 g f.d.toNat f.g.toNat f.nw ∧
      (∀ l k, inSet (written i f.g.toNat f.nw) l = true → k < tyP ty →
        sube (tyW ty) k (g.vget f.d.toNat l) = (r l k).1 % 2 ^ tyW ty) ∧
      (∀ n, g.fflags.getLsbD n = true ↔ i.g.fflags.getLsbD n = true ∨ (i.modes.nf = false ∧
        ∃ l k, inSet (i.act f.g.toNat) l = true ∧ k < tyP ty ∧ (r l k).2.getLsbD n = true))

/-- R190: FABS clears and FNEG inverts the sign bit of each sub-element, for every type of Table 8.5 including E4M3 and E5M2; no other
bit changes and no flag is raised, even for a signalling NaN, whatever the modes. R191, R193 and R194: FMIN and FMAX return an operand
as SUBN gives it, −0 below +0, the other operand beside one NaN and the canonical NaN for two, and raise NV for a signalling NaN; FCLASS
gives the class number of Table 8.6 and no flag; FROUND returns infinities unchanged, the canonical NaN for a NaN, and a finite value
rounded to an integral one, NX being raised where that differs; FSCALE multiplies by 2^b, b read as a two's complement integer, and rounds
as R189 does, an infinity staying as it is and a NaN becoming the canonical one. FROUND and FSCALE raise NV for a signalling NaN (R188). -/
def Obligations.FloatSelections : Prop :=
  (∀ (s : State) (i : Iss) (f : FmtM), dvOk f.d.toNat i.g.budget = true → tyFloat f.ty.toNat = true →
    Issues s i .float (srcsM f 1) → ImmFit f.ty.toNat (srcsM f 1) →
    let ty := f.ty.toNat
    let a (l k : Nat) : Nat := srcElem i (srcsM f 1) ty 0 l k
    (∃ t g, exec (.fabs f) s = .next t ∧ VecDone s t i 2 g f.d.toNat f.g.toNat f.nw ∧ g.fflags = i.g.fflags ∧
      ∀ l k n, inSet (written i f.g.toNat f.nw) l = true → k < tyP ty → n < tyW ty →
        (sube (tyW ty) k (g.vget f.d.toNat l)).testBit n = ((a l k).testBit n && decide (n ≠ tyW ty - 1))) ∧
    (∃ t g, exec (.fneg f) s = .next t ∧ VecDone s t i 2 g f.d.toNat f.g.toNat f.nw ∧ g.fflags = i.g.fflags ∧
      ∀ l k n, inSet (written i f.g.toNat f.nw) l = true → k < tyP ty → n < tyW ty →
        (sube (tyW ty) k (g.vget f.d.toNat l)).testBit n = ((a l k).testBit n != decide (n = tyW ty - 1)))) ∧
  (∀ (s : State) (i : Iss) (f : FmtM), dvOk f.d.toNat i.g.budget = true → tyF4 f.ty.toNat = true →
    let ty := f.ty.toNat
    (∀ x ∈ [(Instr.fmin f, false), (Instr.fmax f, true)], Issues s i .float (srcsM f 2) →
      let a (l k : Nat) : Nat := fin i.modes ty (srcElem i (srcsM f 2) ty 0 l k)
      let b (l k : Nat) : Nat := fin i.modes ty (srcElem i (srcsM f 2) ty 1 l k)
      let nanA (l k : Nat) : Prop := (fval ty (a l k)).isNan = true
      let nanB (l k : Nat) : Prop := (fval ty (b l k)).isNan = true
      ∃ t g, exec x.1 s = .next t ∧ VecDone s t i 2 g f.d.toNat f.g.toNat f.nw ∧
        (∀ n, n ≠ 0 → g.fflags.getLsbD n = i.g.fflags.getLsbD n) ∧
        (∀ l k, inSet (i.act f.g.toNat) l = true → k < tyP ty → i.modes.nf = false →
          ((fval ty (a l k)).isSnan = true ∨ (fval ty (b l k)).isSnan = true) → g.fflags.getLsbD 0 = true) ∧
        ∀ l k, inSet (written i f.g.toNat f.nw) l = true → k < tyP ty →
          (nanA l k → nanB l k → sube (tyW ty) k (g.vget f.d.toNat l) = fnan ty) ∧
          (nanA l k → ¬ nanB l k → sube (tyW ty) k (g.vget f.d.toNat l) = b l k) ∧
          (¬ nanA l k → nanB l k → sube (tyW ty) k (g.vget f.d.toNat l) = a l k) ∧
          (¬ nanA l k → ¬ nanB l k → fkey ty (a l k) ≤ fkey ty (b l k) →
            sube (tyW ty) k (g.vget f.d.toNat l) = if x.2 then b l k else a l k) ∧
          (¬ nanA l k → ¬ nanB l k → fkey ty (b l k) < fkey ty (a l k) →
            sube (tyW ty) k (g.vget f.d.toNat l) = if x.2 then a l k else b l k)) ∧
    (Issues s i .float (srcsM f 1) →
      let a (l k : Nat) : Nat := srcElem i (srcsM f 1) ty 0 l k
      (∃ t g, exec (.fclass f) s = .next t ∧ VecDone s t i 2 g f.d.toNat f.g.toNat f.nw ∧ g.fflags = i.g.fflags ∧
        ∀ l k, inSet (written i f.g.toNat f.nw) l = true → k < tyP ty →
          sube (tyW ty) k (g.vget f.d.toNat l) =
            match fval ty (a l k) with
            | .nan sig => if sig then 8 else 9
            | .inf neg => if neg then 0 else 7
            | .fin neg m _ =>
              if m = 0 then (if neg then 3 else 4)
              else if isSub ty (a l k) then (if neg then 2 else 5) else (if neg then 1 else 6)) ∧
      (∃ t g, exec (.fround f) s = .next t ∧ VecDone s t i 2 g f.d.toNat f.g.toNat f.nw ∧
        (∀ l k, inSet (written i f.g.toNat f.nw) l = true → k < tyP ty →
          (∀ sig, fread i.modes ty (a l k) = .nan sig → sube (tyW ty) k (g.vget f.d.toNat l) = fnan ty) ∧
          (∀ neg, fread i.modes ty (a l k) = .inf neg → sube (tyW ty) k (g.vget f.d.toNat l) = a l k) ∧
          (∀ neg m e, fread i.modes ty (a l k) = .fin neg m e → sube (tyW ty) k (g.vget f.d.toNat l) =
            (roundFull Modes.exactRne 0 ty (.fin neg (roundInt i.modes.plain.rm 0 neg m e).1 0) false).1 % 2 ^ tyW ty)) ∧
        FlagsRaised i.g g i.modes (i.act f.g.toNat) (tyP ty) fun l k =>
          match fread i.modes ty (a l k) with
          | .nan sig => if sig then 1 else 0
          | .inf _ => 0
          | .fin neg m e => if (roundInt i.modes.plain.rm 0 neg m e).2 then 16 else 0)) ∧
    (Issues s i .float (srcsM f 2) →
      let a (l k : Nat) : FVal := fread i.modes ty (srcElem i (srcsM f 1) ty 0 l k)
      let r (l k : Nat) (neg : Bool) (m : Nat) (e : Int) : Nat × Flags :=
        roundTo i.modes.plain ty (.fin neg m (e + sval (tyW ty) (sube (tyW ty) k (i.read (src10 f.b) l (intTy ty))))) (l + 32 * k)
      ∃ t g, exec (.fscale f) s = .next t ∧ VecDone s t i 2 g f.d.toNat f.g.toNat f.nw ∧
        (∀ l k, inSet (written i f.g.toNat f.nw) l = true → k < tyP ty →
          sube (tyW ty) k (g.vget f.d.toNat l) =
            match a l k with
            | .nan _ => fnan ty
            | .inf neg => (if neg then fsign ty else 0) + finf ty
            | .fin neg m e => (r l k neg m e).1 % 2 ^ tyW ty) ∧
        FlagsRaised i.g g i.modes (i.act f.g.toNat) (tyP ty) fun l k =>
          match a l k with
          | .nan sig => if sig then 1 else 0
          | .inf _ => 0
          | .fin neg m e => (r l k neg m e).2))

/-- R196: every minor of VSFU but FACT gives each active element the function of its own operands, rounded: FDIV and FSQRT for types 8
to 11 under the mode as issued, the others for types 8 to 10, to nearest for F32. The flags accumulate. (Log entry 22 says how far the
transcendental functions are computed before they round.) -/
def Obligations.SpecialFunctions : Prop :=
  ∀ (s : State) (i : Iss) (f : FmtM), dvOk f.d.toNat i.g.budget = true → ∀ x ∈ specialFunctions f,
    8 ≤ f.ty.toNat → f.ty.toNat ≤ (if x.2.2.1 then 10 else 11) → Issues s i .float (srcsM f x.2.1) →
    let ty := f.ty.toNat
    let v (n l k : Nat) : FVal := fread i.modes ty (srcElem i (srcsM f x.2.1) ty n l k)
    let r (l k : Nat) : Nat × Flags := sfuRound x.2.2.1 i.modes ty (l + 32 * k) (x.2.2.2 (v 0 l k) (v 1 l k))
    ∃ t g, exec x.1 s = .next t ∧ VecDone s t i 2 g f.d.toNat f.g.toNat f.nw ∧
      (∀ l k, inSet (written i f.g.toNat f.nw) l = true → k < tyP ty →
        sube (tyW ty) k (g.vget f.d.toNat l) = (r l k).1 % 2 ^ tyW ty) ∧
      (∀ n, g.fflags.getLsbD n = true ↔ i.g.fflags.getLsbD n = true ∨ (i.modes.nf = false ∧
        ∃ l k, inSet (i.act f.g.toNat) l = true ∧ k < tyP ty ∧ (r l k).2.getLsbD n = true))

/-! ## Short forms and pairs -/

/-- R35 and R36: each arithmetic short form executes as its long form with guard k0, and the short butterfly gives lane l all 64 bits of
A of lane l XOR m, m the four bits of its immediate read unsigned. -/
def Obligations.ShortForms : Prop :=
  ∀ (s : State) (i : Iss) (f : FmtS), dvOk f.d.toNat i.g.budget = true →
    (∀ x ∈ shortForms f, Issues s i x.pfx (srcsS f x.n) →
      let r (l k : Nat) : Nat × Flags :=
        x.val i.modes (l + 32 * k) (srcElem i (srcsS f x.n) x.ty 0 l k) (srcElem i (srcsS f x.n) x.ty 1 l k)
      ∃ t g, exec x.ins s = .next t ∧ VecDone s t i 1 g f.d.toNat 0 f.nw ∧
        (∀ l k, inSet (written i 0 f.nw) l = true → k < tyP x.ty →
          sube (tyW x.ty) k (g.vget f.d.toNat l) = (r l k).1 % 2 ^ tyW x.ty) ∧
        (∀ n, g.fflags.getLsbD n = true ↔ i.g.fflags.getLsbD n = true ∨ (i.modes.nf = false ∧
          ∃ l k, inSet (i.act 0) l = true ∧ k < tyP x.ty ∧ (r l k).2.getLsbD n = true))) ∧
    (∀ (v : Int) (m : Nat), src7 f.b = .imm v m → Issues s i .none (srcsS f 1) →
      ∃ t g, exec (.xbflyShort f) s = .next t ∧ VecDone s t i 1 g f.d.toNat 0 f.nw ∧ g.fflags = i.g.fflags ∧
        ∀ l, inSet (written i 0 f.nw) l = true → g.vget f.d.toNat l = i.read (src7 f.a) (l ^^^ m) 15)

/-- R39 to R41: a legal pair (two pairable slots that meet R39 and R40) reads both slots' sources as they stood before it and writes
each slot's results; with NW = 1 it writes neither. Where the pair check fails the sub-group traps with ILLEGAL_PAIR and nothing is
written. -/
def Obligations.PairedIssue : Prop :=
  ∀ (s : State) (i : Iss) (f : FmtD), slotReserved f.x.op.toNat = false → slotReserved f.y.op.toNat = false →
    Issues s i .none ((slotSrcs f.x ++ slotSrcs f.y).map Prod.fst) →
    dvOk f.x.d.toNat i.g.budget = true → dvOk f.y.d.toNat i.g.budget = true →
    (∀ ox oy, slotOp f.x.op.toNat = some ox → slotOp f.y.op.toNat = some oy → badPair f = false →
      let r (x : PairSlot) (o : SlotOp) (l k : Nat) : Nat × Flags :=
        o.op i.modes (slotTy x) (l + 32 * k) (elt i (slotSrcs x) 0 l k) (elt i (slotSrcs x) 1 l k) 0
      ∃ t g, exec (.pair f) s = .next t ∧ Completed s t i 2 g ∧
        (∀ n l, l < 32 → (n ≠ f.x.d.toNat ∧ n ≠ f.y.d.toNat) ∨ inSet (written i 0 f.nw) l = false →
          g.vget n l = i.g.vget n l) ∧
        (∀ l k, inSet (written i 0 f.nw) l = true → k < tyP (slotTy f.x) →
          sube (tyW (slotTy f.x)) k (g.vget f.x.d.toNat l) = (r f.x ox l k).1 % 2 ^ tyW (slotTy f.x)) ∧
        (∀ l k, inSet (written i 0 f.nw) l = true → k < tyP (slotTy f.y) →
          sube (tyW (slotTy f.y)) k (g.vget f.y.d.toNat l) = (r f.y oy l k).1 % 2 ^ tyW (slotTy f.y)) ∧
        g.g = i.g.g ∧ g.k = i.g.k ∧ g.j = i.g.j ∧ g.fmode = i.g.fmode ∧
        (∀ n, g.fflags.getLsbD n = true ↔ i.g.fflags.getLsbD n = true ∨ (i.modes.nf = false ∧
          ∃ l k, inSet (i.act 0) l = true ∧ ((k < tyP (slotTy f.x) ∧ (r f.x ox l k).2.getLsbD n = true) ∨
            (k < tyP (slotTy f.y) ∧ (r f.y oy l k).2.getLsbD n = true))))) ∧
    (badPair f = true → ∃ t g, exec (.pair f) s = .next t ∧ t.group? i.key = some g ∧ g.v = i.g.v ∧ g.fflags = i.g.fflags ∧
      ∀ l, inSet i.sub l = true → (g.lane l).tcause = 4 ∧ (g.lane l).tpc = i.pci)

/-! ## Tables and conversions -/

/-- R200 and R204: with a READY bank selected FACT gives every active element its table's value (`factF32` works from the bank's bytes,
Table 8.8), rounded to the type; for a finite x inside the table that value is S_i × (x − (X0 + i × 2^LOG2H)) + Y_i rounded once to
nearest, i being the cell of x. With no bank selected, or with one that is not READY, the active lanes trap with TABLE_BOUND and no
register is written. Below the table and above it YLO and YHI stand where LOCONST and HICONST say. -/
def Obligations.ActivationTables : Prop :=
  ∀ (s : State) (i : Iss) (f : FmtM), dvOk f.d.toNat i.g.budget = true → 8 ≤ f.ty.toNat → f.ty.toNat ≤ 10 →
    Issues s i .float (srcsM f 1) →
    let ty := f.ty.toNat
    let x (l k : Nat) : FVal := fread i.modes ty (srcElem i (srcsM f 1) ty 0 l k)
    (∀ b, (s.core i.core).readyBank i.g.actSel = some b →
      let r (l k : Nat) : Nat × Flags :=
        rounded i.modes.plain ty (l + 32 * k) (fval 10 (factF32 b (x l k)).1, (factF32 b (x l k)).2)
      (∃ t g, exec (.fact f) s = .next t ∧ VecDone s t i 2 g f.d.toNat f.g.toNat f.nw ∧
        (∀ l k, inSet (written i f.g.toNat f.nw) l = true → k < tyP ty →
          sube (tyW ty) k (g.vget f.d.toNat l) = (r l k).1 % 2 ^ tyW ty) ∧
        (∀ n, g.fflags.getLsbD n = true ↔ i.g.fflags.getLsbD n = true ∨ (i.modes.nf = false ∧
          ∃ l k, inSet (i.act f.g.toNat) l = true ∧ k < tyP ty ∧ (r l k).2.getLsbD n = true))) ∧
      (∀ neg m e un um ue, (fadd false (.fin neg m e) (fval 10 (tabWord b 0)).neg).1 = .fin un um ue →
        let h := sval 8 (sget b 4).toNat
        let u := if 0 ≤ ue - h then um * 2 ^ (ue - h).toNat else um / 2 ^ (h - ue).toNat
        (un = true → um ≠ 0 → (sget b 5).getLsbD 0 = true → (fval 10 (tabWord b 8)).isNan = false →
          factF32 b (.fin neg m e) = (tabWord b 8, 0)) ∧
        (un = false → 1024 ≤ u → (sget b 5).getLsbD 1 = true → (fval 10 (tabWord b 12)).isNan = false →
          factF32 b (.fin neg m e) = (tabWord b 12, 0)) ∧
        (un = false ∨ um = 0 → u < 1024 →
          let rest := (fadd false (.fin un um ue) (.fin true u h)).1
          factF32 b (.fin neg m e) = rounded Modes.exactRne 10 0
            (ffma false (fval 10 (tabWord b (20 + 8 * u))) rest (fval 10 (tabWord b (16 + 8 * u))))))) ∧
    ((s.core i.core).readyBank i.g.actSel = none →
      ∃ t g, exec (.fact f) s = .next t ∧ t.group? i.key = some g ∧ g.v = i.g.v ∧ g.fflags = i.g.fflags ∧
        (∀ l, inSet (i.act f.g.toNat) l = true → (g.lane l).tcause = 0x2A ∧ (g.lane l).tpc = i.pci ∧ (g.lane l).taddr = 0) ∧
        (∀ l, inSet i.sub l = true → inSet (i.act f.g.toNat) l = false → (g.lane l).pc = i.run.pc + 8 ∧
          (g.lane l).st = (i.g.lane l).st))

/-- R173: CVT converts P = 64 ÷ max(ws, wd) elements: a widening one reads part H of A and fills D, a narrowing one writes part H of D
and takes the other parts from C, and one of equal widths, or a widening one, takes nothing from C. Each element follows Table 7.10 at
the position of its source, and the flags of the active lanes' elements accumulate. R174: CVTQ writes its indices into part H of D and
keeps the other parts of C. With u the value read, that is the index of an equal candidate with no flag, 0 and 15 outside with SAT and
NX, 7 for a NaN with NV, and else one of the two neighbours with NX: the upper under RUP, the lower under RDN, the one nearer zero under
RTZ, the nearer one under RNE and RNA, a tie going towards zero under RNE and away from it under RNA. R175: CVTB writes the mantissas of
its blocks into v_d and their exponents into v_d + 1, and no other register. R176: DQ writes level × q × 2^−15 × ss of each GQ4 element,
and the scaled mantissa of each PBF element, rounded, and +0 for zero. R177: VHAD gives v_d the five stages of the rotation, each rounded
to F32, the scaling of ORTHO, and the rounding to the type; a NaN anywhere in a block (a stage included: log entry 17) makes every
element of it the canonical NaN. -/
def Obligations.Conversions : Prop :=
  (∀ (s : State) (i : Iss) (f : FmtM) (code : Nat) (v : Int), dvOk f.d.toNat i.g.budget = true → src10 f.b = .imm v code →
    let dty := f.ty.toNat
    let sty := code % 16
    let h := code / 16
    let ws := tyW sty
    let wd := tyW dty
    let p := 64 / max ws wd
    dty ≤ 13 → sty ≤ 13 → sty ≠ dty → h < max ws wd / min ws wd →
    (wd < ws → Issues s i .conv [src10 f.a, src10 f.c] → ((src10 f.a).isImm = true → immOk sty = true) →
      ((src10 f.c).isImm = true → immOk dty = true) →
      let r (l k : Nat) : Nat × Flags := converted i.modes sty dty (l + 32 * k) (sube ws k (i.read (src10 f.a) l sty))
      ∃ t g, exec (.cvt f) s = .next t ∧ VecDone s t i 2 g f.d.toNat f.g.toNat f.nw ∧
        (∀ l k, inSet (written i f.g.toNat f.nw) l = true → k < p →
          sube wd (h * p + k) (g.vget f.d.toNat l) = (r l k).1 % 2 ^ wd) ∧
        (∀ l k, inSet (written i f.g.toNat f.nw) l = true → k < 64 / wd → (k < h * p ∨ h * p + p ≤ k) →
          sube wd k (g.vget f.d.toNat l) = sube wd k (i.read (src10 f.c) l dty)) ∧
        (∀ n, g.fflags.getLsbD n = true ↔ i.g.fflags.getLsbD n = true ∨ (i.modes.nf = false ∧
          ∃ l k, inSet (i.act f.g.toNat) l = true ∧ k < p ∧ (r l k).2.getLsbD n = true))) ∧
    (ws ≤ wd → Issues s i .conv [src10 f.a] → ((src10 f.a).isImm = true → immOk sty = true) →
      let part := if ws < wd then h * p else 0
      let r (l k : Nat) : Nat × Flags :=
        converted i.modes sty dty (l + 32 * (part + k)) (sube ws (part + k) (i.read (src10 f.a) l sty))
      ∃ t g, exec (.cvt f) s = .next t ∧ VecDone s t i 2 g f.d.toNat f.g.toNat f.nw ∧
        (∀ l k, inSet (written i f.g.toNat f.nw) l = true → k < p →
          sube wd k (g.vget f.d.toNat l) = (r l k).1 % 2 ^ wd) ∧
        (∀ n, g.fflags.getLsbD n = true ↔ i.g.fflags.getLsbD n = true ∨ (i.modes.nf = false ∧
          ∃ l k, inSet (i.act f.g.toNat) l = true ∧ k < p ∧ (r l k).2.getLsbD n = true)))) ∧
  (∀ (s : State) (i : Iss) (f : FmtM) (code : Nat) (v : Int), dvOk f.d.toNat i.g.budget = true →
    let ty := f.ty.toNat
    let p := 64 / tyW ty
    (src10 f.b = .imm v code → ty = 14 → 8 ≤ code % 16 → code % 16 ≤ 10 → code / 16 < tyW (code % 16) / 4 →
      Issues s i .conv [src10 f.a, src10 f.c] → (src10 f.c).isImm = false →
      let sty := code % 16
      let q := 64 / tyW sty
      ∃ t g, exec (.cvtq f) s = .next t ∧ VecDone s t i 2 g f.d.toNat f.g.toNat f.nw ∧
        (∀ l k, inSet (written i f.g.toNat f.nw) l = true → k < q →
          let x := fread i.modes sty (sube (tyW sty) k (i.read (src10 f.a) l sty))
          sube 4 (code / 16 * q + k) (g.vget f.d.toNat l) = (quantize i.modes (l + 32 * k) x).1) ∧
        (∀ l k, inSet (written i f.g.toNat f.nw) l = true → k < 16 → (k < code / 16 * q ∨ code / 16 * q + q ≤ k) →
          sube 4 k (g.vget f.d.toNat l) = sube 4 k (i.read (src10 f.c) l 14)) ∧
        FlagsRaised i.g g i.modes (i.act f.g.toNat) q fun l k =>
          (quantize i.modes (l + 32 * k) (fread i.modes sty (sube (tyW sty) k (i.read (src10 f.a) l sty)))).2) ∧
    (src10 f.b = .imm v code → 8 ≤ ty → ty ≤ 10 → code < 4 → dvOk (f.d.toNat + 1) i.g.budget = true →
      Issues s i .conv [src10 f.a] →
      let b := [4, 6, 8, 12].getD code 4
      let block (k : Nat) : Nat × List (Int × Flags) :=
        pbfEncode i.modes ty b (32 * k) (lanes32.map fun l => sube (tyW ty) k (i.read (src10 f.a) l ty))
      ∃ t g, exec (.cvtb f) s = .next t ∧ Completed s t i 2 g ∧
        (∀ r l, l < 32 → (r ≠ f.d.toNat ∧ r ≠ f.d.toNat + 1) ∨ inSet (written i f.g.toNat f.nw) l = false →
          g.vget r l = i.g.vget r l) ∧
        (∀ l k, inSet (written i f.g.toNat f.nw) l = true → k < 4 →
          sube 16 k (g.vget f.d.toNat l) = if k < p then wrap 16 ((block k).2.getD l (0, 0)).1 else 0) ∧
        (∀ l k, inSet (written i f.g.toNat f.nw) l = true → k < 8 →
          sube 8 k (g.vget (f.d.toNat + 1) l) = if k < p then (block k).1 % 256 else 0) ∧
        g.g = i.g.g ∧ g.k = i.g.k ∧ g.j = i.g.j ∧ g.fmode = i.g.fmode ∧
        FlagsRaised i.g g i.modes (i.act f.g.toNat) p fun l k => ((block k).2.getD l (0, 0)).2) ∧
    (src10 f.c = .imm v code → 8 ≤ ty → ty ≤ 10 → code / 8 ≤ 4 → code % 8 < (if code / 8 = 0 then 16 else 4) / p →
      Issues s i .float [src10 f.a, src10 f.b] →
      let r (l k : Nat) : Nat × Flags :=
        let e := code % 8 * p + k
        let a := (i.read (src10 f.a) l 15).toNat
        let x := (i.read (src10 f.b) l 15).toNat
        let b := [4, 6, 8, 12].getD (code / 8 - 1) 4
        let m := sval b (fld a (16 * e) b)
        let lev := gq4Level (fld a (4 * e) 4)
        let y : FVal × Flags :=
          if code / 8 ≠ 0 then (.fin (decide (m < 0)) m.natAbs ((fld x (8 * e) 8 : Int) - 127 - (b - 1)), 0)
          else if lev = 0 ∨ fld x 32 8 = 0 then (.fin false 0 0, 0)
          else fmul (.fin (decide (lev < 0)) (lev.natAbs * fld x 32 8) (-15)) (fval 10 (fld x 0 32))
        if y.1.isZero then (0, y.2) else rounded i.modes.plain ty (l + 32 * e) y
      ∃ t g, exec (.dq f) s = .next t ∧ VecDone s t i 2 g f.d.toNat f.g.toNat f.nw ∧
        (∀ l k, inSet (written i f.g.toNat f.nw) l = true → k < p →
          sube (tyW ty) k (g.vget f.d.toNat l) = (r l k).1 % 2 ^ tyW ty) ∧
        FlagsRaised i.g g i.modes (i.act f.g.toNat) p fun l k => (r l k).2) ∧
    (src10 f.b = .imm v code → 8 ≤ ty → ty ≤ 10 → code ≤ 1 → Issues s i .float [src10 f.a] →
      let start (k l : Nat) : Nat × Flags :=
        let x := fread i.modes ty (sube (tyW ty) k (i.read (src10 f.a) l ty))
        rounded Modes.exactRne 10 0 (x, snanFlag [x])
      let halved (x : FVal) : FVal :=
        match x with
        | .fin n m e => if code = 0 then .fin n m (e - 1) else .fin n m e
        | y => y
      let stage (a : Nat → Nat × Flags) (j l : Nat) : Nat × Flags :=
        let x := fval 10 (a l).1
        let y := fval 10 (a (l ^^^ 2 ^ j)).1
        let t := if l.testBit j then fadd false y x.neg else fadd false x y
        let z := rounded Modes.exactRne 10 0 (halved t.1, t.2)
        (z.1, (a l).2 ||| z.2)
      let after (k n : Nat) : Nat → Nat × Flags := (List.range n).foldl stage (start k)
      let last (k l : Nat) : Nat × Flags :=
        if code = 0 then after k 5 l
        else
          let z := rounded Modes.exactRne 10 0 (fmul (fval 10 (after k 5 l).1) (fval 10 0x3E3504F3))
          (z.1, (after k 5 l).2 ||| z.2)
      let nan (k : Nat) : Bool := (List.range 6).any fun n => (List.range 32).any fun l => (fval 10 (after k n l).1).isNan
      let r (l k : Nat) : Nat × Flags :=
        let z := roundTo i.modes.plain ty (fval 10 (last k l).1) (l + 32 * k)
        if nan k then (fnan ty, (last k l).2) else (z.1, z.2 ||| (last k l).2)
      ∃ t g, exec (.vhad f) s = .next t ∧ VecDone s t i 2 g f.d.toNat f.g.toNat f.nw ∧
        (∀ l k, inSet (written i f.g.toNat f.nw) l = true → k < p →
          sube (tyW ty) k (g.vget f.d.toNat l) = (r l k).1 % 2 ^ tyW ty) ∧
        FlagsRaised i.g g i.modes (i.act f.g.toNat) p fun l k => (r l k).2)) ∧
  (∀ (md : Modes) (pos m : Nat) (neg : Bool) (e : Int), m < 2 ^ 53 →
    let u : ℚ := (if neg then -1 else 1) * m * 2 ^ e
    let c (j : Nat) : ℚ := (gq4Level j : ℚ) / 128
    let r := quantize md pos (.fin neg m e)
    (∀ b, quantize md pos (.nan b) = (7, 1)) ∧ (∀ b, quantize md pos (.inf b) = (if b then 0 else 15, 48)) ∧
    (u < c 0 → r = (0, 48)) ∧ (c 15 < u → r = (15, 48)) ∧ (∀ j, j ≤ 15 → u = c j → r = (j, 0)) ∧
    (∀ j, j < 15 → c j < u → u < c (j + 1) → (r.1 = j ∨ r.1 = j + 1) ∧ r.2 = 16 ∧
      (md.rm = .rup → r.1 = j + 1) ∧ (md.rm = .rdn → r.1 = j) ∧
      (md.rm = .rtz → (r.1 = j ↔ |c j| < |c (j + 1)|)) ∧
      ((md.rm = .rne ∨ md.rm = .rna) → (u - c j < c (j + 1) - u → r.1 = j) ∧ (c (j + 1) - u < u - c j → r.1 = j + 1)) ∧
      (u - c j = c (j + 1) - u → (md.rm = .rne → (r.1 = j ↔ |c j| < |c (j + 1)|)) ∧
        (md.rm = .rna → (r.1 = j ↔ |c (j + 1)| < |c j|)))))

/-! ## Uniform and mask registers -/

/-- R153 to R156 on uniform registers: the GRP minors write g_d with the result modulo 2^64, GCMP 1 or 0 by the condition in C, VTOG
lane B mod 32 of A, KPOP the number of set bits of a mask, KFIRST the lowest of them or 32, GLDI its literal. R155 and R137: KAND, KOR,
KXOR, KNOT and KMOV write k_d from mask registers and KSET from the low 32 bits of a uniform source; k0 reads all ones, and a write to
it changes nothing. No other register is written. -/
def Obligations.UniformAndMaskRegisters : Prop :=
  (∀ (s : State) (i : Iss) (f : FmtM), f.d.toNat < 64 → f.nw = false →
    let u (n : Nat) : BitVec 64 := i.uni ((srcsM f 3).getD n .zero)
    ((f.ty = 3 ∨ f.ty = 7 ∨ f.ty = 15) → Issues s i .none [] →
      (∀ x ∈ groupMinors f, (∀ y ∈ srcsM f x.2.1, y.uniform = true) →
        ∃ t g, exec x.1 s = .next t ∧ UniformDone s t i 2 g f.d.toNat (x.2.2 (u 0) (u 1) (u 2))) ∧
      (∀ (v : Int) (code : Nat), src10 f.c = .imm v code → code ≤ 5 → (∀ y ∈ srcsM f 2, y.uniform = true) →
        let holds : Prop := condHolds code (ival f.ty.toNat (u 0).toNat) (ival f.ty.toNat (u 1).toNat)
        ∃ t g x, exec (.gcmp f) s = .next t ∧ UniformDone s t i 2 g f.d.toNat x ∧ (holds → x = 1) ∧ (¬ holds → x = 0))) ∧
    (Issues s i .none (srcsM f 1) → (src10 f.b).uniform = true →
      ∃ t g, exec (.vtog f) s = .next t ∧ UniformDone s t i 2 g f.d.toNat (i.read (src10 f.a) ((u 1).toNat % 32) 15)) ∧
    (Issues s i .none [] → f.a.toNat < 8 →
      let m := i.g.kget f.a.toNat
      (∃ t g, exec (.kpop f) s = .next t ∧ UniformDone s t i 2 g f.d.toNat (BitVec.ofNat 64 (lanesOf m).length)) ∧
      (∃ t g x, exec (.kfirst f) s = .next t ∧ UniformDone s t i 2 g f.d.toNat (BitVec.ofNat 64 x) ∧
        (m = 0 → x = 32) ∧ (m ≠ 0 → inSet m x = true ∧ ∀ l, l < x → inSet m l = false))) ∧
    (∀ (w : FmtWL), w.w.m.d.toNat < 64 → w.w.m.nw = false → Issues s i .none [] →
      ∃ t g, exec (.gldi w) s = .next t ∧ UniformDone s t i 5 g w.w.m.d.toNat w.lit)) ∧
  (∀ (s : State) (i : Iss) (f : FmtM), Issues s i .none [] → f.d.toNat < 8 → f.nw = false → i.g.kget 0 = BitVec.allOnes 32 ∧
    (∀ x ∈ maskMinors i f, f.a.toNat < 8 → (x.2.1 = true → f.b.toNat < 8) →
      ∃ t g, exec x.1 s = .next t ∧ ScalarDone s t i 2 g ∧ g.g = i.g.g ∧ g.fflags = i.g.fflags ∧
        (∀ n, (n ≠ f.d.toNat ∨ n = 0) → g.kget n = i.g.kget n) ∧ (f.d.toNat ≠ 0 → g.kget f.d.toNat = x.2.2)) ∧
    ((src10 f.a).uniform = true →
      ∃ t g, exec (.kset f) s = .next t ∧ ScalarDone s t i 2 g ∧ g.g = i.g.g ∧ g.fflags = i.g.fflags ∧
        (∀ n, (n ≠ f.d.toNat ∨ n = 0) → g.kget n = i.g.kget n) ∧
        (f.d.toNat ≠ 0 → ∀ l, l < 32 → inSet (g.kget f.d.toNat) l = (i.uni (src10 f.a)).getLsbD l)))

/-- R154, R156, R67 and R68: GTOV writes a uniform value and VLDI its literal into v_d of every active lane; PADD writes A + B + IMM20
and PSUB A − B modulo 2^64 and never trap. -/
def Obligations.WholeRegisterWrites : Prop :=
  ∀ (s : State) (i : Iss),
    (∀ f : FmtM, dvOk f.d.toNat i.g.budget = true → (src10 f.a).uniform = true → Issues s i .none [] →
      ∃ t g, exec (.gtov f) s = .next t ∧ VecDone s t i 2 g f.d.toNat f.g.toNat f.nw ∧ g.fflags = i.g.fflags ∧
        ∀ l, inSet (written i f.g.toNat f.nw) l = true → g.vget f.d.toNat l = i.uni (src10 f.a)) ∧
    (∀ f : FmtWL, dvOk f.w.m.d.toNat i.g.budget = true → Issues s i .none [] →
      ∃ t g, exec (.vldi f) s = .next t ∧ VecDone s t i 5 g f.w.m.d.toNat f.w.m.g.toNat f.w.m.nw ∧ g.fflags = i.g.fflags ∧
        ∀ l, inSet (written i f.w.m.g.toNat f.w.m.nw) l = true → g.vget f.w.m.d.toNat l = f.lit) ∧
    (∀ f : FmtW, dvOk f.m.d.toNat i.g.budget = true → Issues s i .none (srcsM f.m 2) →
      (∃ t g, exec (.padd f) s = .next t ∧ VecDone s t i 3 g f.m.d.toNat f.m.g.toNat f.m.nw ∧ g.fflags = i.g.fflags ∧
        ∀ l, inSet (written i f.m.g.toNat f.m.nw) l = true →
          g.vget f.m.d.toNat l = i.read (src10 f.m.a) l 15 + i.read (src10 f.m.b) l 15 + f.imm.signExtend 64) ∧
      (∃ t g, exec (.psub f) s = .next t ∧ VecDone s t i 3 g f.m.d.toNat f.m.g.toNat f.m.nw ∧ g.fflags = i.g.fflags ∧
        ∀ l, inSet (written i f.m.g.toNat f.m.nw) l = true →
          g.vget f.m.d.toNat l = i.read (src10 f.m.a) l 15 - i.read (src10 f.m.b) l 15))

/-! ## Latches, modes and branches -/

/-- R145 (with `WriteDst` of R42): a completed instruction whose destination is a vector register, NW or not, shifts the latches. L1 takes
the result in the active lanes and 0 in the others, L2 to L4 take what L1 to L3 held, and at most four are filled. The run goes on at the
next instruction with the same sub-group when RB is 0 and no other READY lane stands there (R351). The first part gives the result of the
integer minors; the second says of floating-point minors, cross-lane moves, CVT, GTOV, LD of any count and CSRD of a lane's register that
L1 takes what v_d takes under NW = 0. R41: after a pair L1 holds slot Y's result and L2 slot X's. -/
def Obligations.LatchesShift : Prop :=
  (∀ (s : State) (i : Iss) (f : FmtM), dvOk f.d.toNat i.g.budget = true → ∀ x ∈ intMinors f,
    (tyInt f.ty.toNat = true ∨ (x.logic = true ∧ f.ty.toNat = 15)) → Issues s i (vintPfx x.sat f.ty.toNat) (srcsM f x.n) →
    f.rb = false → i.run.sub ≠ 0 →
    (∀ l, l < 32 → inSet i.sub l = false → (i.g.lane l).st = .ready → (i.g.lane l).pc ≠ i.run.pc + 8) →
    let ty := f.ty.toNat
    let val (l k : Nat) : Int :=
      x.val ty (srcElem i (srcsM f x.n) ty 0 l k) (srcElem i (srcsM f x.n) ty 1 l k) (srcElem i (srcsM f x.n) ty 2 l k)
    ∃ t r, exec x.ins s = .next t ∧ ((t.core i.core).port i.port).run = some r ∧ r.filled = min (i.run.filled + 1) 4 ∧
      r.sub = i.run.sub ∧ r.slot = i.run.slot ∧ r.pc = i.run.pc + 8 ∧ r.count = i.run.count + 1 ∧ r.pfx = none ∧
      (∀ l k, inSet (i.act f.g.toNat) l = true → k < tyP ty →
        sube (tyW ty) k (sget r.latch l) = fitted (x.sat && i.modes.sat) ty (val l k)) ∧
      (∀ l, l < 32 → inSet (i.act f.g.toNat) l = false → sget r.latch l = 0) ∧
      (∀ n l, n < 3 → l < 32 → sget r.latch (32 * (n + 1) + l) = sget i.run.latch (32 * n + l))) ∧
  (∀ (s : State) (i : Iss) (f : FmtM), dvOk f.d.toNat i.g.budget = true → RunOn i f.rb 2 →
    let shifts (ins : FmtM → Instr) : Prop := ShiftsResult s i (fun nw => ins { f with nw := nw }) 2 f.d.toNat (i.act f.g.toNat)
    (tyF4 f.ty.toNat = true →
      ∀ x ∈ [(Instr.fadd, 2), (.fsub, 2), (.fmul, 2), (.ffma, 3), (.ffms, 3), (.fmin, 2), (.fmax, 2), (.fabs, 1), (.fneg, 1), (.fround, 1)],
        Issues s i .float (srcsM f x.2) → ImmFit f.ty.toNat (srcsM f x.2) → shifts x.1) ∧
    (f.ty ≠ 14 → ∀ x ∈ [(Instr.xget, 2), (.xshfl, 2), (.xput, 3)],
      Issues s i .none (srcsM f x.2) → ImmFit f.ty.toNat (srcsM f x.2) → shifts x.1) ∧
    (∀ (code : Nat) (v : Int), src10 f.b = .imm v code → f.ty.toNat ≤ 13 → code % 16 ≤ 13 → code % 16 ≠ f.ty.toNat →
      tyW (code % 16) ≤ tyW f.ty.toNat → code / 16 < tyW f.ty.toNat / tyW (code % 16) → Issues s i .conv [src10 f.a] →
      ((src10 f.a).isImm = true → immOk (code % 16) = true) → shifts .cvt) ∧
    ((src10 f.a).uniform = true → Issues s i .none [] → shifts .gtov)) ∧
  (∀ (s : State) (i : Iss) (f : FmtW), RunOn i f.m.rb 3 →
    let d := f.m.d.toNat
    let n := memCount f.aux
    let size := n * memW f.m.ty.toNat
    let m := i.act f.m.g.toNat
    let shifts (ins : FmtW → Instr) : Prop := ShiftsResult s i (fun nw => ins { f with m := { f.m with nw := nw } }) 3 d m
    (memBad f = false → wScopeBad f = false → wRel f = false → vRangeOk d n i.g.budget = true → (src10 f.m.a).address = true →
      Issues s i .none (srcsM f.m 1) → s.stalls i false = false → Walked s i (eas f size i) →
      f.promo = false → (∃ loc, AllPass s i .read 0 size size m (ea i f) loc) → shifts .ld) ∧
    (dvOk d i.g.budget = true → Issues s i .none [] → s.stalls i false = false → privileged i.t i.g = true →
      (∃ k, csrNum f = some k ∧ csrLane k = true) →
      shifts .csrd)) ∧
  (∀ (s : State) (i : Iss) (f : FmtD) (ox oy : SlotOp), slotReserved f.x.op.toNat = false → slotReserved f.y.op.toNat = false →
    Issues s i .none ((slotSrcs f.x ++ slotSrcs f.y).map Prod.fst) → dvOk f.x.d.toNat i.g.budget = true →
    dvOk f.y.d.toNat i.g.budget = true → slotOp f.x.op.toNat = some ox → slotOp f.y.op.toNat = some oy → badPair f = false →
    RunOn i f.rb 2 →
    ∃ t u g r, exec (.pair f) s = .next t ∧ exec (.pair { f with nw := false }) s = .next u ∧ u.group? i.key = some g ∧
      ((t.core i.core).port i.port).run = some r ∧ r.filled = min (i.run.filled + 2) 4 ∧ r.sub = i.run.sub ∧ r.pc = i.run.pc + 8 ∧
      (∀ l, inSet (i.act 0) l = true → sget r.latch l = g.vget f.y.d.toNat l ∧ sget r.latch (32 + l) = g.vget f.x.d.toNat l) ∧
      (∀ l, l < 32 → inSet (i.act 0) l = false → sget r.latch l = 0 ∧ sget r.latch (32 + l) = 0) ∧
      ∀ n l, n < 2 → l < 32 → sget r.latch (32 * (n + 2) + l) = sget i.run.latch (32 * n + l))

/-- R30, R37, R361, R170, R171, R178 and R203: a prefix is held for the next word with the run one word on; NOP does nothing and IDEM
starts an idempotent region at the next instruction; MODE has its value stand from the group's next run and MODER reads FMODE; VDITH
sets or advances the dither phase only; ATSEL selects a bank or none, and parks its sub-group while the bank that it has selected loads. -/
def Obligations.ModesAndRegions : Prop :=
  ∀ (s : State) (i : Iss),
    (∀ f : FmtP, s.iss? = some i → i.run.count + 1 < Config.runLimit → i.run.pfx = none → f.rb = false →
      ∃ t r, exec (.pfx f) s = .next t ∧ ((t.core i.core).port i.port).run = some r ∧ r.pfx = some f ∧ r.pc = i.run.pc + 4 ∧
        r.sub = i.run.sub ∧ r.latch = i.run.latch ∧ r.filled = i.run.filled ∧ t.group? i.key = some i.g ∧
        Untouched s t i.key) ∧
    (∀ f : FmtS, Issues s i .none [] → f.nw = false →
      ∃ t g, exec (.nop f) s = .next t ∧ ScalarDone s t i 1 g ∧ g.g = i.g.g ∧ g.k = i.g.k ∧ g.fflags = i.g.fflags) ∧
    (∀ f : FmtW, Issues s i .none [] → f.m.nw = false →
      ∃ t g, exec (.idem f) s = .next t ∧ t.group? i.key = some g ∧ g.v = i.g.v ∧ g.g = i.g.g ∧ g.k = i.g.k ∧ g.j = i.g.j ∧
        g.fmode = i.g.fmode ∧ g.fflags = i.g.fflags ∧ SpecialsKept i.g g ∧ Untouched s t i.key ∧
        (∀ l, inSet i.sub l = true → (g.lane l).pc = i.run.pc + 12 ∧ (g.lane l).tregion = i.run.pc + 12) ∧
        ∀ l, l < 32 → inSet i.sub l = false → g.lane l = i.g.lane l) ∧
    (∀ f : FmtM, Issues s i .none [] → f.rb = true → f.nw = false → (src10 f.a).uniform = true →
      fmodeOk (i.uni (src10 f.a)).toNat = true →
      ∃ t g, exec (.mode f) s = .next t ∧ Completed s t i 2 g ∧ g.v = i.g.v ∧ g.g = i.g.g ∧ g.k = i.g.k ∧ g.j = i.g.j ∧
        g.fflags = i.g.fflags ∧ g.fmode = i.g.fmode ∧ g.fmodeNext = some (BitVec.ofNat 32 ((i.uni (src10 f.a)).toNat % 32))) ∧
    (∀ f : FmtM, Issues s i .none [] → f.nw = false → f.d.toNat < 64 →
      ∃ t g, exec (.moder f) s = .next t ∧ UniformDone s t i 2 g f.d.toNat (i.g.fmode.setWidth 64)) ∧
    (∀ f : FmtM, Issues s i .float [] → f.nw = false →
      (∀ v : Int, src10 f.b = .imm v 0 → (src10 f.a).uniform = true →
        ∃ t g, exec (.vdithSet f) s = .next t ∧ Completed s t i 2 g ∧ g.v = i.g.v ∧ g.g = i.g.g ∧ g.k = i.g.k ∧ g.j = i.g.j ∧
          g.fflags = i.g.fflags ∧ g.fmodeNext = i.g.fmodeNext ∧
          ∀ n, n < 32 → g.fmode.getLsbD n =
            if 8 ≤ n ∧ n ≤ 13 then (i.uni (src10 f.a)).getLsbD (n - 8) else i.g.fmode.getLsbD n) ∧
      (∃ t g, exec (.vdithAdv f) s = .next t ∧ Completed s t i 2 g ∧ g.v = i.g.v ∧ g.g = i.g.g ∧ g.k = i.g.k ∧ g.j = i.g.j ∧
        g.fflags = i.g.fflags ∧ g.fmodeNext = i.g.fmodeNext ∧
        fld g.fmode.toNat 8 6 = (fld i.g.fmode.toNat 8 6 + 17) % 64 ∧
        ∀ n, n < 32 → (n < 8 ∨ 13 < n) → g.fmode.getLsbD n = i.g.fmode.getLsbD n)) ∧
    (∀ f : FmtM, Issues s i .none [] → f.nw = false → (src10 f.a).uniform = true →
      let n := (i.uni (src10 f.a)).toNat
      n < 3 → (n = 2 ∨ ((s.core i.core).actBank n).st ≠ .loading) →
      ∃ t g, exec (.atsel f) s = .next t ∧ t.group? i.key = some g ∧ g.actSel = (if n = 2 then none else some n) ∧
        RegistersKept i.g g ∧ g.fmodeNext = i.g.fmodeNext ∧ SpecialsKept { i.g with actSel := g.actSel } g ∧ Untouched s t i.key ∧
        (∀ l, inSet i.sub l = true → (g.lane l).pc = i.run.pc + 8 ∧ (g.lane l).st = (i.g.lane l).st) ∧
        ∀ l, l < 32 → inSet i.sub l = false → g.lane l = i.g.lane l) ∧
    (∀ f : FmtM, Issues s i .none [] → f.nw = false → (src10 f.a).uniform = true →
      let n := (i.uni (src10 f.a)).toNat
      n < 2 → ((s.core i.core).actBank n).st = .loading →
      ∃ t g, exec (.atsel f) s = .next t ∧ t.group? i.key = some g ∧ g.actSel = some n ∧
        RegistersKept i.g g ∧ g.fmodeNext = i.g.fmodeNext ∧ SpecialsKept { i.g with actSel := g.actSel } g ∧ Untouched s t i.key ∧
        (∀ l, inSet i.sub l = true → (g.lane l).pc = i.pci ∧ (g.lane l).st = .parked (.select n)) ∧
        ∀ l, l < 32 → inSet i.sub l = false → g.lane l = i.g.lane l)

/-- R356 and R358: BR and BRN move the lanes whose bit of kK is 1 or 0, BRA all active lanes, BRC those whose A is not zero (is zero, in
the form BRC.z), by four times their offset; CALL also writes the return PC to v_d; RET and JMPI go to A, or A plus an addend. The other
lanes fall through, and a lane of RET or JMPI whose target is no multiple of 4 traps with MISALIGNED and TADDR the target. -/
def Obligations.Branches : Prop :=
  ∀ (s : State) (i : Iss),
    (∀ f : FmtB, Issues s i .none [] → f.rb = true → f.nw = false → ∀ x ∈ [(Instr.br f, true), (Instr.brn f, false)],
      ∃ t g, exec x.1 s = .next t ∧ g.v = i.g.v ∧ Flowed s t i g fun l =>
        if inSet (i.g.kget f.k.toNat) l = x.2 then i.run.pc + 4 * f.off.signExtend 64 else i.run.pc + 4) ∧
    (∀ f : FmtW, f.m.rb = true → f.m.nw = false →
      let goes (p : Nat → Bool) (l : Nat) : BitVec 64 :=
        if inSet (i.act f.m.g.toNat) l && p l then i.pci + 4 * f.imm.signExtend 64 else i.run.pc + 12
      (Issues s i .none [] → ∃ t g, exec (.bra f) s = .next t ∧ g.v = i.g.v ∧ Flowed s t i g (goes fun _ => true)) ∧
      (Issues s i .none (srcsM f.m 1) →
        ∃ t g, exec (.brc f) s = .next t ∧ g.v = i.g.v ∧
          Flowed s t i g (goes fun l => decide (i.read (src10 f.m.a) l 15 ≠ 0) != f.aux.getLsbD 0))) ∧
    (∀ f : FmtW, f.m.rb = true → Issues s i .none [] → dvOk f.m.d.toNat i.g.budget = true →
      ∃ t g, exec (.call f) s = .next t ∧ VectorsKept i.g g f.m.d.toNat (written i f.m.g.toNat f.m.nw) ∧
        (∀ l, inSet (written i f.m.g.toNat f.m.nw) l = true → g.vget f.m.d.toNat l = i.pci + 12) ∧
        Flowed s t i g fun l => if inSet (i.act f.m.g.toNat) l then i.pci + 4 * f.imm.signExtend 64 else i.run.pc + 12) ∧
    (∀ f : FmtW, f.m.rb = true → f.m.nw = false → (src10 f.m.a).address = true → Issues s i .none (srcsM f.m 1) →
      ∀ x ∈ [(Instr.ret f, (0 : BitVec 64)), (Instr.jmpi f, f.imm.signExtend 64)],
        let dest (l : Nat) : BitVec 64 := i.read (src10 f.m.a) l 15 + x.2
        ((∀ l, inSet (i.act f.m.g.toNat) l = true → (dest l).toNat % 4 = 0) →
          ∃ t g, exec x.1 s = .next t ∧ g.v = i.g.v ∧
            Flowed s t i g fun l => if inSet (i.act f.m.g.toNat) l then dest l else i.run.pc + 12) ∧
        (∃ t, exec x.1 s = .next t ∧ ∀ g, t.group? i.key = some g →
          ∀ l, inSet (i.act f.m.g.toNat) l = true → (dest l).toNat % 4 ≠ 0 →
            (g.lane l).tcause = 8 ∧ (g.lane l).taddr = dest l ∧ (g.lane l).tpc = i.pci))

/-! ## Leaving, budgets, spawning -/

/-- R358, R344 and R371: EXIT moves the active lanes to EXITED, takes their bits from every rejoin register and releases those that are
then empty; the other lanes of the sub-group go on; when every lane has exited the group leaves its slot. R363 and R364: JENR adds the
active lanes of a mask to j_d; JWAIT, JSTRK and JCLR remove the active lanes, or all, and release the lanes parked on j_d when it
becomes empty; a JWAIT that leaves it other than empty parks its active lanes. No other register changes. -/
def Obligations.LanesLeave : Prop :=
  (∀ (s : State) (i : Iss) (f : FmtW), f.m.rb = true → f.m.nw = false → Issues s i .none [] →
    let m := i.act f.m.g.toNat
    let j (d : Nat) : LaneSet := if d < 8 ∧ m ≠ 0 then i.g.jget d &&& ~~~ m else BitVec.allOnes 32
    ((∃ l, l < 32 ∧ inSet m l = false ∧ (i.g.lane l).st ≠ .exited) →
      ∃ t g, exec (.exit f) s = .next t ∧ t.group? i.key = some g ∧ g.v = i.g.v ∧ g.g = i.g.g ∧ g.k = i.g.k ∧
        SpecialsKept i.g g ∧ (∀ d, d < 8 → g.jget d = i.g.jget d &&& ~~~ m) ∧
        (NoBarrierWait s → Untouched s t i.key ∧ Rejoined i.g g j i.sub) ∧
        (∀ l, inSet m l = true → (g.lane l).st = .exited) ∧
        ∀ l, inSet i.sub l = true → inSet m l = false → (i.g.lane l).st = .ready →
          (g.lane l).st = .ready ∧ (g.lane l).pc = i.run.pc + 12) ∧
    ((∀ l, l < 32 → inSet m l = true ∨ (i.g.lane l).st = .exited) → (∀ d, d < 8 → cvBound (i.g.cvget d) = false) →
      s.leaving i.key i.g = false → ∃ t, exec (.exit f) s = .next t ∧ t.group? i.key = none)) ∧
  (∀ (s : State) (i : Iss) (f : FmtM), f.nw = false → f.d.toNat < 8 → Issues s i .none [] →
    let d := f.d.toNat
    let m := i.act f.g.toNat
    let only (x : LaneSet) (n : Nat) : LaneSet := if n = d then x else BitVec.allOnes 32
    let done (ins : Instr) (x : LaneSet) : Prop :=
      ∃ t g, exec ins s = .next t ∧ t.group? i.key = some g ∧ g.v = i.g.v ∧ g.g = i.g.g ∧ g.k = i.g.k ∧
        g.fmode = i.g.fmode ∧ g.fflags = i.g.fflags ∧ SpecialsKept i.g g ∧ Untouched s t i.key ∧ g.jget d = x ∧
        (∀ n, n ≠ d → g.jget n = i.g.jget n) ∧ Rejoined i.g g (only x) i.sub ∧
        ∀ l, inSet i.sub l = true → (i.g.lane l).st = .ready → (g.lane l).st = .ready ∧ (g.lane l).pc = i.run.pc + 8
    (f.a.toNat < 8 →
      ∃ t g, exec (.jenr f) s = .next t ∧ Completed s t i 2 g ∧ g.v = i.g.v ∧ g.g = i.g.g ∧ g.k = i.g.k ∧
        g.fflags = i.g.fflags ∧ g.jget d = i.g.jget d ||| (i.g.kget f.a.toNat &&& m) ∧ ∀ n, n ≠ d → g.jget n = i.g.jget n) ∧
    done (.jstrk f) (i.g.jget d &&& ~~~ m) ∧ done (.jclr f) 0 ∧
    (i.g.jget d &&& ~~~ m = 0 → done (.jwait f) 0) ∧
    (i.g.jget d &&& ~~~ m ≠ 0 →
      ∃ t g, exec (.jwait f) s = .next t ∧ t.group? i.key = some g ∧ g.v = i.g.v ∧ g.g = i.g.g ∧ g.k = i.g.k ∧
        SpecialsKept i.g g ∧ Untouched s t i.key ∧ g.jget d = i.g.jget d &&& ~~~ m ∧ (∀ n, n ≠ d → g.jget n = i.g.jget n) ∧
        (∀ l, inSet m l = true → (g.lane l).st = .parked (.rejoin d) ∧ (g.lane l).pc = i.pci) ∧
        (∀ l, inSet i.sub l = true → inSet m l = false → (g.lane l).st = (i.g.lane l).st ∧ (g.lane l).pc = i.run.pc + 8) ∧
        ∀ l, l < 32 → inSet i.sub l = false → g.lane l = i.g.lane l))

/-- R143 and R144: a GROW to no more than the group holds does nothing; one that the pool can meet, with nobody waiting, takes the
blocks and stands from the next run; else the sub-group waits in the port's queue. SHRK drops the vector registers at and above 8 × t
and returns the blocks. R359 and R360: SPAWN puts the 64-byte record at a scratchpad offset at the tail of the context's launch queue
and writes all ones to k_d, or writes 0 and leaves a full queue; YIELD parks the sub-group for n turns of its group after the turn it
issues in, a count of more than 63 raising ILLEGAL_OPERAND; a turn counts when its run is over, and when no turn is left the lanes are
READY at the next instruction. -/
def Obligations.GroupChanges : Prop :=
  (∀ (s : State) (i : Iss) (f : FmtM), f.rb = true → f.nw = false → Issues s i .none [] → (src10 f.a).uniform = true →
    let n := (i.uni (src10 f.a)).toNat
    let port := (s.core i.core).port i.port
    let b := i.g.curBudget
    1 ≤ n → n ≤ 48 →
    (n ≤ b → ∃ t g, exec (.grow f) s = .next t ∧ Moved s t i 2 g ∧ RegistersKept i.g g ∧ Untouched s t i.key) ∧
    (b ≤ n → ∃ t g, exec (.shrk f) s = .next t ∧ Moved s t i 2 g ∧ RegistersKept i.g g ∧ Untouched s t i.key) ∧
    (b < n → port.waitq = [] → n - b ≤ port.pool →
      ∃ t g, exec (.grow f) s = .next t ∧ t.group? i.key = some g ∧ RegistersKept i.g g ∧ Untouched s t i.key ∧
        g.budgetNext = some n ∧ g.budget = i.g.budget ∧ ((t.core i.core).port i.port).pool = port.pool - (n - b) ∧
        ∀ l, inSet i.sub l = true → (g.lane l).pc = i.run.pc + 8 ∧ (g.lane l).st = (i.g.lane l).st) ∧
    (b < n → (port.waitq ≠ [] ∨ port.pool < n - b) →
      ∃ t g, exec (.grow f) s = .next t ∧ t.group? i.key = some g ∧ RegistersKept i.g g ∧ Untouched s t i.key ∧
        SpecialsKept i.g g ∧ ((t.core i.core).port i.port).pool = port.pool ∧
        ((t.core i.core).port i.port).waitq = port.waitq ++ [{ slot := keySlot i.key, lanes := i.sub, target := n }] ∧
        ∀ l, inSet i.sub l = true → (g.lane l).pc = i.pci ∧ (g.lane l).st = .parked .grow) ∧
    (n < b → port.waitq = [] →
      ∃ t g, exec (.shrk f) s = .next t ∧ t.group? i.key = some g ∧ g.budgetNext = some n ∧ Untouched s t i.key ∧
        ((t.core i.core).port i.port).pool = port.pool + (b - n) ∧
        (∀ r l, l < 32 → g.vget r l = if r < 8 * n then i.g.vget r l else 0) ∧ g.g = i.g.g ∧ g.k = i.g.k ∧ g.j = i.g.j ∧
        ∀ l, inSet i.sub l = true → (g.lane l).pc = i.run.pc + 8 ∧ (g.lane l).st = (i.g.lane l).st)) ∧
  ((∀ (s : State) (i : Iss) (f : FmtW), f.m.nw = false → f.m.d.toNat < 8 → (src10 f.m.a).isG = true → Issues s i .none [] →
    s.stalls i true = false →
    let off := (i.uni (src10 f.m.a)).toNat
    let b := teamPacket s i.t off
    off % 64 = 0 → off + 64 ≤ i.t.ringStart → absent (s.core i.core) (i.t.base + off) 64 = false → recBad b = false →
    s.queueBound i.c.lq i.c.num = true →
    ∃ t g, exec (.spawn f) s = .next t ∧ Moved s t i 3 g ∧ g.v = i.g.v ∧ g.g = i.g.g ∧ g.fflags = i.g.fflags ∧
      (∀ n, n ≠ f.m.d.toNat → g.kget n = i.g.kget n) ∧
      (f.m.d.toNat ≠ 0 → g.kget f.m.d.toNat = if (s.lqueue i.c.lq).full then 0 else BitVec.allOnes 32) ∧
      ((s.lqueue i.c.lq).full = true → t.lqueue i.c.lq = s.lqueue i.c.lq) ∧
      ((s.lqueue i.c.lq).full = false → (t.lqueue i.c.lq).recs = (s.lqueue i.c.lq).recs ++
        [{ bytes := b, pc := i.pci, who := some i.g.gid, peer := 0xFF }]) ∧
      ∀ space a, byteAt t space a = byteAt s space a) ∧
  (∀ (s : State) (i : Iss) (f : FmtW), f.m.nw = false → f.m.rb = true → (src10 f.m.a).uniform = true → Issues s i .none [] →
    let n := (i.uni (src10 f.m.a)).toNat
    ∃ t g, exec (.yield f) s = .next t ∧ t.group? i.key = some g ∧ RegistersKept i.g g ∧ SpecialsKept i.g g ∧
      (n ≤ 63 → Untouched s t i.key ∧ ∀ l, inSet i.sub l = true → (g.lane l).st = .parked (.turns (n + 1)) ∧ (g.lane l).pc = i.pci) ∧
      (63 < n → ∀ l, inSet i.sub l = true → (g.lane l).tcause = 2 ∧ (g.lane l).tpc = i.pci)) ∧
  (∀ (s : State) (c p n : Nat) (g : Group), s.group? (slotKey c p n) = some g →
    let port := (s.core c).port p
    (port.turn = none ∨ port.turn = some n ∨ port.run.isSome = true) →
    let gone : Nat := if port.turn = some n ∧ port.run = none then 1 else 0
    ∃ t g', exec (.yieldCountExpiry c p n) s = .next t ∧ t.group? (slotKey c p n) = some g' ∧ RegistersKept g g' ∧
      Untouched s t (slotKey c p n) ∧ ∀ l, l < 32 →
        (∀ k, (g.lane l).st = .parked (.turns k) →
          (k ≤ gone → (g'.lane l).st = .ready ∧ (g'.lane l).pc = (g.lane l).pc + 12) ∧
          (gone < k → (g'.lane l).st = .parked (.turns (k - gone)) ∧ (g'.lane l).pc = (g.lane l).pc)) ∧
        ((∀ k, (g.lane l).st ≠ .parked (.turns k)) → g'.lane l = g.lane l)))

/-! ## Memory -/

/-- R96 to R100: a load whose active lanes all pass gives v_d to v_(d + n − 1) of each the elements at its address, sign- or
zero-extended by TY, from the LLC or beyond at scope .dev and wider (a narrower one may take the bytes of an L1 copy, `loadBytes`);
nothing else of the registers changes, no byte of any memory does, and the region goes on. (`l1Settle`: which lines have left the L1 is
free, R86.) A lane whose address is not a multiple of the access size traps with MISALIGNED, TADDR being its address; one that meets a
replayable cause replays at its TREGION and is posted (R42, R376). -/
def Obligations.Loads : Prop :=
  ∀ (s : State) (i : Iss) (f : FmtW),
    let ty := f.m.ty.toNat
    let w := memW ty
    let n := memCount f.aux
    let m := i.act f.m.g.toNat
    memBad f = false → wScopeBad f = false → wRel f = false → vRangeOk f.m.d.toNat n i.g.budget = true →
    (src10 f.m.a).address = true → Issues s i .none (srcsM f.m 1) → s.stalls i false = false →
    Walked s i (eas f (n * w) i) →
    (∀ loc, AllPass s i .read 0 (n * w) (n * w) m (ea i f) loc → NoPromotion s i f.promo m loc →
      let bytes (l : Nat) : List Byte :=
        (s.l1Settle i.core ((lanesOf m).map fun j => { lane := j, va := ea i f j, loc := loc j })).loadBytes i.core f.scope.toNat
          (loc l).space (loc l).pa (n * w)
      (2 ≤ f.scope.toNat → ∀ l, bytes l = s.readBytes (loc l).space (loc l).pa (n * w)) ∧
      ∃ t g, exec (.ld f) s = .next t ∧ Moved s t i 3 g ∧ RestKept s t i.key ∧
        VectorsLoaded i.g g f.m.d.toNat n (written i f.m.g.toNat f.m.nw) (fun k l => element_ ty w k (bytes l)) ∧
        ∀ l, l < 32 → (g.lane l).tregion = (i.g.lane l).tregion) ∧
    (∃ t g, exec (.ld f) s = .next t ∧ t.group? i.key = some g ∧
      (∀ l, inSet m l = true → ea i f l % (n * w) ≠ 0 →
        (g.lane l).tcause = 8 ∧ (g.lane l).taddr = BitVec.ofNat 64 (ea i f l) ∧ (g.lane l).tpc = i.pci) ∧
      ∀ l cause, inSet m l = true → ea i f l % (n * w) = 0 → s.resolve6 i.c i.priv .read (ea i f l) (n * w) = .error cause →
        replayable cause = true → ReplayTaken s t i g l cause (ea i f l) 0)

/-- R96 to R100 for a store whose active lanes all pass and lie in local or host memory, which holds no error: each byte of a lane's
address range takes the lane's byte, the highest active lane's where ranges overlap, and every byte outside the ranges reads as before,
but for the cleared bitmap, whose bit of a page goes with the first write to the page (R94). No register changes. A misaligned lane
traps, and one that meets a replayable cause replays, as a load's does. -/
def Obligations.Stores : Prop :=
  ∀ (s : State) (i : Iss) (f : FmtW),
    let ty := f.m.ty.toNat
    let w := memW ty
    let n := memCount f.aux
    let m := i.act f.m.g.toNat
    let b := src10 f.m.b
    memBad f = false → f.scope.toNat < 5 → f.promo = false → wAcq f = false → f.m.nw = false → storeSrcOk i b ty n = true →
    (src10 f.m.a).address = true → Issues s i .none (srcsM f.m 2) → s.stalls i (wRelWide f) = false →
    Walked s i (eas f (n * w) i) →
    (∀ loc, AllPass s i .write 1 (n * w) (n * w) m (ea i f) loc →
      (∀ l, inSet m l = true → (loc l).space = 0 ∨ ((loc l).space = 1 ∧ s.unreachable = false)) →
      s.eccBad = [] → s.tagBad = [] →
      ∃ t g, exec (.st f) s = .next t ∧ Stored s t i 3 g ∧ RegistersKept i.g g ∧
        (∀ l k, inSet m l = true → k < n * w →
          (∀ l', inSet m l' = true → l < l' → (loc l').space = (loc l).space → (loc l').pa ≠ (loc l).pa) →
          byteAt t (loc l).space ((loc l).pa + k) = [(storeBytes i b ty w n l).getD k 0]) ∧
        ∀ space a, (∀ l, inSet m l = true → (loc l).space = space → a < (loc l).pa ∨ (loc l).pa + n * w ≤ a) →
          NotCleared space a m loc → byteAt t space a = byteAt s space a) ∧
    (∃ t g, exec (.st f) s = .next t ∧ t.group? i.key = some g ∧
      (∀ l, inSet m l = true → ea i f l % (n * w) ≠ 0 →
        (g.lane l).tcause = 8 ∧ (g.lane l).taddr = BitVec.ofNat 64 (ea i f l) ∧ (g.lane l).tpc = i.pci) ∧
      ∀ l cause, inSet m l = true → ea i f l % (n * w) = 0 → s.resolve6 i.c i.priv .write (ea i f l) (n * w) = .error cause →
        replayable cause = true → ReplayTaken s t i g l cause (ea i f l) 1)

/-- R148 to R152: LDS reads and STS writes the team's scratchpad at offsets of its allocation, aligned and inside it; LDS waits while a
chunk that it reads is absent. Memory does not change, nor do scratchpad bytes outside the stored ranges. -/
def Obligations.ScratchpadAccess : Prop :=
  ∀ (s : State) (i : Iss) (f : FmtW),
    let ty := f.m.ty.toNat
    let w := memW ty
    let n := memCount f.aux
    let m := i.act f.m.g.toNat
    let at_ (l : Nat) : Nat := i.t.base + ea i f l
    memBad f = false → f.scope.toNat < 2 → f.promo = false → (src10 f.m.a).address = true → s.stalls i false = false →
    (∀ l, inSet m l = true → ea i f l % (n * w) = 0 ∧ ea i f l + n * w ≤ i.t.size) →
    (wRel f = false → vRangeOk f.m.d.toNat n i.g.budget = true → Issues s i .none (srcsM f.m 1) →
      ((∀ l, inSet m l = true → absent (s.core i.core) (at_ l) (n * w) = false) →
        ∃ t g, exec (.lds f) s = .next t ∧ Completed s t i 3 g ∧
          VectorsLoaded i.g g f.m.d.toNat n (written i f.m.g.toNat f.m.nw)
            (fun k l => element_ ty w k (sread (s.core i.core).spad (at_ l) (n * w)))) ∧
      ((∃ l, inSet m l = true ∧ absent (s.core i.core) (at_ l) (n * w) = true) →
        ∃ t g, exec (.lds f) s = .next t ∧ t.group? i.key = some g ∧ RegistersKept i.g g ∧ Untouched s t i.key ∧
          ∀ l, inSet i.sub l = true → (g.lane l).st = .parked .chunks ∧ (g.lane l).pc = i.pci)) ∧
    (wAcq f = false → f.m.nw = false → storeSrcOk i (src10 f.m.b) ty n = true → Issues s i .none (srcsM f.m 2) →
      ∃ t g, exec (.sts f) s = .next t ∧ Stored s t i 3 g ∧ RegistersKept i.g g ∧
        (∀ l k, inSet m l = true → k < n * w → (∀ l', inSet m l' = true → l < l' → ea i f l' ≠ ea i f l) →
          sget (t.core i.core).spad (at_ l + k) = (storeBytes i (src10 f.m.b) ty w n l).getD k 0) ∧
        (∀ a, (∀ l, inSet m l = true → a < at_ l ∨ at_ l + n * w ≤ a) → sget (t.core i.core).spad a = sget (s.core i.core).spad a) ∧
        (∀ c, c ≠ i.core → (t.core c).spad = (s.core c).spad) ∧ ∀ space a, byteAt t space a = byteAt s space a)

/-- R103 to R105: the active lanes of an atomic act one after another in ascending order: each finds what the one before it at the same
location left (`seen`), gives the old value to v_d, extended as a load's, and leaves the result of Table 4.12; bytes elsewhere and other
registers do not change. -/
def Obligations.Atomics : Prop :=
  ∀ (s : State) (i : Iss) (f : FmtW), ∀ x ∈ atomics f,
    let ty := f.m.ty.toNat
    let w := memW ty
    let m := i.act f.m.g.toNat
    let b (l : Nat) : Nat := (i.read (src10 f.m.b) l ty).toNat % 2 ^ (8 * w)
    let c (l : Nat) : Nat := (i.read (src10 f.m.c) l ty).toNat % 2 ^ (8 * w)
    ty ∈ x.2.1 → wScopeBad f = false → dvOk f.m.d.toNat i.g.budget = true → (src10 f.m.a).address = true →
    Issues s i .none (srcsM f.m (if x.2.2.2 then 3 else 2)) → s.stalls i (wRelWide f) = false →
    Walked s i (eas f w i) → ∀ loc, AllPass s i .atomic 3 w w m (ea i f) loc → NoPromotion s i f.promo m loc →
      let same (l l' : Nat) : Prop := (loc l').space = (loc l).space ∧ (loc l').pa = (loc l).pa
      ∃ (t : State) (g : Group) (seen : Nat → Nat), exec x.1 s = .next t ∧ Stored s t i 3 g ∧
        VectorsLoaded i.g g f.m.d.toNat 1 (written i f.m.g.toNat f.m.nw) (fun _ l => extend ty w (seen l)) ∧
        (∀ l, inSet m l = true →
          ((∀ l', inSet m l' = true → l' < l → ¬ same l l') → seen l = s.readNat (loc l).space (loc l).pa w) ∧
          (∀ l', inSet m l' = true → l' < l → same l l' → (∀ j, inSet m j = true → l' < j → j < l → ¬ same l j) →
            seen l = atomResult x.2.2.1 ty w (seen l') (b l') (c l') % 2 ^ (8 * w)) ∧
          ((∀ l', inSet m l' = true → l < l' → ¬ same l l') →
            t.readNat (loc l).space (loc l).pa w = atomResult x.2.2.1 ty w (seen l) (b l) (c l) % 2 ^ (8 * w))) ∧
        ∀ space a, (∀ l, inSet m l = true → (loc l).space = space → a < (loc l).pa ∨ (loc l).pa + w ≤ a) →
          NotCleared space a m loc → byteAt t space a = byteAt s space a

/-! ## Fences, monitors, team barriers -/

/-- R282, R347, R101 and R102: a FENCE stands in its group until it completes, and while it stands a load, store or prefetch of its lanes
stalls its port, for which a cycle passes (log entry 8); it is gone once no store of its lanes to a peer is open, and at .dev and wider
the core's L1 is then empty (R274). A result that arrives is awaited no more (which results are awaited is log entry 9); that of a CSRD
of FFLAGS takes the flags that came in time (R169; which of them do is free). PFTCH never
traps and changes no register, and CFLUSH takes the lanes' lines out of the L1, and with INV at .sys out of the LLC. None of them changes
a byte. -/
def Obligations.FencesAndLines : Prop :=
  (∀ (s : State) (i : Iss) (f : FmtW), f.m.nw = false →
    (Issues s i .none [] → f.ord = 3 → f.scope.toNat < 5 → f.promo = false →
      ∃ t g, exec (.fence f) s = .next t ∧ Moved s t i 3 g ∧ RegistersKept i.g g ∧ RestKept s t i.key ∧
        g.awaits = i.g.awaits ++ [{ reg := .fence f.scope.toNat, lanes := i.sub }]) ∧
    (∀ sc lanes, { reg := .fence sc, lanes := lanes } ∈ i.g.awaits → lanes &&& i.sub ≠ 0 → memBad f = false →
      (src10 f.m.a).address = true →
      let stalled (ins : Instr) : Prop := exec ins s = .next (s.elapse 1)
      s.stalls i false = true ∧ (Issues s i .none (srcsM f.m 1) → f.hint ≠ 3 → stalled (.pftch f)) ∧
      (Issues s i .none (srcsM f.m 1) → wScopeBad f = false → wRel f = false →
        vRangeOk f.m.d.toNat (memCount f.aux) i.g.budget = true → stalled (.ld f)) ∧
      (Issues s i .none (srcsM f.m 2) → f.scope.toNat < 5 → f.promo = false → wAcq f = false →
        storeSrcOk i (src10 f.m.b) f.m.ty.toNat (memCount f.aux) = true → stalled (.st f))) ∧
    (memBad f = false → (src10 f.m.a).address = true → Issues s i .none (srcsM f.m 1) → s.stalls i false = false →
      Walked s i (eas f (memCount f.aux * memW f.m.ty.toNat) i) → f.hint ≠ 3 → ∃ t g, exec (.pftch f) s = .next t ∧ Moved s t i 3 g ∧ RegistersKept i.g g ∧ RestKept s t i.key ∧
        g.awaits = i.g.awaits ∧ t.remotes = s.remotes) ∧
    ((f.scope = 2 ∨ f.scope = 4) → wAcq f = false → (src10 f.m.a).address = true → Issues s i .none (srcsM f.m 1) →
      s.stalls i (wRelWide f) = false → Walked s i (eas f 1 i) → ∀ loc : Nat → Loc,
        (∀ l, inSet (i.act f.m.g.toNat) l = true → s.resolve6 i.c i.priv .read (ea i f l) 1 = .ok (loc l)) →
      ∃ t g, exec (.cflush f) s = .next t ∧ Moved s t i 3 g ∧ RegistersKept i.g g ∧ RestKept s t i.key ∧
        ∀ l, inSet (i.act f.m.g.toNat) l = true →
          (∀ x ∈ (t.core i.core).l1, x.line ≠ locKey (loc l).space (loc l).pa / 128) ∧
          (f.scope = 4 → f.aux.getLsbD 0 = true → (loc l).space = 0 →
            ∀ x ∈ t.llc, ¬ (x.world = s.teamWorld i.t ∧ x.line = (loc l).pa / 128)))) ∧
  (∀ (s : State) (c p n : Nat) (g : Group) (pre post : List Await) (a : Await), s.group? (slotKey c p n) = some g →
    g.awaits = pre ++ a :: post →
    (∀ sc, a.reg = .fence sc → (∀ x ∈ pre, ∀ k, x.reg ≠ .fence k) → s.remotes = [] →
      ∃ t g', exec (.fenceComplete c p n) s = .next t ∧ t.group? (slotKey c p n) = some g' ∧ g'.awaits = pre ++ post ∧
        RegistersKept g g' ∧ g'.lanes = g.lanes ∧ Untouched s t (slotKey c p n) ∧ (2 ≤ sc → (t.core c).l1 = [])) ∧
    ((∀ sc, a.reg ≠ .fence sc) →
      ∃ t g', exec (.resultArrival c p n pre.length) s = .next t ∧ t.group? (slotKey c p n) = some g' ∧
        g'.awaits = pre ++ post ∧ RegistersKept { g with g := g'.g } g' ∧ (∀ r, a.reg ≠ .g r → g'.gget r = g.gget r) ∧
        (∀ r, a.reg = .g r → g'.gget r = g.gget r ||| ((g.csrd.find? fun w => w.reg == r).map fun w => w.late.setWidth 64).getD 0) ∧
        g'.lanes = g.lanes ∧ Untouched s t (slotKey c p n)))

/-- R106 to R109: MARM sets the group's monitor on the 128-byte line of its address. MWAIT gives g_d the word at its address when the
word differs from B, or when its sub-group returns from the park; when they are equal, nothing has been written to the line and a
monitor is to be had, it arms the monitor and the sub-group parks. An MWAIT whose time is over returns. -/
def Obligations.Monitors : Prop :=
  (∀ (s : State) (i : Iss) (f : FmtW) (loc : Loc), Issues s i .none [] → (src10 f.m.a).isG = true → f.m.nw = false →
    s.stalls i false = false → Walked s i [ea i f 0] →
    let here (w : Nat) : Prop :=
      Passes (s.checkLane i .read 0 w w (lowestLane i) (ea i f 0)) { lane := lowestLane i, va := ea i f 0, loc := loc }
    let line := loc.pa / 128 * 128
    (here 1 → ∃ t g, exec (.marm f) s = .next t ∧ t.group? i.key = some g ∧ RegistersKept i.g g ∧ RestKept s t i.key ∧
      g.mon = { armed := true, va := ea i f 0, space := loc.space, line := line, written := false, deadline := 0 } ∧
      ∀ l, inSet i.sub l = true → (i.g.lane l).st = .ready → (g.lane l).st = .ready ∧ (g.lane l).pc = i.run.pc + 12) ∧
    (let w := memW f.m.ty.toNat
     let value := s.readNat loc.space loc.pa w
     let mine := i.g.mon.armed = true ∧ i.g.mon.space = loc.space ∧ i.g.mon.line = line
     (f.m.ty = 6 ∨ f.m.ty = 7 ∨ f.m.ty = 15) → wScopeBad f = false → wRel f = false → NoPromotion s i f.promo (BitVec.ofNat 32 (2 ^ lowestLane i)) (fun _ => loc) →
      f.m.d.toNat < 64 → (src10 f.m.b).uniform = true → here w →
      let differs : Prop := value ≠ (i.uni (src10 f.m.b)).toNat % 2 ^ (8 * w)
      ((i.run.sub ≠ 0 ∧ ∀ l, inSet i.sub l = true → (i.g.lane l).ret = true) ∨
          ((∀ l, inSet i.sub l = true → (i.g.lane l).ret = false) ∧ (differs ∨ (mine ∧ i.g.mon.written = true))) →
        ∃ t g, exec (.mwait f) s = .next t ∧ t.group? i.key = some g ∧ RestKept s t i.key ∧
          g.gget f.m.d.toNat = BitVec.ofNat 64 value ∧ (∀ n, n ≠ f.m.d.toNat → g.gget n = i.g.gget n) ∧ g.v = i.g.v ∧ g.k = i.g.k ∧
          ∀ l, inSet i.sub l = true → (g.lane l).st = (i.g.lane l).st ∧ (g.lane l).pc = i.run.pc + 12) ∧
      ((∀ l, inSet i.sub l = true → (i.g.lane l).ret = false) → ¬ differs → ¬ (mine ∧ i.g.mon.written = true) →
        (s.monitorsFull loc.space loc.pa = false ∨ i.g.monitorAt loc.space loc.pa = true) →
        ∃ t g, exec (.mwait f) s = .next t ∧ t.group? i.key = some g ∧ RestKept s t i.key ∧ RegistersKept i.g g ∧
          g.mon = { armed := true, va := ea i f 0, space := loc.space, line := line, written := false,
                    deadline := if f.aux = 0 then 0 else i.now + 2 ^ (f.aux.toNat + 9) } ∧
          ∀ l, inSet i.sub l = true → (g.lane l).st = .parked .monitor ∧ (g.lane l).pc = i.pci))) ∧
  (∀ (s : State) (c p n : Nat) (g : Group), s.group? (slotKey c p n) = some g → g.mon.deadline ≠ 0 →
    g.mon.deadline ≤ s.cycle.toNat → (∃ l, l < 32 ∧ (g.lane l).st = .parked .monitor) →
    ∃ t g', exec (.mwaitTimeout c p n) s = .next t ∧ t.group? (slotKey c p n) = some g' ∧ RegistersKept g g' ∧
      Untouched s t (slotKey c p n) ∧ g'.mon = { g.mon with armed := false } ∧ ∀ l, l < 32 →
        ((g.lane l).st = .parked .monitor → (g'.lane l).st = .ready ∧ (g'.lane l).ret = true ∧ (g'.lane l).pc = (g.lane l).pc) ∧
        ((g.lane l).st ≠ .parked .monitor → g'.lane l = g.lane l))

/-- R366 and R367: the lanes that reach TBAR, or RBAR, park there; the arrival that leaves no lane of the team, or of the role,
outstanding wakes them all at the next instruction. (`arrivedAt`: every lane has exited or is parked there.) An EXIT of the last lanes
outstanding of a team completes its TBAR for the lanes that wait there. -/
def Obligations.TeamBarriers : Prop :=
  (∀ (s : State) (i : Iss) (f : FmtW), Issues s i .none [] → f.m.rb = true → f.m.nw = false → i.t.savedGrp = [] →
    i.key ∈ i.t.groups.map Prod.snd →
    let m := i.act f.m.g.toNat
    m ≠ 0 → (∀ l, l < 32 → inSet m l = false → (i.g.lane l).st = .exited ∨ ∃ sc, (i.g.lane l).st = .parked (.tbar sc)) →
    (∃ l sc, l < 32 ∧ inSet m l = false ∧ (i.g.lane l).st = .parked (.tbar sc)) →
    (∀ k g, k ≠ i.key → k ∈ i.t.groups.map Prod.snd → s.group? k = some g → arrivedAt Wait.isTbar g = true) →
    ∃ t g, exec (.exit f) s = .next t ∧ t.group? i.key = some g ∧ g.v = i.g.v ∧ g.g = i.g.g ∧ g.k = i.g.k ∧
      (∀ l, inSet m l = true → (g.lane l).st = .exited) ∧
      (∀ l sc, l < 32 → inSet m l = false → (i.g.lane l).st = .parked (.tbar sc) →
        (g.lane l).st = .ready ∧ (g.lane l).pc = (i.g.lane l).pc + 12) ∧
      ∀ k g0, k ≠ i.key → k ∈ i.t.groups.map Prod.snd → s.group? k = some g0 →
        ∃ g1, t.group? k = some g1 ∧ RegistersKept g0 g1 ∧ ∀ l sc, l < 32 → (g0.lane l).st = .parked (.tbar sc) →
          (g1.lane l).st = .ready ∧ (g1.lane l).pc = (g0.lane l).pc + 12) ∧
  ∀ (s : State) (i : Iss) (f : FmtW), Issues s i .none [] → f.ord = 3 → 1 ≤ f.scope.toNat → f.scope.toNat < 5 → f.promo = false →
    f.m.nw = false → s.stalls i (decide (2 ≤ f.scope.toNat)) = false → i.t.savedGrp = [] → i.key ∈ i.t.groups.map Prod.snd →
    ∀ x ∈ [(Instr.tbar f, Wait.tbar f.scope.toNat, Wait.isTbar, fun (_ : Group) => true),
           (Instr.rbar f, Wait.rbar f.scope.toNat, Wait.isRbar, fun g => gidRole g.gid == gidRole i.g.gid)],
      let rest : Prop := ∀ l, l < 32 → inSet i.sub l = false →
        (i.g.lane l).st = .exited ∨ ∃ w, (i.g.lane l).st = .parked w ∧ x.2.2.1 w = true
      let all : Prop := ∀ k g, k ≠ i.key → k ∈ i.t.groups.map Prod.snd → s.group? k = some g → x.2.2.2 g = true →
        arrivedAt x.2.2.1 g = true
      (¬ (rest ∧ all) → ∃ t g, exec x.1 s = .next t ∧ t.group? i.key = some g ∧ RegistersKept i.g g ∧
        ∀ l, inSet i.sub l = true → (g.lane l).st = .parked x.2.1 ∧ (g.lane l).pc = i.pci) ∧
      (rest → all → ∃ t g, exec x.1 s = .next t ∧ t.group? i.key = some g ∧ RegistersKept i.g g ∧
        (∀ l, inSet i.sub l = true → (g.lane l).st = .ready ∧ (g.lane l).pc = i.pci + 12) ∧
        ∀ k g0, k ≠ i.key → k ∈ i.t.groups.map Prod.snd → s.group? k = some g0 → x.2.2.2 g0 = true →
          ∃ g1, t.group? k = some g1 ∧ RegistersKept g0 g1 ∧ ∀ l w, l < 32 → (g0.lane l).st = .parked w → x.2.2.1 w = true →
            (g1.lane l).st = .ready ∧ (g1.lane l).pc = (g0.lane l).pc + 12)

/-! ## Names -/

/-- R63 to R71: LDP and PSWZ give each active lane the pointer that its 128-bit name swizzles to, a name below 2^64 being its own
pointer; STP stores the name of a pointer, PNAME writes its halves to v_d and v_d+1 and PBASE and PSIZE give the base and the size of
the range that holds a window pointer, a pointer outside the window being its own name and base, with size 0. (Names and ranges are
those that the Swizzle Unit finds once the pointers' page walks have begun, R81.) R66: a pointer outside the
window is its own name; the name of one inside it has bit 127 set, the kind in bits 126 to 124, the realm in 123 to 108, the object in
107 to 44 and the offset from the base in 43 to 0, and lies no further than the object's size. -/
def Obligations.Pointers : Prop :=
  (∀ (s : State) (i : Iss) (f : FmtW),
    let m := i.act f.m.g.toNat
    let d := f.m.d.toNat
    let wr := written i f.m.g.toNat f.m.nw
    let p (l : Nat) : BitVec 64 := i.read (src10 f.m.a) l 15
    (∀ n ctx, n < 2 ^ 64 → Resident s ctx n (BitVec.ofNat 64 n)) ∧
    (∀ (loc : Nat → Loc) (ptr : Nat → BitVec 64), wScopeBad f = false → wRel f = false → dvOk d i.g.budget = true →
      (src10 f.m.a).address = true → Issues s i .none (srcsM f.m 1) → s.stalls i false = false →
      Walked s i (eas f 16 i) → AllPass s i .read 0 16 16 m (ea i f) loc → NoPromotion s i f.promo m loc →
      (let u := s.l1Settle i.core ((lanesOf m).map fun j => { lane := j, va := ea i f j, loc := loc j })
       ∀ l, inSet m l = true →
         Resident s i.t.ctx (ofBytes (u.loadBytes i.core f.scope.toNat (loc l).space (loc l).pa 16)) (ptr l)) →
      ∃ t g, exec (.ldp f) s = .next t ∧ Moved s t i 3 g ∧ RestKept s t i.key ∧ VectorsLoaded i.g g d 1 wr fun _ => ptr) ∧
    (∀ ptr : Nat → BitVec 64, dvOk d i.g.budget = true → Issues s i .none (srcsM f.m 2) →
      (∀ l, inSet m l = true → Resident s i.t.ctx ((p l).toNat + 2 ^ 64 * (i.read (src10 f.m.b) l 15).toNat) (ptr l)) →
      ∃ t g, exec (.pswz f) s = .next t ∧ Moved s t i 3 g ∧ RestKept s t i.key ∧ VectorsLoaded i.g g d 1 wr fun _ => ptr) ∧
    (∀ (loc : Nat → Loc) (name : Nat → Nat), f.scope.toNat < 5 → f.promo = false → wAcq f = false → f.m.nw = false →
      (src10 f.m.a).address = true → Issues s i .none (srcsM f.m 2) → s.stalls i (wRelWide f) = false →
      Walked s i (eas f 16 i) →
      (let u := s.fillTlbs i.c (windowVas i (src10 f.m.b) m)
       (∀ l, inSet m l = true → u.unswizzle i.c (i.read (src10 f.m.b) l 15).toNat = .ok (name l)) ∧
         AllPass u i .write 1 16 16 m (ea i f) loc) →
      (∀ l, inSet m l = true → (loc l).space = 0 ∨ ((loc l).space = 1 ∧ s.unreachable = false)) → s.eccBad = [] → s.tagBad = [] →
      ∃ t g, exec (.stp f) s = .next t ∧ Stored s t i 3 g ∧ RegistersKept i.g g ∧
        (∀ l k, inSet m l = true → k < 16 →
          (∀ l', inSet m l' = true → l < l' → (loc l').space = (loc l).space → (loc l').pa ≠ (loc l).pa) →
          byteAt t (loc l).space ((loc l).pa + k) = [(toBytes 16 (name l)).getD k 0]) ∧
        ∀ space a, (∀ l, inSet m l = true → (loc l).space = space → a < (loc l).pa ∨ (loc l).pa + 16 ≤ a) →
          NotCleared space a m loc → byteAt t space a = byteAt s space a) ∧
    (dvOk d i.g.budget = true → Issues s i .none (srcsM f.m 1) →
      let u := s.fillTlbs i.c (windowVas i (src10 f.m.a) m)
      ∀ range : Nat → RotEnt, (∀ l, inSet m l = true → inWindow (p l).toNat = true → u.rangeOf i.c (p l).toNat = .ok (some (range l))) →
      (∃ t g, exec (.pbase f) s = .next t ∧ Completed s t i 3 g ∧
        VectorsLoaded i.g g d 1 wr fun _ l => if inWindow (p l).toNat then BitVec.ofNat 64 (range l).base else p l) ∧
      (∃ t g, exec (.psize f) s = .next t ∧ Completed s t i 3 g ∧
        VectorsLoaded i.g g d 1 wr fun _ l => if inWindow (p l).toNat then BitVec.ofNat 64 (range l).size else 0)) ∧
    (vRangeOk d 2 i.g.budget = true → Issues s i .none (srcsM f.m 1) →
      let u := s.fillTlbs i.c (windowVas i (src10 f.m.a) m)
      ∀ name : Nat → Nat, (∀ l, inSet m l = true → u.unswizzle i.c (p l).toNat = .ok (name l)) →
      ∃ t g, exec (.pname f) s = .next t ∧ Completed s t i 3 g ∧
        VectorsLoaded i.g g d 2 wr fun k l => BitVec.ofNat 64 (name l / 2 ^ (64 * k)))) ∧
  (∀ (s : State) (c : Context) (p : Nat),
    (inWindow p = false → s.unswizzle c p = .ok p) ∧
    (∀ e n, inWindow p = true → s.rangeOf c p = .ok (some e) → s.unswizzle c p = .ok n →
      p - e.base ≤ e.size ∧ bit n 127 = true ∧ fld n 124 3 = e.kind ∧ fld n 108 16 = e.realm ∧ fld n 44 64 = e.obj ∧
      (e.size < 2 ^ 44 → fld n 0 44 = p - e.base)))

/-- R72: PHOLD and PDROP count holds on the objects behind the active lanes' pointers, and change no register. -/
def Obligations.HoldCounts : Prop :=
  ∀ (s u : State) (i : Iss) (f : FmtW), f.m.nw = false → Issues s i .none (srcsM f.m 1) → s.stalls i false = false →
    ∀ x ∈ [(Instr.phold f, true), (Instr.pdrop f, false)],
      HoldsCounted i x.2 (fun l => i.read (src10 f.m.a) l 15) (lanesOf (i.act f.m.g.toNat))
        (s.fillTlbs i.c (windowVas i (src10 f.m.a) (i.act f.m.g.toNat))) u →
      ∃ t g, exec x.1 s = .next t ∧ Stored s t i 3 g ∧ RegistersKept i.g g ∧ ∀ space a, byteAt t space a = byteAt u space a

/-! ## Barriers and ring slots -/

/-- R122 to R126, R132 to R134: CBINIT sets a barrier's tile and chunk count and zeroes the rest; CBEXP adds an expected byte count,
which arms the barrier or, when the count comes to zero, flips its phase; CBARR takes bytes off, an armed barrier whose count comes to
zero flipping its phase, and one that goes below zero taking OVERRUN; CBTEST gives its low 64 bits and CBERR also clears ERROR, OVERRUN
and CAUSE. No byte elsewhere changes. R134: CBWAIT goes on when the barrier is not armed, or in its phase form when its phase is B's
lowest bit, and CBWAITM when every chunk of its mask is present; until then they park. A barrier with ERROR traps COPY_ABORTED, one with
OVERRUN BARRIER_OVERRUN. -/
def Obligations.ChunkBarriers : Prop :=
  (∀ (s : State) (i : Iss) (f : FmtW) (loc : BarLoc), Issues s i .none [] → f.m.nw = false →
    barOk (src10 f.m.a) (devOf f) = true → BarrierAt s i f loc → s.stalls i false = false →
    (devOf f = true → Walked s i [barAddr i (src10 f.m.a)] ∧ s.eccBad = [] ∧ s.tagBad = []) →
    let x := s.barGet loc
    let n := (i.uni (src10 f.m.b) + f.imm.signExtend 64).toInt
    let c := (i.uni (src10 f.m.c)).toNat
    let done (ins : Instr) (p : Group → Bar → Prop) : Prop :=
      ∃ t g, exec ins s = .next t ∧ Stored s t i 3 g ∧ OnlyBarrier s t loc ∧ g.v = i.g.v ∧ g.k = i.g.k ∧ g.fflags = i.g.fflags ∧
        p g (t.barGet loc)
    ((src10 f.m.b).uniform = true → (src10 f.m.c).uniform = true → 0 ≤ n → n % 512 = 0 → c ≤ 1024 →
      n + 512 * c ≤ i.t.ringStart → (devOf f = true → n = 0 ∧ c = 0) →
      done (.cbinit f) fun g y => g.g = i.g.g ∧ y.pend = 0 ∧ y.armed = false ∧ y.phase = false ∧ y.error = false ∧
        y.overrun = false ∧ y.rsvLo = 0 ∧ y.cause = 0 ∧ y.chunks = c ∧ y.tile = n.toNat % 2 ^ 32 ∧ y.rsvHi = 0) ∧
    ((src10 f.m.b).uniform = true → 1 ≤ n → n ≤ 0x7FFFFFFF → x.pend + n ≤ 0x7FFFFFFF →
      done (.cbexp f) fun g y => g.g = i.g.g ∧ y.pend = x.pend + n ∧ y.error = x.error ∧ y.cause = x.cause ∧ y.chunks = x.chunks ∧ y.tile = x.tile ∧
        (x.pend + n = 0 → y.armed = false ∧ y.phase = !x.phase ∧ y.overrun = x.overrun) ∧
        (x.pend + n ≠ 0 → y.armed = true ∧ y.phase = x.phase ∧ y.overrun = (x.overrun || decide (x.pend + n < 0)))) ∧
    ((src10 f.m.b).uniform = true → 1 ≤ n → n ≤ 0x7FFFFFFF → s.stalls i (devOf f) = false →
      done (.cbarr f) fun g y => g.g = i.g.g ∧ y.error = x.error ∧ y.cause = x.cause ∧ y.chunks = x.chunks ∧ y.tile = x.tile ∧
        y.pend = max (x.pend - n) (-(2 ^ 31 : Int)) ∧
        (x.armed = true → x.pend - n = 0 → y.armed = false ∧ y.phase = !x.phase) ∧
        ((x.armed = false ∨ x.pend - n ≠ 0) → y.armed = x.armed ∧ y.phase = x.phase) ∧
        y.overrun = (x.overrun || decide (x.pend - n < -(2 ^ 31 : Int)) || (x.armed && decide (x.pend - n < 0)))) ∧
    (f.m.d.toNat < 64 → wRel f = false →
      done (.cbtest f) fun g y => y = x ∧ g.gget f.m.d.toNat = BitVec.ofNat 64 x.bits ∧ ∀ r, r ≠ f.m.d.toNat → g.gget r = i.g.gget r) ∧
    (f.m.d.toNat < 64 →
      done (.cberr f) fun g y => y = { x with error := false, overrun := false, cause := 0, rsvLo := 0, rsvHi := 0 } ∧
        g.gget f.m.d.toNat = BitVec.ofNat 64 x.bits ∧ ∀ r, r ≠ f.m.d.toNat → g.gget r = i.g.gget r)) ∧
  (∀ (s : State) (i : Iss) (f : FmtW) (loc : BarLoc), Issues s i .none [] → f.m.nw = false →
    barOk (src10 f.m.a) (devOf f) = true → BarrierAt s i f loc → s.stalls i false = false →
    (devOf f = true → Walked s i [barAddr i (src10 f.m.a)]) → (∀ l, inSet i.sub l = true → (i.g.lane l).seen = 0) →
    let x := s.barGet loc
    let ba := barAddr i (src10 f.m.a)
    let ph := f.aux.getLsbD 0
    let met : Prop := if ph then x.phase = (i.uni (src10 f.m.b)).getLsbD 0 else x.armed = false
    let mask := (i.uni (src10 f.m.b)).toNat
    let first := (i.uni (src10 f.m.c)).toNat
    let there : Prop := ∀ k, k < 64 → mask.testBit k = true →
      absent (s.core i.core) (i.t.base + x.tile + 512 * (first + k)) 1 = false
    let goes (ins : Instr) : Prop := ∃ t g, exec ins s = .next t ∧ Moved s t i 3 g ∧ RegistersKept i.g g ∧ RestKept s t i.key
    let parks (ins : Instr) (w : Wait) : Prop := ∃ t g, exec ins s = .next t ∧ t.group? i.key = some g ∧ RegistersKept i.g g ∧
      RestKept s t i.key ∧ ∀ l, inSet i.sub l = true → (g.lane l).st = .parked w ∧ (g.lane l).pc = i.pci
    let traps (ins : Instr) (c : BitVec 8) : Prop := ∃ t g, exec ins s = .next t ∧ t.group? i.key = some g ∧ RegistersKept i.g g ∧
      ∀ l, inSet i.sub l = true → (g.lane l).tcause = c ∧ (g.lane l).tpc = i.pci ∧
        (g.lane l).taddr = BitVec.ofNat 64 ba
    ((ph = true → (src10 f.m.b).uniform = true) →
      (x.error = false → x.overrun = false → met → goes (.cbwait f)) ∧
      (x.error = false → x.overrun = false → ¬ met → parks (.cbwait f)
        (barWaitOf ba loc (if ph then some (phaseSrc i (src10 f.m.b)) else none))) ∧
      (x.error = true → traps (.cbwait f) 0x20) ∧ (x.error = false → x.overrun = true → traps (.cbwait f) 0x21)) ∧
    (devOf f = false → (src10 f.m.b).uniform = true → (src10 f.m.c).uniform = true →
      (mask ≠ 0 → x.chunks ≠ 0 ∧ first + mask.log2 < x.chunks) →
      (x.error = false → x.overrun = false → there → goes (.cbwaitm f)) ∧
      (x.error = false → x.overrun = false → ¬ there → parks (.cbwaitm f) (.barrierMask ba mask first)) ∧
      (x.error = true → traps (.cbwaitm f) 0x20) ∧ (x.error = false → x.overrun = true → traps (.cbwaitm f) 0x21)))

/-- R114 to R117: QRING gives the offset of the ring slot that the group holds, else of the first FREE general slot, else of its role's
reserve slot, which the group then holds, else of no slot (the ring's end). KICK submits the held slot at its offset: k_d is all ones,
the slot is SUBMITTED with the core's next place in the order of issue, and the chunks the packet writes gain a writer; any other offset
gives 0. -/
def Obligations.RingSlots : Prop :=
  ∀ (s : State) (i : Iss) (f : FmtW), Issues s i .none [] → f.m.nw = false → i.t.ring.length = 8 →
    let ring (k : Nat) : RingSlot := i.t.ring.getD k .free
    let held : RingSlot := .held (gidGroup i.g.gid)
    let general := 8 - i.t.roles
    let reserve := general + gidRole i.g.gid
    (f.m.d.toNat < 64 →
      let gives (k : Nat) : Prop := ∃ t g, exec (.qring f) s = .next t ∧ Moved s t i 3 g ∧ g.v = i.g.v ∧ g.k = i.g.k ∧
        g.gget f.m.d.toNat = BitVec.ofNat 64 (i.t.ringStart + 64 * k) ∧ (∀ r, r ≠ f.m.d.toNat → g.gget r = i.g.gget r) ∧
        (∀ space a, byteAt t space a = byteAt s space a) ∧
        (k < 8 → ∃ u, t.team? i.t.tid = some u ∧ u.ring.getD k .free = held ∧ ∀ j, j ≠ k → u.ring.getD j .free = ring j)
      (∀ k, k < 8 → ring k = held → (∀ j, j < k → ring j ≠ held) → gives k) ∧
      ((∀ j, j < 8 → ring j ≠ held) →
        (∀ k, k < general → ring k = .free → (∀ j, j < k → ring j ≠ .free) → gives k) ∧
        ((∀ j, j < general → ring j ≠ .free) → (reserve < 8 → ring reserve = .free → gives reserve) ∧
          ((8 ≤ reserve ∨ ring reserve ≠ .free) → gives 8)))) ∧
    (f.m.d.toNat < 8 → (src10 f.m.a).isG = true → s.stalls i true = false →
      let off := (i.uni (src10 f.m.a)).toNat
      let b := teamPacket s i.t off
      (∀ k, k < 8 → ring k = held → (∀ j, j < k → ring j ≠ held) → off = i.t.ringStart + 64 * k →
        ∃ t g u, exec (.kick f) s = .next t ∧ Moved s t i 3 g ∧ g.v = i.g.v ∧ g.g = i.g.g ∧
          (f.m.d.toNat ≠ 0 → g.kget f.m.d.toNat = BitVec.allOnes 32) ∧ (∀ r, r ≠ f.m.d.toNat → g.kget r = i.g.kget r) ∧
          t.team? i.t.tid = some u ∧ u.ring.getD k .free = .submitted (s.core i.core).order (i.origin s) ∧
          (∀ j, j ≠ k → u.ring.getD j .free = ring j) ∧ (t.core i.core).order = (s.core i.core).order + 1 ∧
          (t.core i.core).writers = (s.core i.core).writers ++
            (if packetChunks i.t b = [] then [] else [{ place := (s.core i.core).order, chunks := packetChunks i.t b }])) ∧
      ((∀ k, k < 8 → ring k = held → (∀ j, j < k → ring j ≠ held) → off ≠ i.t.ringStart + 64 * k) →
        ∃ t g, exec (.kick f) s = .next t ∧ Moved s t i 3 g ∧ g.v = i.g.v ∧ g.g = i.g.g ∧ t.teams = s.teams ∧
          (f.m.d.toNat ≠ 0 → g.kget f.m.d.toNat = 0) ∧ ∀ r, r ≠ f.m.d.toNat → g.kget r = i.g.kget r))

/-! ## Submissions -/

/-- R216, R218, R220, R224, R225, R229, R232 and R235: ENGR, MLOOP, MDRAIN and MCLR put their operation at the tail of the core's
sequencer queue of 16, or park on a full queue with the operation waiting in order; in both cases it takes the core's next place in the
order of issue, and a drain registers as a writer of its chunks, at issue. MSTAT gives g_d the status word, with CLR clears the sticky
bits, and with WAIT parks until the operations queued before it have finished. An error pending from an
earlier MLOOP traps instead. -/
def Obligations.PlateSubmissions : Prop :=
  ∀ (s : State) (i : Iss) (f : FmtW), Issues s i .none [] → f.m.nw = false → s.stalls i false = false →
    let p := (s.core i.core).plate
    let op (k : PlateKind) : PlateOp :=
      { kind := k, org := i.origin s, place := (s.core i.core).order, stage := .waiting, step := 0 }
    let ordered (k : PlateKind) (t : State) : Prop := (t.core i.core).order = (s.core i.core).order + 1 ∧
      (t.core i.core).writers = (s.core i.core).writers ++
        (if k.chunks = [] then [] else [{ place := (s.core i.core).order, chunks := k.chunks }])
    (∀ x ∈ plateForms i f, x.2.1 →
      (i.g.plateErr = none → p.seq.length < 16 → p.waiters = [] →
        ∃ t g, exec x.1 s = .next t ∧ Moved s t i 3 g ∧ RegistersKept i.g g ∧ (t.core i.core).plate = { p with seq := p.seq ++ [op x.2.2] } ∧
          ordered x.2.2 t ∧ (∀ c, (t.core c).spad = (s.core c).spad) ∧ ∀ space a, byteAt t space a = byteAt s space a) ∧
      (i.g.plateErr = none → (16 ≤ p.seq.length ∨ p.waiters ≠ []) →
        ∃ t g w, exec x.1 s = .next t ∧ t.group? i.key = some g ∧ RegistersKept i.g g ∧
          (t.core i.core).plate = { p with waiters := p.waiters ++ [w] } ∧
          w = { port := i.port, slot := keySlot i.key, lanes := i.sub, op := op x.2.2 } ∧ ordered x.2.2 t ∧
          ∀ l, inSet i.sub l = true → (g.lane l).st = .parked .plateQueue ∧ (g.lane l).pc = i.pci) ∧
      (∀ e, i.g.plateErr = some e →
        ∃ t g, exec x.1 s = .next t ∧ t.group? i.key = some g ∧ RegistersKept i.g g ∧ g.plateErr = none ∧
          (t.core i.core).plate = p ∧ ∀ l, inSet i.sub l = true → (g.lane l).tcause = e.cause ∧
            (g.lane l).taddr = BitVec.ofNat 64 e.step ∧ (g.lane l).tinfo = e.pc ∧ (g.lane l).tpc = i.pci)) ∧
    (f.aux.toNat < 4 → f.m.d.toNat < 64 → i.g.plateErr = none → (∀ l, inSet i.sub l = true → (i.g.lane l).ret = false) →
      (f.aux.getLsbD 0 = false ∨ p.seq = [] →
        ∃ t g, exec (.mstat f) s = .next t ∧ Moved s t i 3 g ∧ g.v = i.g.v ∧ g.k = i.g.k ∧ g.gget f.m.d.toNat = p.status ∧
          (∀ r, r ≠ f.m.d.toNat → g.gget r = i.g.gget r) ∧
          (t.core i.core).plate = if f.aux.getLsbD 1 then { p with sticky := 0 } else p) ∧
      (f.aux.getLsbD 0 = true → p.seq ≠ [] →
        ∃ t g, exec (.mstat f) s = .next t ∧ t.group? i.key = some g ∧ RegistersKept i.g g ∧ (t.core i.core).plate = p ∧
          ∃ n, (∀ o ∈ p.seq, o.place < n) ∧ (∃ o ∈ p.seq, o.place + 1 = n) ∧
            ∀ l, inSet i.sub l = true → (g.lane l).st = .parked (.plateIdle n) ∧ (g.lane l).pc = i.pci))

/-- R255, R256 and R308: SRCH and NWRI copy the 64-byte packet at a scratchpad offset to the core's search or network port, which holds
eight, and give all ones in k_d, or 0 where it is full; SCANCEL sends its mark to the eight Sheepdogs and parks for their answers. -/
def Obligations.PortSubmissions : Prop :=
  ∀ (s : State) (i : Iss) (f : FmtW), Issues s i .none [] → f.m.nw = false → (src10 f.m.a).isG = true →
    let off := (i.uni (src10 f.m.a)).toNat
    let core := s.core i.core
    let p : Packet := { bytes := teamPacket s i.t off, org := i.origin s, queue := none, place := core.order, stall := none, cancel := false }
    let mark : Mark :=
      { ctx := i.t.ctx, tag := i.uni (src10 f.m.a), core := i.core, port := i.port, slot := keySlot i.key, lanes := i.sub }
    let kd (g : Group) (x : LaneSet) : Prop := (f.m.d.toNat ≠ 0 → g.kget f.m.d.toNat = x) ∧ ∀ r, r ≠ f.m.d.toNat → g.kget r = i.g.kget r
    (f.m.d.toNat < 8 → off % 64 = 0 → off + 64 ≤ i.t.ringStart → s.stalls i true = false →
      (∃ t g, exec (.srch f) s = .next t ∧ Moved s t i 3 g ∧ g.v = i.g.v ∧ g.g = i.g.g ∧
        (core.search.length < 8 → kd g (BitVec.allOnes 32) ∧ (t.core i.core).search = core.search ++ [p] ∧ (t.core i.core).net = core.net) ∧
        (8 ≤ core.search.length → kd g 0 ∧ (t.core i.core).search = core.search)) ∧
      (∃ t g, exec (.nwri f) s = .next t ∧ Moved s t i 3 g ∧ g.v = i.g.v ∧ g.g = i.g.g ∧
        (core.net.length < 8 → kd g (BitVec.allOnes 32) ∧ (t.core i.core).net = core.net ++ [p] ∧ (t.core i.core).search = core.search) ∧
        (8 ≤ core.net.length → kd g 0 ∧ (t.core i.core).net = core.net))) ∧
    (f.m.d.toNat < 64 → s.stalls i false = false →
      ∃ t g, exec (.scancel f) s = .next t ∧ t.group? i.key = some g ∧ RegistersKept i.g g ∧
        t.dogs = (s.dogs.map fun d => { d with marks := d.marks ++ [mark] }) ∧
        (∃ c, t.cancels = s.cancels ++ [c] ∧ c.left = 8 ∧ c.count = 0 ∧ c.dreg = f.m.d.toNat) ∧
        ∀ l, inSet i.sub l = true → (g.lane l).st = .parked .scancel ∧ (g.lane l).pc = i.pci)

/-- R309 and R310: NPOLL takes the entry at RDIDX of a notify ring when it is full: g_d is the entry, its top bit is cleared and RDIDX
goes on; of an empty ring it gives 0, or with its wait form parks. FERRQ moves the oldest record of the context's error queue into
scratchpad, takes RDIDX on, acquires at .sys (R290) and gives the number of records, 0 with none. (A queue's descriptor is the physical
address of its base in local memory: log entry 24, DEDUCED. A queue of which the base's or the entry's page is not the world's any more
raises the cause of the check, TADDR 0: the model's choice, log entry 75.) -/
def Obligations.NotifyAndErrorQueues : Prop :=
  ∀ (s : State) (i : Iss) (f : FmtW) (c : Context), Issues s i .none [] → f.m.nw = false → f.m.d.toNat < 64 →
    s.stalls i false = false → s.ctx? i.t.ctx = some c → s.eccBad = [] → s.tagBad = [] →
    let check (a : Nat) : Option (BitVec 8) := walkerPass s.mem (s.issWorld i) a false
    let written_ (a : Nat) : Prop := a % 8 = 0 ∧ isMemPa a = true ∧ isCarve a = false ∧ clearedBit s.mem a = false
    let traps (ins : Instr) (cause : BitVec 8) : Prop := ∃ t g, exec ins s = .next t ∧ t.group? i.key = some g ∧ RegistersKept i.g g ∧
      TrapTaken i.g g i.sub i.pci cause 0 0 ∧ ∀ space a, byteAt t space a = byteAt s space a
    let gd (g : Group) (x : BitVec 64) : Prop := g.gget f.m.d.toNat = x ∧ ∀ r, r ≠ f.m.d.toNat → g.gget r = i.g.gget r
    ((src10 f.m.a).isG = true ∨ (∃ x : Int, 0 ≤ x ∧ x ≤ 15 ∧ ∃ raw, src10 f.m.a = .imm x raw) → wRel f = false → f.aux.toNat < 2 →
      ∀ q, (c.rings.find? fun r => r.1 == (i.uni (src10 f.m.a)).toNat) = some ((i.uni (src10 f.m.a)).toNat, q) →
      let rd := q.desc + 128
      let r := s.readNat spLocal rd 8
      let ea := q.desc + 4096 + 8 * (r % 2 ^ q.n)
      let e := s.readNat spLocal ea 8
      (∀ cause, check q.desc = some cause → traps (.npoll f) cause) ∧
      (check q.desc = none → check rd = none → (∀ cause, check ea = some cause → traps (.npoll f) cause) ∧
      (check ea = none →
      (e.testBit 63 = true → written_ rd → written_ ea →
        ∃ t g, exec (.npoll f) s = .next t ∧ Stored s t i 3 g ∧ g.v = i.g.v ∧ g.k = i.g.k ∧ gd g (BitVec.ofNat 64 e) ∧
          t.readNat spLocal ea 8 = e - 2 ^ 63 ∧ t.readNat spLocal rd 8 = (r + 1) % 2 ^ 64) ∧
      (e.testBit 63 = false → f.aux.getLsbD 0 = false →
        ∃ t g, exec (.npoll f) s = .next t ∧ Moved s t i 3 g ∧ RestKept s t i.key ∧ g.v = i.g.v ∧ g.k = i.g.k ∧ gd g 0) ∧
      (e.testBit 63 = false → f.aux.getLsbD 0 = true →
        ∃ t g, exec (.npoll f) s = .next t ∧ t.group? i.key = some g ∧ RegistersKept i.g g ∧ RestKept s t i.key ∧
          ∀ l, inSet i.sub l = true → (g.lane l).st = .parked (.ring (i.uni (src10 f.m.a)).toNat) ∧ (g.lane l).pc = i.pci)))) ∧
    ((src10 f.m.a).isG = true →
      let off := (i.uni (src10 f.m.a)).toNat
      off % 32 = 0 → off + 32 ≤ i.t.ringStart →
      (∀ q, c.errq = some q →
        let w := s.readNat spLocal q.desc 8
        let rd := q.desc + 128
        let r := s.readNat spLocal rd 8
        let n := (w + 2 ^ 64 - r) % 2 ^ 64
        let ea := q.desc + 4096 + 32 * (r % 2 ^ q.n)
        (∀ cause, check q.desc = some cause → traps (.ferrq f) cause) ∧
        (check q.desc = none → check rd = none → (∀ cause, check ea = some cause → traps (.ferrq f) cause) ∧
        (check ea = none →
        (n ≠ 0 → written_ rd →
          ∃ t g, exec (.ferrq f) s = .next t ∧ Stored s t i 3 g ∧ g.v = i.g.v ∧ g.k = i.g.k ∧ gd g (BitVec.ofNat 64 n) ∧
            sread (t.core i.core).spad (i.t.base + off) 32 = s.readBytes spLocal ea 32 ∧
            t.readNat spLocal rd 8 = (r + 1) % 2 ^ 64 ∧ (t.core i.core).l1 = []) ∧
        (n = 0 → ∃ t g, exec (.ferrq f) s = .next t ∧ Moved s t i 3 g ∧ RestKept s t i.key ∧ gd g 0 ∧ (t.core i.core).l1 = [])))) ∧
      (c.errq = none → ∃ t g, exec (.ferrq f) s = .next t ∧ Moved s t i 3 g ∧ RestKept s t i.key ∧ gd g 0))

/-- R201 and R202: an ATLOAD of a well-formed image into a bank that no group selects starts the load and parks its sub-group; when the
load is complete the bank is READY with the image's 8,208 bytes and the loader goes on past the ATLOAD, and lanes parked at an ATSEL of
the bank past it (R203). -/
def Obligations.ActivationLoads : Prop :=
  (∀ (s : State) (i : Iss) (f : FmtM), Issues s i .none [] → f.nw = false → s.stalls i false = false →
    (src10 f.a).uniform = true → (src10 f.b).uniform = true →
    let n := (i.uni (src10 f.a)).toNat
    let off := (i.uni (src10 f.b)).toNat
    let at_ := i.t.base + off
    n < 2 → off % 16 = 0 → off + 8208 ≤ i.t.size → absent (s.core i.core) at_ 8208 = false →
    imageOk (spadRead (s.core i.core) at_ 16) = true → ((s.core i.core).actBank n).st ≠ .loading → s.bankCount i.core n = 0 →
    ∃ t g, exec (.atload f) s = .next t ∧ t.group? i.key = some g ∧ RegistersKept i.g g ∧ SpecialsKept i.g g ∧
      ((t.core i.core).actBank n).st = .loading ∧ ((t.core i.core).actBank n).off = at_ ∧
      (t.core i.core).actBank (1 - n) = (s.core i.core).actBank (1 - n) ∧
      ∀ l, inSet i.sub l = true → (g.lane l).st = .parked (.bank n) ∧ (g.lane l).pc = i.pci) ∧
  (∀ (s : State) (core n port slot : Nat) (m : LaneSet) (g : Group), core < Config.cores → core < s.cores.length → n < 2 →
    ((s.core core).actBank n).st = .loading → ((s.core core).actBank n).loader = some (port, slot, m) →
    port < 4 → slot < 16 → s.group? (slotKey core port slot) = some g →
    ∃ t g', exec (.atloadComplete core n) s = .next t ∧ t.group? (slotKey core port slot) = some g' ∧ RegistersKept g g' ∧
      ((t.core core).actBank n).st = .ready ∧
      (∀ k, k < 8208 → sget ((t.core core).actBank n).bytes k = sget (s.core core).spad (((s.core core).actBank n).off + k)) ∧
      (t.core core).actBank (1 - n) = (s.core core).actBank (1 - n) ∧
      ∀ l, inSet m l = true → (g.lane l).st = .parked (.bank n) →
        (g'.lane l).st = .ready ∧ (g'.lane l).pc = (g.lane l).pc + 8 ∧ (g'.lane l).tregion = (g.lane l).pc + 8) ∧
  (∀ (s : State) (core n k : Nat) (g : Group), core < Config.cores → core < s.cores.length → n < 2 →
    ((s.core core).actBank n).st = .loading → ((s.core core).actBank n).loader = none → s.group? k = some g → keyCore k = core →
    ∃ t g', exec (.atloadComplete core n) s = .next t ∧ t.group? k = some g' ∧ RegistersKept g g' ∧ SpecialsKept g g' ∧
      ∀ l, l < 32 → ((g.lane l).st = .parked (.select n) → (g'.lane l).st = .ready ∧ (g'.lane l).pc = (g.lane l).pc + 8) ∧
        ((g.lane l).st ≠ .parked (.select n) → g'.lane l = g.lane l))

/-! ## Conversations -/

/-- R321 and R324 to R330: the minors that act on a conversation send their operation, with the group's identity word and the lanes, to
the Bellwether and park until it answers; the payload of CSEND is read at issue. CSTATE gives the status word and CSTATE.self the
identity word. A minor that needs a bound role register traps with CONV_NOT_HOLDER when it is not bound, and one that needs a free one
with CONV_PROTOCOL when it is. -/
def Obligations.ConversationIssue : Prop :=
  ∀ (s : State) (i : Iss) (f : FmtW), Issues s i .none [] → f.m.nw = false →
    (f.m.d.toNat < 8 → ∀ x ∈ convForms i f, ∀ base loc, x.operands → cvBound (i.g.cvget f.m.d.toNat) = x.bound →
      ObjectAt s i x.object base loc → s.stalls i x.releases = false →
      ∃ t g op, exec x.ins s = .next t ∧ t.group? i.key = some g ∧ RegistersKept i.g g ∧ g.cv = i.g.cv ∧ RestKept { s with convs := t.convs } t i.key ∧
        t.convs = s.convs ++ [op] ∧
        op = { x.op with core := i.core, org := i.origin s, lanes := i.sub, space := loc.space, pa := loc.pa,
                              base := BitVec.ofNat 64 base, who := identWord s i.g.gid } ∧
        ∀ l, inSet i.sub l = true → (g.lane l).st = .parked .conv ∧ (g.lane l).pc = i.pci) ∧
    (f.m.d.toNat < 8 → ∀ x ∈ convForms i f, x.operands → cvBound (i.g.cvget f.m.d.toNat) ≠ x.bound → s.stalls i x.releases = false →
      ∃ t g, exec x.ins s = .next t ∧ t.group? i.key = some g ∧ RegistersKept i.g g ∧ g.cv = i.g.cv ∧ t.convs = s.convs ∧
        (∀ space a, byteAt t space a = byteAt s space a) ∧
        ∀ l, inSet i.sub l = true → (g.lane l).tcause = (if x.bound then 0x31 else 0x32) ∧ (g.lane l).tpc = i.pci) ∧
    (f.m.d.toNat < 64 → f.aux.toNat < 2 →
      (∀ base loc, (src10 f.m.a).isG = true → ObjectAt s i (i.uni (src10 f.m.a)).toNat base loc → s.stalls i false = false →
        ∃ t g, exec (.cstate f) s = .next t ∧ Moved s t i 3 g ∧ RestKept s t i.key ∧ g.v = i.g.v ∧ g.k = i.g.k ∧
          g.gget f.m.d.toNat = BitVec.ofNat 64 (s.readNat loc.space (loc.pa + 8) 8) ∧ ∀ r, r ≠ f.m.d.toNat → g.gget r = i.g.gget r) ∧
      (∃ t g, exec (.cstateSelf f) s = .next t ∧ Completed s t i 3 g ∧ g.v = i.g.v ∧ g.k = i.g.k ∧
        g.gget f.m.d.toNat = i.g.gid ||| BitVec.ofNat 64 (s.fabNum.getD 0 % 16) ∧ ∀ r, r ≠ f.m.d.toNat → g.gget r = i.g.gget r))

/-- R314, R318, R319 and R325 to R329, at the Bellwether: CJOIN takes a FREE role of a live conversation, raising its EPOCH and binding
the role register; CLEAVE frees the role and CDELEG makes it DELEGATING for its target, both raising EPOCH and unbinding the register; a
CSEND or CCHOOSE that its transition allows appends its message, takes CUR to NEXT and ASEQ on by one, and is held while a destination's
mailbox is full; CACCEPT takes a role delegated to its group, with its EPOCH as it stands; the first CJOIN starts a valid image; CRECV
and CPOLL take the oldest message, MHEAD going on, CPOLL gives 0 when there is none and CRECV parks at the mailbox. An operation that is
refused (`convRefusals`) traps with the cause, the object's base and CUR, role and kind (R331), and changes no byte; so does a CRECV that
wakes when its object's page is not its world's any more, with OWNERSHIP (R84, R85; log entry 77 says what the model chose). R318 and R333: a held operation is
accepted, HELD clearing, once every destination has space; a withdrawal that finds its operation unanswered drops it, and the lanes
issue the instruction again. -/
def Obligations.BellwetherEvaluates : Prop :=
  (∀ (s : State) (idx : Nat) (o : ConvOp) (g : Group), MayEvaluate s idx o → s.convGroup o = some g → g.allExited = false →
    let c : ConvAt := o.conv
    let r := o.role
    let h := s.convStatus c
    let epoch := (s.roleEpoch c r + 1) % 65536
    ConvThere s c → r < 16 → o.pay.length ≤ 6 →
    let done (p : State → Group → Prop) : Prop := ∃ t g', exec (.bellwetherOperation idx) s = .next t ∧
      ConvsKept (s.convs.eraseIdx idx) t.convs ∧ t.group? o.key = some g' ∧ Answered o g g' ∧ g'.v = g.v ∧ p t g'
    let refused (cause : BitVec 8) : Prop :=
      ∃ t g', exec (.bellwetherOperation idx) s = .next t ∧ t.convs = s.convs.eraseIdx idx ∧ t.group? o.key = some g' ∧
        RegistersKept g g' ∧ SpecialsKept g g' ∧ (∀ space a, byteAt t space a = byteAt s space a) ∧
        (∀ m, (∀ l, l < 32 → (inSet m l = true ↔ inSet o.lanes l = true ∧ (g.lane l).st = .parked .conv)) →
          TrapTaken g g' m o.org.pc cause o.base (BitVec.ofNat 64 (stCur h + r * 256 + o.mkind % 64 * 4096))) ∧
        ∀ l, l < 32 → ¬ (inSet o.lanes l = true ∧ (g.lane l).st = .parked .conv) → g'.lane l = g.lane l
    (s.convLost o = true → (s.team? g.team).isSome = true → refused cOwnership) ∧
    (s.convLost o = false →
    (∀ x ∈ convRefusals s c o, o.kind ∈ x.1 → x.2.1 → (s.team? g.team).isSome = true → refused x.2.2) ∧
    (o.kind = .join → stLive h = false → s.imageValid c = true → r < s.convRoles c →
      done fun t g' => t.roleState c r = 1 ∧ t.convGet c (roleOff r) 8 = o.who.toNat ∧ t.roleEpoch c r = 1 ∧
        g'.cvget o.dreg = cvMake r o.base.toNat 1 ∧ t.convStatus c = s.convGet c 6 1 + 2 ^ 10 ∧
        ∀ q, q < 16 → q ≠ r → t.roleState c q = 0 ∧ t.roleEpoch c q = 0 ∧ t.mailCount c q = 0) ∧
    (o.kind = .accept → stLive h = true → stClosed h = false → r < s.convRoles c → s.roleState c r = 2 →
      s.convGet c (roleOff r + 8) 8 = o.who.toNat →
      done fun t g' => t.roleState c r = 1 ∧ t.convGet c (roleOff r) 8 = o.who.toNat ∧ t.convGet c (roleOff r + 8) 8 = 0 ∧
        t.roleEpoch c r = s.roleEpoch c r ∧ g'.cvget o.dreg = cvMake r o.base.toNat (s.roleEpoch c r)) ∧
    (o.kind = .join → stLive h = true → stClosed h = false → r < s.convRoles c → s.roleState c r = 0 →
      done fun t g' => t.roleState c r = 1 ∧ t.convGet c (roleOff r) 8 = o.who.toNat ∧ t.roleEpoch c r = epoch ∧
        g'.cvget o.dreg = cvMake r o.base.toNat epoch) ∧
    (o.kind = .leave → s.holds c r o.who o.epoch = true →
      done fun t g' => t.roleState c r = 0 ∧ t.roleEpoch c r = epoch ∧ cvBound (g'.cvget o.dreg) = false) ∧
    (o.kind = .deleg → stClosed h = false → s.holds c r o.who o.epoch = true →
      (∃ tr ∈ s.convTrans c (stCur h), trSend tr = r ∧ trDeleg tr = true) →
      done fun t g' => t.roleState c r = 2 ∧ t.roleEpoch c r = epoch ∧ t.convGet c (roleOff r + 8) 8 = o.target.toNat ∧
        cvBound (g'.cvget o.dreg) = false) ∧
    (∀ tr, (o.kind = .send ∨ o.kind = .choose) → s.evalSend c o = .ok tr →
      (s.mailFull c tr = false → done fun t _ => stCur (t.convStatus c) = trNext tr ∧
        stAseq (t.convStatus c) = (stAseq h + 1) % 2 ^ 32 ∧ stClosed (t.convStatus c) = (stClosed h || trFinal tr) ∧
        ∀ q, q ∈ trDest tr → t.mailCount c q = s.mailCount c q + 1 ∧
          t.convGet c (mailOff q (s.convGet c (roleOff q + 19) 1 + s.mailCount c q)) 8 =
            descOf (stAseq h + 1) (trChoice tr) (if trChoice tr then 0 else o.count) r o.mkind ∧
          ∀ k, k < 6 → t.convGet c (mailOff q (s.convGet c (roleOff q + 19) 1 + s.mailCount c q) + 8 + 8 * k) 8 =
            if trChoice tr then 0 else (o.pay.getD k 0).toNat) ∧
      (s.mailFull c tr = true → ∃ t o', exec (.bellwetherOperation idx) s = .next t ∧ stHeld (t.convStatus c) = true ∧
        t.convs[idx]? = some o' ∧ o'.held = true ∧ o'.org = o.org ∧ stCur (t.convStatus c) = stCur h)) ∧
    ((o.kind = .recv ∨ o.kind = .poll) → s.holds c r o.who o.epoch = true → 0 < s.mailCount c r → o.areg ≤ 57 →
      let at_ := mailOff r (s.convGet c (roleOff r + 19) 1)
      done fun t g' => t.mailCount c r = s.mailCount c r - 1 ∧
        t.convGet c (roleOff r + 19) 1 = (s.convGet c (roleOff r + 19) 1 + 1) % 8 ∧ g'.gget o.areg = BitVec.ofNat 64 (s.convGet c at_ 8) ∧
        ∀ k, k < 6 → g'.gget (o.areg + 1 + k) = BitVec.ofNat 64 (s.convGet c (at_ + 8 + 8 * k) 8)) ∧
    (o.kind = .poll → s.holds c r o.who o.epoch = true → s.mailCount c r = 0 → stClosed h = false →
      done fun t g' => g'.gget o.areg = 0 ∧ ∀ space a, byteAt t space a = byteAt s space a) ∧
    (o.kind = .recv → s.holds c r o.who o.epoch = true → s.mailCount c r = 0 → stClosed h = false →
      ∃ t g', exec (.bellwetherOperation idx) s = .next t ∧ t.convs = s.convs.eraseIdx idx ++ [{ o with parked := true }] ∧
        t.group? o.key = some g' ∧ RegistersKept g g' ∧ (∀ space a, byteAt t space a = byteAt s space a) ∧
        ∀ l, inSet o.lanes l = true → (g.lane l).st = .parked .conv →
          (g'.lane l).st = .parked (.mailbox (locKey c.space c.pa) r o.base.toNat) ∧ (g'.lane l).pc = (g.lane l).pc))) ∧
  (∀ (s : State) (idx : Nat) (o : ConvOp) (g : Group), s.convs[idx]? = some o → s.convReach o = true → o.src = none →
    s.convGroup o = some g →
    let c : ConvAt := o.conv
    let tr := o.target.toNat
    ConvThere s c → o.pay.length ≤ 6 →
    (o.held = true → o.discarded = false → s.mailFull c tr = false →
      ∃ t g', exec (.heldOperationAccept idx) s = .next t ∧ ConvsKept (s.convs.eraseIdx idx) t.convs ∧ t.group? o.key = some g' ∧
        Answered o g g' ∧ stCur (t.convStatus c) = trNext tr ∧ stHeld (t.convStatus c) = false) ∧
    (o.withdrawn = true →
      ∃ t g', exec (.bellwetherWithdrawal idx) s = .next t ∧ t.convs = s.convs.eraseIdx idx ∧ t.group? o.key = some g' ∧
        RegistersKept g g' ∧ (o.held = true → stHeld (t.convStatus c) = false) ∧
        ∀ l, inSet o.lanes l = true → (g.lane l).st = .parked .conv → (g'.lane l).st = .ready ∧ (g'.lane l).pc = (g.lane l).pc))

/-! ## Traps and control registers -/

/-- R393, R28, R374 and R376: TRAP and BKPT trap the active lanes with SOFTWARE_TRAP or BREAKPOINT and TINFO their code, in a group with
TRAPV = 0 with one posting (log entry 21, DEDUCED; a service with TRAPV = 0 posts too: log entry 60); ECALL posts its entry whatever
TRAPV holds and its lanes wait TRAPPED with TREGION past it; words that name no instruction trap the sub-group with ILLEGAL_INSTRUCTION.
R29, R32, R33, R352, R353: for the arithmetic of VINT and VFLT and for a load, RUN_TOO_LONG comes first of the checks, then
ILLEGAL_INSTRUCTION for words that step 1 refuses, ILLEGAL_PREFIX where the prefix carries a field that the instruction does not accept or
the instruction would begin a run, ILLEGAL_OPERAND for an operand that is not encoded or not within the budget, LATCH_EMPTY for a latch
that holds nothing; a prefix with RB = 1 and a second prefix raise ILLEGAL_PREFIX, a prefix that would be the 24th instruction
RUN_TOO_LONG. -/
def Obligations.SoftwareTraps : Prop :=
  (∀ (s : State) (i : Iss) (f : FmtM) (w : FmtW), s.iss? = some i → (∃ l, l < 32 ∧ (i.g.lane l).st ≠ .exited) →
    ∀ x ∈ checkForms i f w,
      (24 ≤ i.run.count → Refused s i x.ins cRunTooLong) ∧
      (i.run.count < 24 → ¬ x.words → Refused s i x.ins cIllegalInstruction) ∧
      (i.run.count < 24 → x.words → (∃ p, i.run.pfx = some p ∧ (pfxBad p x.pfx = true ∨ ∃ l, l < 32 ∧ inSet i.sub l = false ∧
          (i.g.lane l).st = .ready ∧ (i.g.lane l).pc = i.run.pc)) → Refused s i x.ins cIllegalPrefix) ∧
      (i.run.count < 24 → x.words → i.pfxRefused x.pfx = false → (¬ x.operands ∨ ∃ y ∈ x.srcs, y.ok i.g.budget = false) →
        Refused s i x.ins cIllegalOperand) ∧
      (i.run.count < 24 → x.words → i.pfxRefused x.pfx = false → x.operands → (∀ y ∈ x.srcs, y.ok i.g.budget = true) →
        (∃ y ∈ x.srcs, ∃ n ∈ y.latchNo, i.run.filled < n) → Refused s i x.ins cLatchEmpty)) ∧
  (∀ (s : State) (i : Iss) (f : FmtP), s.iss? = some i → (∃ l, l < 32 ∧ (i.g.lane l).st ≠ .exited) →
    (i.run.pfx.isSome = true → Refused s i (.pfx f) cIllegalPrefix) ∧
    (i.run.pfx = none → 24 ≤ i.run.count + 1 → f.rb = false → Refused s i (.pfx f) cRunTooLong) ∧
    (i.run.pfx = none → i.run.count + 1 < 24 → f.rb = true → Refused s i (.pfx f) cIllegalPrefix)) ∧
  ∀ (s : State) (i : Iss), Issues s i .none [] →
    (∀ f : FmtW, f.m.nw = false → ∀ x ∈ [(Instr.trap f, cSoftwareTrap), (Instr.bkpt f, cBreakpoint)],
      let m := i.act f.m.g.toNat
      ∃ t g, exec x.1 s = .next t ∧ t.group? i.key = some g ∧ RegistersKept i.g g ∧ SpecialsKept i.g g ∧
        TrapTaken i.g g m i.pci x.2 0 (f.imm.setWidth 64) ∧ OthersGoOn i 3 g m ∧
        (i.g.trapv ≠ 0 → i.g.tmask = 0 → Untouched s t i.key) ∧
        (i.g.trapv = 0 → m ≠ 0 → t.posts = s.posts ++
          [{ world := s.teamWorld i.t, ctx := i.t.ctx, va := 0, priv := decide (i.g.tmask ≠ 0), port := keyPort i.key,
             slot := keySlot i.key, core := keyCore i.key, access := 7, cause := x.2, gid := i.g.gid, lanes := m,
             svc := i.t.service, tpc := i.pci, wait := none }])) ∧
    (∀ f : FmtW, f.m.nw = false → f.m.rb = true → i.t.service = false → (src10 f.m.a).isG = true → s.stalls i false = false →
      ∃ t g, exec (.ecall f) s = .next t ∧ t.group? i.key = some g ∧ RegistersKept i.g g ∧ SpecialsKept i.g g ∧
        (∀ space a, byteAt t space a = byteAt s space a) ∧
        t.posts = s.posts ++
          [{ world := s.teamWorld i.t, ctx := i.t.ctx, va := i.uni (src10 f.m.a), priv := decide (i.g.tmask ≠ 0),
             port := i.port, slot := keySlot i.key, core := i.core, access := 6, cause := cSoftwareTrap, gid := i.g.gid,
             lanes := i.sub, svc := false, tpc := i.pci, wait := none }] ∧
        OthersGoOn i 3 g i.sub ∧
        ∀ l, inSet i.sub l = true → (g.lane l).st = .trapped true ∧ (g.lane l).tcause = cSoftwareTrap ∧ (g.lane l).tpc = i.pci ∧
          (g.lane l).taddr = 0 ∧ (g.lane l).tinfo = BitVec.ofNat 64 (2 ^ 63) + f.imm.setWidth 64 ∧
          (g.lane l).tregion = i.run.pc + 12) ∧
    (∀ (w : Word) (rest : List Word),
      ∃ t g, exec (.reservedMajor w rest) s = .next t ∧ t.group? i.key = some g ∧ RegistersKept i.g g ∧ SpecialsKept i.g g ∧
        TrapTaken i.g g i.sub i.pci cIllegalInstruction 0 0 ∧ OthersGoOn i (rest.length + 1) g i.sub)

/-- R394, R387: TRET in privileged mode takes the active lanes of TMASK out of the handler. retry and skip make them READY at TPC (skip
marks them to resume past the instruction there), exit ends them, save marks them where they entered by a SAVE_REQUEST, and raises
ILLEGAL_OPERAND where one did not; a group all of whose lanes are then saved or exited leaves its slot. -/
def Obligations.HandlerReturns : Prop :=
  ∀ (s : State) (i : Iss) (f : FmtW), Issues s i .none [] → f.m.nw = false → f.m.rb = true → f.aux.toNat < 4 →
    privileged i.t i.g = true → (i.t.service = true → i.g.tmask ≠ 0) → s.stalls i false = false →
    let m := i.act f.m.g.toNat &&& i.g.tmask
    let stays : Prop := ∃ l, l < 32 ∧ inSet m l = false ∧ (i.g.lane l).st ≠ .exited ∧ (i.g.lane l).saved = false
    let back (ins : Instr) (skip : Bool) : Prop :=
      ∃ t g, exec ins s = .next t ∧ t.group? i.key = some g ∧ RegistersKept i.g g ∧ g.tmask = i.g.tmask &&& ~~~ m ∧
        g.trapv = i.g.trapv ∧ g.budget = i.g.budget ∧ g.cv = i.g.cv ∧ Untouched s t i.key ∧ OthersGoOn i 3 g m ∧
        ∀ l, inSet m l = true → (g.lane l).st = .ready ∧ (g.lane l).pc = (i.g.lane l).tpc ∧ (g.lane l).skip = skip
    ((∃ l, l < 32 ∧ (i.g.lane l).st ≠ .exited ∧ (i.g.lane l).saved = false) →
      back (.tretRetry f) false ∧ back (.tretSkip f) true) ∧
    (stays →
      ∃ t g, exec (.tretExit f) s = .next t ∧ t.group? i.key = some g ∧ g.v = i.g.v ∧ g.g = i.g.g ∧ g.k = i.g.k ∧
        g.tmask = i.g.tmask &&& ~~~ m ∧ (∀ d, d < 8 → g.jget d = i.g.jget d &&& ~~~ m) ∧
        (∀ l, inSet m l = true → (g.lane l).st = .exited) ∧
        (NoBarrierWait s → Rejoined i.g g (fun d => if d < 8 then i.g.jget d &&& ~~~ m else BitVec.allOnes 32) i.sub)) ∧
    ((∀ l, inSet m l = true → (i.g.lane l).bySave = true) →
      (stays → ∃ t g, exec (.tretSave f) s = .next t ∧ t.group? i.key = some g ∧ RegistersKept i.g g ∧
        g.tmask = i.g.tmask &&& ~~~ m ∧ Untouched s t i.key ∧ OthersGoOn i 3 g m ∧
        ∀ l, inSet m l = true → (g.lane l).st = .trapped true ∧ (g.lane l).saved = true) ∧
      (¬ stays → ∃ t, exec (.tretSave f) s = .next t ∧ t.group? i.key = none)) ∧
    ((∃ l, inSet m l = true ∧ (i.g.lane l).bySave = false) →
      (∃ l, l < 32 ∧ (i.g.lane l).st ≠ .exited ∧ (i.g.lane l).saved = false) →
      ∃ t g, exec (.tretSave f) s = .next t ∧ t.group? i.key = some g ∧ RegistersKept i.g g ∧ SpecialsKept i.g g ∧
        TrapTaken i.g g i.sub i.pci cIllegalOperand 0 0)

/-- R395, R139, R168 and R170: CSRD gives a lane's register in v_d of the active lanes, or a group's or the device's in g_d; CSWR in
privileged mode writes a lane's register in the active lanes, TMASK, TRAPV without its low two bits, FMODE outside RM and SUBN at once
and those from the next run; a write to FFLAGS clears the bits written as 1, one to CYCLE or GID does nothing. A register of access ROP,
and FMODE for CSWR, raises PRIVILEGED in user mode. R396 and Table 15.12: TSTATE.rd gives g_d a role register, a rejoin mask, a lane
mask, the budget or the mask of exited lanes; TSTATE.wr writes a role register but for its reserved bits (R6), a rejoin mask or a lane mask, of which k0 takes nothing,
and no other register. In user mode both raise PRIVILEGED. -/
def Obligations.ControlRegisters : Prop :=
  (∀ (s : State) (i : Iss) (f : FmtW), s.stalls i false = false →
    (∀ x ∈ laneRegisters, f.imm.toNat = x.1 → privileged i.t i.g = true →
      (dvOk f.m.d.toNat i.g.budget = true → Issues s i .none [] →
        ∃ t g, exec (.csrd f) s = .next t ∧ Completed s t i 3 g ∧ VectorsKept i.g g f.m.d.toNat (written i f.m.g.toNat f.m.nw) ∧
          g.g = i.g.g ∧ g.k = i.g.k ∧ g.j = i.g.j ∧ g.fmode = i.g.fmode ∧ g.fflags = i.g.fflags ∧
          ∀ l, inSet (written i f.m.g.toNat f.m.nw) l = true → g.vget f.m.d.toNat l = x.2.1 (i.g.lane l)) ∧
      (f.m.nw = false → Issues s i .none [src10 f.m.b] →
        ∃ t g, exec (.cswr f) s = .next t ∧ t.group? i.key = some g ∧ RegistersKept i.g g ∧ SpecialsKept i.g g ∧ Untouched s t i.key ∧
          (∀ l, inSet i.sub l = true → (g.lane l).pc = i.run.pc + 12 ∧ (g.lane l).st = (i.g.lane l).st) ∧
          ∀ l, l < 32 → ∀ y ∈ laneRegisters, y.2.1 (g.lane l) =
            if y.1 = x.1 ∧ inSet (i.act f.m.g.toNat) l = true then x.2.2 (i.read (src10 f.m.b) l 15) else y.2.1 (i.g.lane l))) ∧
    (f.m.nw = false → Issues s i .none [] →
      (∀ x ∈ groupRegisters i s, f.imm.toNat = x.1 → (x.2.2 = true → privileged i.t i.g = true) → f.m.d.toNat < 64 →
        ∃ t g, exec (.csrd f) s = .next t ∧ UniformLate s t i g f.m.d.toNat x.2.1 ∧
          ∃ w : FlagWait, w.reg = f.m.d.toNat ∧ w.late = 0 ∧ w.shut = false ∧
            g.csrd = (i.g.csrd.filter fun y => y.reg != f.m.d.toNat) ++ if x.1 = 0x001 then [w] else []) ∧
      ((src10 f.m.b).uniform = true →
        let v := i.uni (src10 f.m.b)
        let wrote (n : Nat) (fmode fflags tmask : BitVec 32) (next : Option (BitVec 32)) (trapv : BitVec 64) : Prop :=
          f.imm.toNat = n →
          ∃ t g, exec (.cswr f) s = .next t ∧ t.group? i.key = some g ∧ g.v = i.g.v ∧ g.g = i.g.g ∧ g.k = i.g.k ∧ g.j = i.g.j ∧
            g.cv = i.g.cv ∧ g.budget = i.g.budget ∧ Untouched s t i.key ∧ OthersGoOn i 3 g 0 ∧ g.fmode = fmode ∧
            g.fflags = fflags ∧ g.tmask = tmask ∧ g.fmodeNext = next ∧ g.trapv = trapv
        wrote 0x001 i.g.fmode (i.g.fflags &&& ~~~ (v.setWidth 32)) i.g.tmask i.g.fmodeNext i.g.trapv ∧
        wrote 0x002 i.g.fmode i.g.fflags i.g.tmask i.g.fmodeNext i.g.trapv ∧
        wrote 0x003 i.g.fmode i.g.fflags i.g.tmask i.g.fmodeNext i.g.trapv ∧
        (privileged i.t i.g = true →
          wrote 0x020 i.g.fmode i.g.fflags (v.setWidth 32) i.g.fmodeNext i.g.trapv ∧
          wrote 0x021 i.g.fmode i.g.fflags i.g.tmask i.g.fmodeNext (v &&& ~~~ 3) ∧
          (v.toNat % 8 ≤ 5 → v.toNat / 8 % 4 ≤ 1 →
            wrote 0x000 (BitVec.ofNat 32 (i.g.fmode.toNat % 256 + v.toNat / 256 % 64 * 256)) i.g.fflags i.g.tmask
              (some (BitVec.ofNat 32 (v.toNat % 32))) i.g.trapv))) ∧
      (privileged i.t i.g = false →
        ∀ x ∈ [(Instr.csrd f, 0x010), (.csrd f, 0x011), (.csrd f, 0x012), (.csrd f, 0x013), (.csrd f, 0x014), (.csrd f, 0x020),
               (.csrd f, 0x021), (.cswr f, 0x000), (.cswr f, 0x010), (.cswr f, 0x011), (.cswr f, 0x012), (.cswr f, 0x013),
               (.cswr f, 0x014), (.cswr f, 0x020), (.cswr f, 0x021)],
          f.imm.toNat = x.2 → ∃ t g, exec x.1 s = .next t ∧ t.group? i.key = some g ∧ RegistersKept i.g g ∧ SpecialsKept i.g g ∧
            TrapTaken i.g g i.sub i.pci cPrivileged 0 0))) ∧
  (∀ (s : State) (i : Iss) (f : FmtW), f.m.nw = false → Issues s i .none [] → s.stalls i false = false →
    let n := f.imm.toNat
    (privileged i.t i.g = true → f.m.d.toNat < 64 →
      let is (x : BitVec 64) : Prop := ∃ t g, exec (.tstateRd f) s = .next t ∧ UniformLate s t i g f.m.d.toNat x
      (n < 8 → is (i.g.cvget n)) ∧ (8 ≤ n → n < 16 → is ((i.g.jget (n - 8)).setWidth 64)) ∧
      (16 ≤ n → n < 24 → is ((i.g.kget (n - 16)).setWidth 64)) ∧
      (n = 24 → is (BitVec.ofNat 64 (i.g.budgetNext.getD i.g.budget))) ∧
      (n = 25 → ∃ t g x, exec (.tstateRd f) s = .next t ∧ UniformLate s t i g f.m.d.toNat x ∧ x.toNat < 2 ^ 32 ∧
        ∀ l, l < 32 → (x.getLsbD l = true ↔ (i.g.lane l).st = .exited))) ∧
    (privileged i.t i.g = true → n < 24 → (src10 f.m.b).isG = true →
      let v := i.uni (src10 f.m.b)
      ∃ t g, exec (.tstateWr f) s = .next t ∧ t.group? i.key = some g ∧ g.v = i.g.v ∧ g.g = i.g.g ∧ g.fmode = i.g.fmode ∧
        g.fflags = i.g.fflags ∧ g.tmask = i.g.tmask ∧ g.trapv = i.g.trapv ∧ g.budget = i.g.budget ∧ Untouched s t i.key ∧
        OthersGoOn i 3 g 0 ∧
        (∀ r, r < 8 → g.cvget r = if r = n then v &&& 0x8FFFFFFFFFFFFFFF else i.g.cvget r) ∧
        (∀ r, r < 8 → g.jget r = if r + 8 = n then v.setWidth 32 else i.g.jget r) ∧
        ∀ r, r < 8 → g.kget r = if r + 16 = n ∧ r ≠ 0 then v.setWidth 32 else i.g.kget r) ∧
    (privileged i.t i.g = false → ∀ ins ∈ [Instr.tstateRd f, .tstateWr f],
      ∃ t g, exec ins s = .next t ∧ t.group? i.key = some g ∧ RegistersKept i.g g ∧ SpecialsKept i.g g ∧
        TrapTaken i.g g i.sub i.pci cPrivileged 0 0))

/-! ## Translation, halting -/

/-- R397, R398, R80 to R82, R84 and R85: a service's TLBINV takes out of every TLB the entries that cover A in ASID C, every entry of C,
or all, and of the walks in flight none installs its result; its POTSET writes the ownership entry of a page, where the checks pass;
both park their sub-group, which goes on after TLBINV_COMPLETE, or after POTSET_COMPLETE once no conversation operation that passed its
check earlier is still to write the page (R85), in a new region. A walk that ends puts its leaf, unless
a TLBINV has been issued since it began, into the TLBs that wait for it, none of which then holds more entries than its size. -/
def Obligations.TranslationAndOwnership : Prop :=
  (∀ (s : State) (i : Iss) (f : FmtW), Issues s i .none [] → f.m.nw = false → f.m.rb = true → i.t.service = true →
    (f.aux.toNat % 4 ≠ 3 → (src10 f.m.a).isG = true → (src10 f.m.c).isG = true → s.stalls i true = false →
      let va := (i.uni (src10 f.m.a)).toNat
      let asid := (i.uni (src10 f.m.c)).toNat % 65536
      ∀ x ∈ [(Instr.tlbinvPage f, fun (e : TlbEntry) => e.asid == asid && e.va == va / 2 ^ e.size * 2 ^ e.size),
             (.tlbinvAsid f, fun e => e.asid == asid), (.tlbinvAll f, fun _ => true)],
        ∃ t g, exec x.1 s = .next t ∧ t.group? i.key = some g ∧ RegistersKept i.g g ∧ SpecialsKept i.g g ∧ RestKept s t i.key ∧
          (∀ e, e ∈ t.tlb ↔ e ∈ s.tlb ∧ x.2 e = false) ∧ (∀ w ∈ t.walks, w.leaf.isSome = true → w.install = false) ∧
          (∀ l, inSet i.sub l = true → (g.lane l).st = .parked .tlbinv ∧ (g.lane l).pc = i.pci) ∧
          ∀ l, l < 32 → inSet i.sub l = false → g.lane l = i.g.lane l) ∧
    ((src10 f.m.a).isG = true → (src10 f.m.b).isG = true → s.stalls i false = false →
      let pa := (i.uni (src10 f.m.a)).toNat
      let e := (i.uni (src10 f.m.b)).toNat % 2 ^ 32
      let old := potEntry s.mem pa
      let own := s.teamWorld i.t
      pa % 65536 = 0 → (pa < 0x8000000000 ∨ (0x20000000000 ≤ pa ∧ pa < 0x40000000000)) →
      e / 2 ^ 20 = 0 → e / 2 ^ 12 % 16 = 0 → e % 256 = 0 → e / 256 % 16 ≤ 3 →
      (s.conf = true → i.t.firmware = true) →
      (i.t.firmware = true ∨ ((potState old = 0 ∨ potOwner old = own) ∧ e / 2 ^ 16 % 16 = own ∧ e / 256 % 16 ≤ 2)) →
      ∃ t g, exec (.potset f) s = .next t ∧ t.group? i.key = some g ∧ RegistersKept i.g g ∧ SpecialsKept i.g g ∧
        potEntry t.mem pa = e ∧
        (∀ space a, (space ≠ 0 ∨ a < Config.potBase + 4 * potIndex pa ∨ Config.potBase + 4 * potIndex pa + 4 ≤ a) →
          byteAt t space a = byteAt s space a) ∧
        ∀ l, inSet i.sub l = true → (g.lane l).st = .parked (.potset (pa / 65536)) ∧ (g.lane l).pc = i.pci)) ∧
  (∀ (s : State) (c p n : Nat) (g : Group), s.group? (slotKey c p n) = some g →
    let open_ (page : Nat) : Prop := ∃ o ∈ s.convs, o.space = 0 ∧ o.pa / 65536 = page ∧ o.again = false ∧ o.parked = false
    ∀ x ∈ [(Instr.tlbinvComplete c p n, fun w => w = Wait.tlbinv),
           (.potsetComplete c p n, fun w => ∃ page, w = .potset page ∧ ¬ open_ page)],
      ∃ t g', exec x.1 s = .next t ∧ t.group? (slotKey c p n) = some g' ∧ RegistersKept g g' ∧ SpecialsKept g g' ∧
        Untouched s t (slotKey c p n) ∧ ∀ l, l < 32 →
          (∀ w, (g.lane l).st = .parked w → x.2 w → (g'.lane l).st = .ready ∧ (g'.lane l).pc = (g.lane l).pc + 12 ∧
            (g'.lane l).tregion = (g.lane l).pc + 12) ∧
          ((∀ w, (g.lane l).st = .parked w → ¬ x.2 w) → g'.lane l = g.lane l)) ∧
  (∀ (s : State) (asid : BitVec 16) (va : BitVec 64),
    let page := va.toNat / 65536 * 65536
    let mine (w : PageWalk) : Bool := w.leaf.isSome && w.asid == asid.toNat && w.va == page
    let filled (t : State) (units : List Nat) (leaf : BitVec 128 × Nat) : Prop :=
      (∀ u ∈ units, ∃ e ∈ t.tlb, e.unit = u ∧ e.asid = asid.toNat ∧ e.size = leaf.2 ∧ e.va = page / 2 ^ leaf.2 * 2 ^ leaf.2) ∧
      (∀ e ∈ t.tlb, e ∈ s.tlb ∨ (e.unit ∈ units ∧ e.asid = asid.toNat ∧ e.size = leaf.2 ∧ e.pte = leaf.1)) ∧
      ∀ u, (s.tlb.filter fun e => e.unit == u).length ≤ tlbSize u → (t.tlb.filter fun e => e.unit == u).length ≤ tlbSize u
    (∀ w leaf, s.walks.find? mine = some w → w.leaf = some leaf → (∀ x ∈ s.walks, x.die = w.die → x.leaf ≠ none) →
      ∃ t, exec (.pageWalkComplete asid va) s = .next t ∧ t.mem = s.mem ∧ t.groups = s.groups ∧ t.walks = s.walks.erase w ∧
        (w.install = true → filled t w.units leaf) ∧ (w.install = false → t.tlb = s.tlb)) ∧
    (∀ c pte size, s.walks.find? mine = none →
      (∀ x ∈ s.walks, x.leaf = none → x.die ≠ s.die ∧ (x.asid ≠ asid.toNat ∨ x.va ≠ page)) →
      s.ctxs.find? (fun x => x.asid == asid.toNat) = some c → s.walkQueued c page = false → s.tlbFind c.asid page = none →
      s.walk c page = .leaf pte size →
      ∃ t, exec (.pageWalkComplete asid va) s = .next t ∧ t.mem = s.mem ∧ t.groups = s.groups ∧
        filled t s.tlbUnits (BitVec.ofNat 128 pte, size)))

/-- R399, R400 and R383: HALT marks the group that a GID and an ASID name and gives 1 where it was not halted, else 0; LRESUME signals
the engine operations of the ASID that wait on a fault, and takes the lanes of its mask outside TMASK: replay the REPLAYING to their
restart PC, retry the TRAPPED to TPC, skip past TPC, kill both to EXITED, and gives their number; run takes a group out of HALTED. -/
def Obligations.HaltAndResume : Prop :=
  ∀ (s : State) (i : Iss) (f : FmtW), Issues s i .none [] → f.m.nw = false → i.t.service = true → f.m.d.toNat < 64 →
    (src10 f.m.a).isG = true → (src10 f.m.c).isG = true →
    let asid := (i.uni (src10 f.m.c)).toNat % 65536
    let found := s.findGid (i.uni (src10 f.m.a)) asid
    let gave (t : State) (g : Group) (x : BitVec 64) : Prop :=
      Moved s t i 3 g ∧ g.gget f.m.d.toNat = x ∧ (∀ r, r ≠ f.m.d.toNat → g.gget r = i.g.gget r) ∧ g.v = i.g.v ∧ g.k = i.g.k ∧
        ∀ space a, byteAt t space a = byteAt s space a
    (s.stalls i false = false →
      (found = none → ∃ t g, exec (.halt f) s = .next t ∧ gave t g 0 ∧ Untouched s t i.key) ∧
      (∀ k x, found = some (k, x) → x.halted = true → ∃ t g, exec (.halt f) s = .next t ∧ gave t g 0 ∧ Untouched s t i.key) ∧
      (∀ k x, found = some (k, x) → x.halted = false → k ≠ i.key → ∃ t g, exec (.halt f) s = .next t ∧ gave t g 1 ∧
        t.group? k = some { x with haltReq := true } ∧ ∀ j, j ≠ k → j ≠ i.key → t.group? j = s.group? j) ∧
      (found = some (i.key, i.g) → i.g.halted = false → ∃ t g, exec (.halt f) s = .next t ∧ t.group? i.key = some g ∧ g.haltReq = true ∧
        g.gget f.m.d.toNat = 1 ∧ ∀ l, inSet i.sub l = true → (g.lane l).pc = i.run.pc + 12)) ∧
    (s.stalls i true = false → f.aux.toNat < 5 → s.barWaits = [] →
      let all : List (Instr × Nat) := [(.lresumeReplay f, 0), (.lresumeRetry f, 1), (.lresumeSkip f, 2), (.lresumeKill f, 3)]
      let signalled (t : State) : Prop :=
        ∀ n ∈ s.engineWaits (fun c => ((s.ctx? c).map (·.asid)) == some asid), n ∈ t.signalled
      (∀ x ∈ all, found = none → (src10 f.m.b).isG = true → ∃ t g, exec x.1 s = .next t ∧ gave t g 0 ∧ signalled t) ∧
      (found = none → ∃ t g, exec (.lresumeRun f) s = .next t ∧ gave t g 0 ∧ signalled t) ∧
      (∀ k x, found = some (k, x) → k ≠ i.key →
        let mask : LaneSet := (i.uni (src10 f.m.b)).setWidth 32
        let takes (a l : Nat) : Prop := inSet mask l = true ∧ inSet x.tmask l = false ∧ resumable a (x.lane l).st
        ((src10 f.m.b).isG = true → ∀ y ∈ all, ∃ (r : LaneSet), (∀ l, l < 32 → (inSet r l = true ↔ takes y.2 l)) ∧
          (y.2 ≠ 3 → ∃ t g g', exec y.1 s = .next t ∧ gave t g (BitVec.ofNat 64 (lanesOf r).length) ∧ signalled t ∧
            t.group? k = some g' ∧ RegistersKept x g' ∧ SpecialsKept x g' ∧
            (∀ l, l < 32 → inSet r l = false → g'.lane l = x.lane l) ∧
            ∀ l, inSet r l = true → (g'.lane l).st = .ready ∧ (g'.lane l).skip = decide (y.2 = 2) ∧
              (g'.lane l).pc = if y.2 = 0 then (x.lane l).pc else (x.lane l).tpc) ∧
          (y.2 = 3 → (∃ l, l < 32 ∧ inSet r l = false ∧ (x.lane l).st ≠ .exited) →
            ∃ t g g', exec y.1 s = .next t ∧ t.group? i.key = some g ∧
              g.gget f.m.d.toNat = BitVec.ofNat 64 (lanesOf r).length ∧ t.group? k = some g' ∧ g'.v = x.v ∧ g'.g = x.g ∧
              (∀ l, inSet r l = true → (g'.lane l).st = .exited) ∧ ∀ d, d < 8 → g'.jget d = x.jget d &&& ~~~ r)) ∧
        (x.halted = false → ∃ t g, exec (.lresumeRun f) s = .next t ∧ gave t g 0 ∧ t.group? k = some x) ∧
        (x.halted = true → ∃ t g, exec (.lresumeRun f) s = .next t ∧ gave t g 1 ∧ t.group? k = some { x with halted := false })))

/-! ## Turns -/

/-- R348, R349, R350, R374, R382 and R383: a turn moves the port's rotation on by one slot. A group with nothing pending begins a run of
the READY lanes at its lowest PC, where the buffer holds it; undelivered traps enter the handler at TRAPV; ERROR_QUEUE_NONEMPTY takes
the READY lanes there; a halt marked is taken where no lane waits. RUN_FETCH fills the buffer from the PCs of the READY lanes, or notes
the cause its first word meets. -/
def Obligations.TurnsAndFetch : Prop :=
  ∀ (s : State) (c p : Nat), HasPort s c p → ((s.core c).port p).run = none →
    let slot := ((s.core c).port p).rot
    let key := slotKey c p slot
    let last := ((s.core c).port p).turn
    last ≠ some slot →
    let rotated (t : State) : Prop := ((t.core c).port p).rot = (slot + 1) % 16
    (s.group? key = none → ∃ t, exec (.barrelTurn c p) s = .next t ∧ rotated t ∧ ((t.core c).port p).run = none ∧
      (last = none → t.groups = s.groups)) ∧
    (∀ g, s.group? key = some g →
      (∀ l, Quiet g → g.tmask = 0 → g.awaits = [] → l < 32 → (g.lane l).st = .ready → (g.lane l).saved = false →
        (∀ n, n < 32 → (g.lane n).st = .ready → (g.lane l).pc.toNat ≤ (g.lane n).pc.toNat) →
        (∃ r ∈ g.buf, r.start = (g.lane l).pc) → (g.lane l).kept = none →
        ∃ t g' r, exec (.barrelTurn c p) s = .next t ∧ rotated t ∧ ((t.core c).port p).run = some r ∧ r.slot = slot ∧
          r.start = (g.lane l).pc ∧ r.pc = (g.lane l).pc ∧ r.count = 0 ∧ r.filled = 0 ∧ r.pfx = none ∧
          (∀ n, n < 32 → (inSet r.sub n = true ↔ ((g.lane n).st = .ready ∧ (g.lane n).pc = (g.lane l).pc))) ∧
          t.group? key = some g' ∧ g'.v = g.v ∧ g'.g = g.g ∧ g'.k = g.k ∧ g'.j = g.j ∧ g'.cv = g.cv ∧ g'.fflags = g.fflags ∧
          g'.budget = g.budgetNext.getD g.budget ∧
          ∀ k, k ≠ key → (∀ j, last = some j → k ≠ slotKey c p j) → t.group? k = s.group? k) ∧
      (∀ m : LaneSet, g.halted = false → g.haltReq = false → (∀ l, l < 32 → (inSet m l = true ↔ (g.lane l).st = .trapped false)) →
        (∃ l, inSet m l = true ∧ (g.lane l).saved = false) →
        ∃ t g', exec (.barrelTurn c p) s = .next t ∧ rotated t ∧ t.group? key = some g' ∧ g'.tmask = g.tmask ||| m ∧
          g'.v = g.v ∧ g'.g = g.g ∧ g'.k = g.k ∧ g'.j = g.j ∧ g'.trapv = g.trapv ∧
          ∀ l, inSet m l = true → (g'.lane l).st = .ready ∧ (g'.lane l).pc = g.trapv ∧ (g'.lane l).tcause = (g.lane l).tcause ∧
            (g'.lane l).tpc = (g.lane l).tpc ∧ (g'.lane l).taddr = (g.lane l).taddr ∧ (g'.lane l).tinfo = (g.lane l).tinfo) ∧
      (∀ m : LaneSet, Quiet { g with errReq := false } → g.errReq = true → g.tmask = 0 → g.trapv ≠ 0 → m ≠ 0 →
        (∀ l, l < 32 → (inSet m l = true ↔ (g.lane l).st = .ready)) → (∃ l, inSet m l = true ∧ (g.lane l).saved = false) →
        ∃ t g', exec (.barrelTurn c p) s = .next t ∧ t.group? key = some g' ∧ g'.tmask = m ∧ g'.errReq = false ∧
          g'.v = g.v ∧ g'.g = g.g ∧ g'.k = g.k ∧ g'.j = g.j ∧
          ∀ l, inSet m l = true → (g'.lane l).st = .ready ∧ (g'.lane l).pc = g.trapv ∧ (g'.lane l).tcause = cErrorQueueNonempty ∧
            (g'.lane l).tpc = (g.lane l).pc ∧ (g'.lane l).taddr = 0) ∧
      (g.halted = false → g.haltReq = true → s.remotes = [] → (∃ l, l < 32 ∧ (g.lane l).st ≠ .exited) →
        (∀ l, l < 32 → (g.lane l).ret = false ∧ (g.lane l).saved = false ∧ (g.lane l).st ≠ .trapped false ∧
          ∀ w, (g.lane l).st ≠ .parked w) →
        ∃ t g', exec (.barrelTurn c p) s = .next t ∧ rotated t ∧ ((t.core c).port p).run = none ∧ t.group? key = some g' ∧
          g'.halted = true ∧ g'.haltReq = false ∧ RegistersKept g g' ∧ ∀ l, l < 32 → (g'.lane l).st = (g.lane l).st)) ∧
    (∀ (n : Nat) (g : Group) (tm : Team) (x : Context) (pc : BitVec 64), s.group? (slotKey c p n) = some g →
      s.team? g.team = some tm → s.ctx? tm.ctx = some x → g.buf = [] → g.tmask = 0 →
      (∃ l, l < 32 ∧ (g.lane l).st = .ready) → (∀ l, l < 32 → (g.lane l).st = .ready → (g.lane l).pc = pc) →
      let got (b : FetchedRun) : Prop :=
        ∃ t g', exec (.runFetch c p n) s = .next t ∧ t.group? (slotKey c p n) = some g' ∧ g'.buf = [b] ∧ RegistersKept g g' ∧
          g'.lanes = g.lanes ∧ Untouched s t (slotKey c p n)
      (pc.toNat % 4 ≠ 0 → got { start := pc, words := [], fail := some cMisaligned }) ∧
      (pc.toNat % 4 = 0 → ∀ cause, s.resolve x (privileged tm g) .exec pc.toNat 4 = .error cause →
        got { start := pc, words := [], fail := some cause }) ∧
      (pc.toNat % 4 = 0 → ∀ loc, s.resolve x (privileged tm g) .exec pc.toNat 4 = .ok loc →
        s.reach (s.teamWorld tm) (privileged tm g) .exec loc 4 = .ok →
        let w : Word := BitVec.ofNat 32 (s.readNat loc.space loc.pa 4)
        lenWords (wordLen w) = 1 → w.getLsbD 29 = true → got { start := pc, words := [w], fail := none }))

/-! ## The Asynchronous Engine -/

/-- R118, R120, R111, R112, R121, R129 and R339: the request engine takes the packet of the team's earliest SUBMITTED slot, which is
FREE again, and the packet at a shared queue's RDIDX, whose KIND is zeroed as RDIDX goes on, into its queue of 32; it starts the next
packet with all its bytes to move, or ends a malformed one with ERROR and ILLEGAL_OPERAND in its barrier; a shared queue's SPAWN packet
puts its record in the launch queue that the shared queue names. R111 to R113, R127 and R131: a piece of a started packet (at most 512
bytes, of one row and one page of each side) arrives: its bytes stand at the destination in scratchpad, or in local memory that holds no
error, its barrier counts them (`Arrive` of R42), and the packet ends when no byte of it is left. Beside the destination, the barrier
and a bit of the cleared bitmap nothing in scratchpad or memory changes. -/
def Obligations.EnginePackets : Prop :=
  (∀ (s : State) (core : Nat), core < 192 → s.cores.length = 192 →
    let c := s.core core
    (∀ (tm : Team) (k place : Nat) (o : Origin), c.queue.length < 32 → s.nextRingTeam core = some tm →
      firstSubmitted tm.ring = some (k, place, o) → s.team? tm.tid = some tm →
      ∃ t, exec (.ringSlotRead core) s = .next t ∧ (t.core core).queue = c.queue ++
          [{ bytes := teamPacket s tm (tm.ringStart + 64 * k), org := o, queue := none, place := place, stall := none,
             cancel := false }] ∧
        t.team? tm.tid = some { tm with ring := tm.ring.set k .free } ∧ (t.core core).spad = c.spad ∧ t.groups = s.groups ∧
        ∀ space a, byteAt t space a = byteAt s space a) ∧
    (32 ≤ c.queue.length → exec (.ringSlotRead core) s = .next s) ∧
    (∀ (n : Nat) (q : SharedQueue) (x : Context) (rl sl hl wl : Loc), s.shared.getD n none = some q → q.core = core → q.stall = none →
      s.ctx? q.ctx = some x → c.queue.length < 32 → c.spawnWaits n = false →
      s.engAcc x.world x .read (q.desc + 128) 8 = .at_ rl →
      let rd := s.readNat rl.space rl.pa 8
      let sva := q.desc + 4096 + 64 * (rd % 2 ^ q.n)
      s.engAcc x.world x .read sva 64 = .at_ sl → s.engAcc x.world x .write sva 8 = .at_ hl →
      s.engAcc x.world x .write (q.desc + 128) 8 = .at_ wl →
      let b := s.readBytes sl.space sl.pa 64
      (pkKind b ≠ 0 →
        ∃ t p, exec (.sharedQueueSlotRead n) s = .next t ∧ (t.core core).queue = c.queue ++ [p] ∧ p.bytes = b ∧ p.queue = some n ∧
          p.org.team = none ∧ p.org.ctx = x.num ∧ p.org.world = x.world ∧ p.org.gid = 0 ∧ p.org.pc = 0 ∧ p.stall = none ∧
          (rl.space = 0 → sl.space = 0 → s.eccBad = [] → s.tagBad = [] → (rl.pa + 8 ≤ sl.pa ∨ sl.pa + 8 ≤ rl.pa) →
            rl.pa % 65536 + 8 ≤ 65536 → sl.pa % 65536 + 8 ≤ 65536 → isCarve rl.pa = false → isCarve sl.pa = false →
            t.readNat 0 rl.pa 8 = (rd + 1) % 2 ^ 64 ∧ t.readNat 0 sl.pa 8 = 0))) ∧
    (∀ p, c.nextPacket = some p →
      ∀ x ∈ [(Instr.copy core, !(pkKind p.bytes == 2 || pkKind p.bytes == 3 || pkKind p.bytes == 0x10 || pkKind p.bytes == 0x18)),
             (.copy3d core, pkKind p.bytes == 2), (.fill core, pkKind p.bytes == 3)], x.2 = true →
        (copyBad p.bytes p.queue.isSome = false → rangeBad (s.packetTeam p) p.bytes = false → c.crowded p.place = false →
          ∃ t, exec x.1 s = .next t ∧ (t.core core).active = c.active ++
              [{ pkt := p, todo := [(0, (rowsOf p.bytes).len * (rowsOf p.bytes).ny * (rowsOf p.bytes).nz)], stall := none }] ∧
            (t.core core).queue = c.queue.filter (fun y => y.place != p.place) ∧ (t.core core).spad = c.spad ∧
            t.groups = s.groups ∧ ∀ space a, byteAt t space a = byteAt s space a) ∧
        (∀ tm at_, copyBad p.bytes p.queue.isSome = true → TeamBar s core p tm at_ →
          ∃ t, exec x.1 s = .next t ∧ (t.core core).active = c.active ∧
            (t.core core).queue = c.queue.filter (fun y => y.place != p.place) ∧
            (t.barGet (.spad core at_)).error = true ∧
            ((s.barGet (.spad core at_)).cause = 0 → (t.barGet (.spad core at_)).cause = 2) ∧
            ∀ space a, byteAt t space a = byteAt s space a)) ∧
    (∀ (p : Packet) (n : Nat) (q : SharedQueue) (x : Context) (l : Loc), c.nextSpawn s.mayRetry = some p → p.queue = some n →
      p.stall = none → s.shared.getD n none = some q → s.ctx? p.org.ctx = some x → pk p.bytes 8 8 % 64 = 0 →
      s.engAcc x.world x .read (pk p.bytes 8 8) 64 = .at_ l → s.queueBound q.lq x.num = true → s.queues.length = 64 →
      let bs := s.readBytes l.space l.pa 64
      recBad bs = false →
      ((s.lqueue q.lq).full = true → exec (.spawnPacket core) s = .next s) ∧
      ((s.lqueue q.lq).full = false →
        ∃ t, exec (.spawnPacket core) s = .next t ∧ (t.core core).queue = c.queue.filter (fun y => y.place != p.place) ∧
          (t.lqueue q.lq).recs = (s.lqueue q.lq).recs ++ [{ bytes := bs, pc := 0, who := none, peer := 0xFF }] ∧
          ∀ space a, byteAt t space a = byteAt s space a))) ∧
  (∀ (s : State) (core idx start len : Nat) (x : Copying) (c : Context) (tm : Team) (bar : Nat) (rest : List (Nat × Nat)),
    (s.core core).active[idx]? = some x → TeamBar s core x.pkt tm bar → s.ctx? x.pkt.org.ctx = some c → x.stall = none →
    s.copyWaits core x.pkt.place = false → takeRange start len x.todo = some rest →
    let b := x.pkt.bytes
    let r := rowsOf b
    let src := r.srcAt start
    let dst := r.dstAt start
    1 ≤ len → len ≤ 512 → start / r.len = (start + len - 1) / r.len →
    ((pkKind b ≠ 3 ∧ pkSscr b = false) → wrap 64 src % 65536 + len ≤ 65536) →
    (pkDdev b = true → wrap 64 dst % 65536 + len ≤ 65536) →
    s.walksWait c ((if pkKind b = 3 ∨ pkSscr b = true then [] else [wrap 64 src]) ++ if pkDdev b then [wrap 64 dst] else []) = false →
    (pkSscr b = true → absent (s.core core) (tm.base + src.toNat) len = false) →
    let reads (bs : List Byte) : Prop :=
      (pkKind b = 3 → bs = (List.range len).map fun i => (toBytes 8 (pk b 8 8)).getD ((wrap 64 dst + i) % 8) 0) ∧
      (pkKind b ≠ 3 → pkSscr b = true → bs = spadRead (s.core core) (tm.base + src.toNat) len) ∧
      (pkKind b ≠ 3 → pkSscr b = false →
        ∃ l, s.engAcc x.pkt.org.world c .read (wrap 64 src) len = .at_ l ∧ bs = s.readBytes l.space l.pa len)
    let moved (t : State) : Prop :=
      (t.core core).active = (if rest = [] then (s.core core).active.filter (fun y => y.pkt.place != x.pkt.place)
        else (s.core core).active.set idx { x with todo := rest, stall := none }) ∧
      t.barGet (.spad core bar) = ((s.barGet (.spad core bar)).arrive len).written
    ∀ bs, reads bs →
      (pkDdev b = false → (tm.base + dst.toNat + len ≤ bar ∨ bar + 16 ≤ tm.base + dst.toNat) →
        ∃ t, exec (.pieceArrival core idx start len) s = .next t ∧ moved t ∧
          (∀ i, i < len → sget (t.core core).spad (tm.base + dst.toNat + i) = bs.getD i 0) ∧
          (∀ k a, (k ≠ core ∨ ((a < tm.base + dst.toNat ∨ tm.base + dst.toNat + len ≤ a) ∧ (a < bar ∨ bar + 16 ≤ a))) →
            sget (t.core k).spad a = sget (s.core k).spad a) ∧
          ∀ space a, byteAt t space a = byteAt s space a) ∧
      (∀ l, pkDdev b = true → s.engAcc x.pkt.org.world c .write (wrap 64 dst) len = .at_ l → l.space = 0 → s.eccBad = [] →
        s.tagBad = [] → isCarve l.pa = false → isCarve (l.pa + len - 1) = false → l.pa % 65536 + len ≤ 65536 →
        ∃ t, exec (.pieceArrival core idx start len) s = .next t ∧ moved t ∧
          (∀ i, i < len → byteAt t 0 (l.pa + i) = [bs.getD i 0]) ∧
          (∀ space a, (space ≠ 0 ∨ a < l.pa ∨ l.pa + len ≤ a) → (space = 0 → a ≠ Config.clearedBase + potIndex l.pa / 8) →
            byteAt t space a = byteAt s space a) ∧
          ∀ k a, (k ≠ core ∨ a < bar ∨ bar + 16 ≤ a) → sget (t.core k).spad a = sget (s.core k).spad a))

/-! ## The Plate Engine -/

/-- R215, R217, R218, R220 to R222, R224 to R226, R228 and Table 9.1: an engrave reads its image into the back bank, which reads EMPTY
until it is complete 1,024 cycles on and the MLOOPs before it are done; then the banks swap and the front has the image's format. One
step of an MLOOP adds four A rows into four accumulator rows as R221 computes them and ORs its flags and FLUSH into the status word; one on an
EMPTY front ends with PLATE_FORMAT, held by its group as the pending error where none is held, or recorded where the group is gone; one
whose residue check fails takes a spare, or with none left ends. A drain writes the rows' values in its type, rounded and saturated as
its mode says, counts their bytes in its barrier (in pieces of 512: log entry 33), ORs their flags in and moves the generator on after each block of a dithered one; one with a row that is
not valid marks its barrier. MCLR sets its rows to +0, valid. -/
def Obligations.PlateExecution : Prop :=
  ∀ (s : State) (core : Nat), core < 192 → s.cores.length = 192 →
    let c := s.core core
    let p := c.plate
    let same (t : State) : Prop := (∀ space a, byteAt t space a = byteAt s space a) ∧ (t.core core).spad = c.spad
    (∀ o, p.firstEngr = some o →
      (∀ gq4 off, o.kind = .engr gq4 off → o.stage = .waiting →
        sourceReady c o.place off (if gq4 then 34816 else 66560) = true →
        ∃ t, exec (.engraveStart core) s = .next t ∧ same t ∧
          let q := (t.core core).plate
          q.frontBank = p.frontBank ∧ q.front = p.front ∧ q.backBank.fmt = .empty ∧ q.acc = p.acc ∧
          q.seq = p.seq.map (fun y => if y.place = o.place then { o with stage := .engraving (s.arith + 1024 * 2400) } else y) ∧
          (gq4 = false → ∀ n k, n < 256 → k < 256 → sget q.backBank.cell (256 * n + k) = sget c.spad (off + 256 * n + k)) ∧
          (gq4 = false → ∀ n, n < 256 →
            (sget q.backBank.ss n).toNat = ofBytes (spadRead c (off + 65536 + 4 * n) 4)) ∧
          (gq4 = true → ∀ n k, n < 256 → k < 256 → (sget q.backBank.cell (256 * n + k)).toInt =
            gq4Level ((sget c.spad (off + 136 * n + k / 2)).toNat / 16 ^ (k % 2) % 16)) ∧
          (gq4 = true → ∀ n k, n < 256 → k < 4 → sget q.backBank.q (4 * n + k) = sget c.spad (off + 136 * n + 128 + k)) ∧
          (gq4 = true → ∀ n, n < 256 →
            (sget q.backBank.ss n).toNat = ofBytes (spadRead c (off + 136 * n + 132) 4))) ∧
      (∀ at_, o.stage = .engraving at_ →
        (s.arith < at_ → exec (.engraveComplete core) s = .next s) ∧
        (at_ ≤ s.arith → ∃ t, exec (.engraveComplete core) s = .next t ∧ same t ∧ (t.core core).plate =
          { p with seq := p.seq.map (fun y => if y.place = o.place then { o with stage := .complete } else y) })) ∧
      (∀ gq4 off, o.kind = .engr gq4 off → o.stage = .complete → p.waiters = [] →
        let earlier := (p.seq.takeWhile fun y => y.place != o.place).any fun y => y.kind.isMloop
        (earlier = true → exec (.bankSwap core) s = .next s) ∧
        (earlier = false → ∃ t, exec (.bankSwap core) s = .next t ∧ same t ∧
          let q := (t.core core).plate
          q.front = !p.front ∧ q.frontBank = { p.backBank with fmt := if gq4 then .gq4 else .s8 } ∧ q.backBank = p.frontBank ∧
            q.seq = p.seq.filter (fun y => y.place != o.place) ∧ q.acc = p.acc))) ∧
    (∀ o, p.current = some o → p.waiters = [] →
      (∀ bcode mbase xbase minc xinc rinc row0 steps, o.kind = .mloop bcode mbase xbase minc xinc rinc row0 steps →
        let ma := mbase + o.step * minc
        let xa := xbase + o.step * xinc
        let row (r : Nat) : Nat := (row0 + o.step * rinc + r) % 64
        let bank := p.frontBank
        let key := slotKey ((o.org.team.bind fun n => s.team? n).map (·.core) |>.getD 0) o.org.port o.org.slot
        (∀ mm g, bank.fmt = .empty → s.group? key = some g → g.gid = o.org.gid → some g.team = o.org.team →
          ∃ t g1, exec (.mloopStep core mm) s = .next t ∧ (t.core core).plate.seq = p.seq.filter (fun y => y.place != o.place) ∧
            (t.core core).plate.acc = p.acc ∧ (∀ space a, byteAt t space a = byteAt s space a) ∧
            t.group? key = some g1 ∧ g1.plateErr = some (g.plateErr.getD { cause := 0x29, pc := o.org.pc, step := o.step })) ∧
        (∀ mm, bank.fmt = .empty → s.group? key = none →
          ∃ t, exec (.mloopStep core mm) s = .next t ∧ (t.core core).plate.seq = p.seq.filter (fun y => y.place != o.place) ∧
            (t.core core).plate.acc = p.acc ∧
            ((∃ x, s.ctx? o.org.ctx = some x ∧ x.errq = none) → s.log.length < 4096 → ∃ e, t.log = s.log ++ [e] ∧ e.cls = 7)) ∧
        (bank.fmt ≠ .empty → sourceReady c o.place ma 2048 = true → sourceReady c o.place xa 32 = true →
          (∃ t, exec (.mloopStep core none) s = .next t ∧ same t ∧
            let q := (t.core core).plate
            (∀ r n, r < 4 → n < 256 → sget q.acc (256 * row r + n) = BitVec.ofNat 32
              (pulled (pbfBits bcode) (pullMant (spadRead c (ma + 512 * r) 512) (pbfBits bcode))
                (fun g => (sget c.spad (xa + 8 * r + g)).toNat) (fun k => (sget bank.cell (256 * n + k)).toInt)
                (fun g => if bank.fmt = .gq4 then (sget bank.q (4 * n + g / 2)).toNat else 2 ^ 15) (sget bank.ss n).toNat
                (sget p.acc (256 * row r + n)).toNat)) ∧
            (∀ a n, n < 256 → (∀ r, r < 4 → a ≠ row r) → sget q.acc (256 * a + n) = sget p.acc (256 * a + n)) ∧
            (let column (r n : Nat) := pullColumn (pbfBits bcode) (pullMant (spadRead c (ma + 512 * r) 512) (pbfBits bcode))
              (fun g => (sget c.spad (xa + 8 * r + g)).toNat) (fun k => (sget bank.cell (256 * n + k)).toInt)
              (fun g => if bank.fmt = .gq4 then (sget bank.q (4 * n + g / 2)).toNat else 2 ^ 15) (sget bank.ss n).toNat
              (sget p.acc (256 * row r + n)).toNat
             let some_ (f : Nat × Flags × Bool → Bool) : Bool := (List.range 4).any fun r => (List.range 256).any fun n => f (column r n)
             (∀ k ∈ [(22, 4), (23, 3), (24, 2), (25, 0)],
               q.sticky.getLsbD k.1 = (p.sticky.getLsbD k.1 || some_ fun x => x.2.1.getLsbD k.2)) ∧
             q.sticky.getLsbD 26 = (p.sticky.getLsbD 26 || some_ fun x => x.2.2) ∧
             ∀ k, (k < 22 ∨ 26 < k) → q.sticky.getLsbD k = p.sticky.getLsbD k) ∧
            q.frontBank = bank ∧ q.invalid = p.invalid ∧
            q.seq = (if o.step + 1 < steps then p.seq.map (fun y => if y.place = o.place then { o with step := o.step + 1 } else y)
              else p.seq.filter (fun y => y.place != o.place))) ∧
          (∀ col, bank.inUse col = true → bank.retired.length < 8 → s.log.length < 4096 →
            ∃ t e, exec (.mloopStep core (some col)) s = .next t ∧ same t ∧ t.log = s.log ++ [e] ∧ e.cls = 1 ∧
              (t.core core).plate.frontBank = { bank with retired := bank.retired ++ [col] } ∧ (t.core core).plate.acc = p.acc ∧
              (t.core core).plate.seq = p.seq) ∧
          (∀ col, bank.inUse col = true → 8 ≤ bank.retired.length →
            ∃ t, exec (.mloopStep core (some col)) s = .next t ∧ (t.core core).plate.acc = p.acc ∧
              (t.core core).plate.seq = p.seq.filter (fun y => y.place != o.place) ∧
              ∀ r, r < 4 → (t.core core).plate.invalid.getLsbD (row r) = true))) ∧
      (∀ ty rnd sat dst bar first count tm, o.kind = .mdrain ty rnd sat dst bar first count → first + count ≤ 64 →
        (o.org.team.bind fun n => s.team? n) = some tm → bar % 16 = 0 → bar + 16 ≤ tm.ringStart → c.crowded o.place = false →
        let at_ := tm.base + bar
        let counted (t : State) : Prop :=
          t.barGet (.spad core at_) = arrivesIn512 (s.barGet (.spad core at_)) (256 * memW ty * count)
        ((∀ i, i < count → p.invalid.getLsbD (first + i) = false) → ty = 10 →
          (dst + 1024 * count ≤ at_ ∨ at_ + 16 ≤ dst) →
          ∃ t, exec (.mdrainExecute core) s = .next t ∧ (t.core core).plate.seq = p.seq.filter (fun y => y.place != o.place) ∧
            (t.core core).plate.gen = p.gen ∧ (t.core core).plate.sticky = p.sticky ∧ (t.core core).plate.acc = p.acc ∧
            (∀ i n, i < count → n < 256 → ofBytes (spadRead (t.core core) (dst + 4 * (256 * i + n)) 4) =
              (sget p.acc (256 * (first + i) + n)).toNat) ∧
            (∀ a, (a < dst ∨ dst + 1024 * count ≤ a) → (a < at_ ∨ at_ + 16 ≤ a) → sget (t.core core).spad a = sget c.spad a) ∧
            counted t ∧
            ∀ space a, byteAt t space a = byteAt s space a) ∧
        ((∀ i, i < count → p.invalid.getLsbD (first + i) = false) → ty ∈ [8, 9, 12] → rnd < 6 →
          (dst + 256 * memW ty * count ≤ at_ ∨ at_ + 16 ≤ dst) →
          let md : Modes := { rm := rmOf rnd, flush := false, sat := sat, nf := false, dph := 0 }
          let gen (k : Nat) : BitVec 32 := if rmOf rnd = .dither then Nat.iterate genNext k p.gen else p.gen
          let value (i n : Nat) : FVal := fval 10 (sget p.acc (256 * (first + i) + n)).toNat
          let drained (i n : Nat) : Nat × Flags :=
            roundFull md (genThreshold (gen (8 * i + n / 32)) (n % 32)) ty (value i n) false
          let raised (i n b : Nat) : Bool := (drained i n).2.getLsbD b || (snanFlag [value i n]).getLsbD b
          ∃ t, exec (.mdrainExecute core) s = .next t ∧ (t.core core).plate.seq = p.seq.filter (fun y => y.place != o.place) ∧
            (t.core core).plate.gen = gen (8 * count) ∧ (t.core core).plate.acc = p.acc ∧
            (∀ k ∈ [(22, 4), (23, 3), (24, 2), (25, 0)], (t.core core).plate.sticky.getLsbD k.1 =
              (p.sticky.getLsbD k.1 || (List.range count).any fun i => (List.range 256).any fun n => raised i n k.2)) ∧
            (∀ k, (k < 22 ∨ 25 < k) → (t.core core).plate.sticky.getLsbD k = p.sticky.getLsbD k) ∧
            (∀ i n, i < count → n < 256 → ofBytes (spadRead (t.core core) (dst + memW ty * (256 * i + n)) (memW ty)) =
              (drained i n).1) ∧
            (∀ a, (a < dst ∨ dst + 256 * memW ty * count ≤ a) → (a < at_ ∨ at_ + 16 ≤ a) →
              sget (t.core core).spad a = sget c.spad a) ∧
            counted t ∧ ∀ space a, byteAt t space a = byteAt s space a) ∧
        ((∃ i, i < count ∧ p.invalid.getLsbD (first + i) = true) →
          ∃ t, exec (.mdrainExecute core) s = .next t ∧ (t.core core).plate.seq = p.seq.filter (fun y => y.place != o.place) ∧
            (t.core core).plate.acc = p.acc ∧ (t.barGet (.spad core at_)).error = true ∧
            ((s.barGet (.spad core at_)).cause = 0 → (t.barGet (.spad core at_)).cause = 0x28) ∧
            (∀ a, (a < at_ ∨ at_ + 16 ≤ a) → sget (t.core core).spad a = sget c.spad a) ∧
            ∀ space a, byteAt t space a = byteAt s space a)) ∧
      (∀ first count, o.kind = .mclr first count → first + count ≤ 64 →
        ∃ t, exec (.mclrExecute core) s = .next t ∧ same t ∧
          let q := (t.core core).plate
          q.seq = p.seq.filter (fun y => y.place != o.place) ∧ q.bank0 = p.bank0 ∧ q.bank1 = p.bank1 ∧
          (∀ r, r < 64 → q.invalid.getLsbD r = (p.invalid.getLsbD r && !(decide (first ≤ r) && decide (r < first + count)))) ∧
          ∀ k, sget q.acc k = if 256 * first ≤ k ∧ k < 256 * (first + count) then 0 else sget p.acc k))

/-! ## The Search Engine -/

/-- R237, R239, R242 to R248, R253, R255 and R256: a SEARCH packet leaves its core's port for the Sheepdog of its entry node, which
holds 64 that wait, once no chunk of its result has 15 earlier writers (R127); a query is accepted with its graph's header and its vector, or when marked ends CANCELLED; a neighbour list gives
the ids not seen before; a Sheepdog computes a distance; the owner inserts it, then expands the best candidate not yet expanded, or ends
DONE; a mark marks the queries of its context and tag and answers its SCANCEL with their number, and with the last answer the SCANCEL completes with the sum. -/
def Obligations.SearchSteps : Prop :=
  ∀ (s : State) (dog : Nat), dog < 8 → s.dogs.length = 8 →
    let x := s.dog dog
    (∀ core p rest, core < 192 → s.cores.length = 192 → (s.core core).search = p :: rest →
      (searchBad p.bytes p.queue.isSome = false → searchRange (s.packetTeam p) p.bytes = false → sEntry p.bytes % 8 = dog →
        (∀ tm, s.packetTeam p = some tm → tm.saveRec = none) →
        (64 ≤ x.inbound.length + x.admission.length → exec (.searchPortForward core) s = .next s) ∧
        ((s.core core).crowded p.place = true → exec (.searchPortForward core) s = .next s) ∧
        (x.inbound.length + x.admission.length < 64 → (s.core core).crowded p.place = false →
          ∃ t q, exec (.searchPortForward core) s = .next t ∧ (t.core core).search = rest ∧
            t.dog dog = { x with inbound := x.inbound ++ [q] } ∧ q.pkt = p ∧ q.core = core ∧ q.stage = .admitted ∧
            q.cancel = p.cancel ∧ q.visited = [] ∧ q.cand = [] ∧ q.nexp = 0)) ∧
      (∀ tm bar, searchBad p.bytes p.queue.isSome = true → TeamBar s core p tm bar →
        ∃ t, exec (.searchPortForward core) s = .next t ∧ (t.core core).search = rest ∧ (t.barGet (.spad core bar)).error = true ∧
          ((s.barGet (.spad core bar)).cause = 0 → (t.barGet (.spad core bar)).cause = 2))) ∧
    (∀ q rest, x.inbound = q :: rest → x.admission.length < 64 → ∃ t, exec (.searchArrival dog) s = .next t ∧
      t.dog dog = { x with inbound := rest, admission := x.admission ++ [q] } ∧ t.cores = s.cores ∧ t.groups = s.groups) ∧
    (∀ q rest c, x.active = [] → x.admission = q :: rest → q.stage = .admitted → s.ctx? q.pkt.org.ctx = some c → q.stall = none →
      (∀ tm bar, q.cancel = true → sRdev q.pkt.bytes = false → TeamBar s q.core q.pkt tm bar → ResultApart q tm bar →
        ∃ t, exec (.searchAccept dog) s = .next t ∧ (t.dog dog).admission = rest ∧ ResultStands s t dog q tm bar 3 q.cand) ∧
      (∀ s1 s2 s3 base h bs c1, q.cancel = false → q.nodes = 0 → sQscr q.pkt.bytes = false →
        searchGraph (s.setDog dog { x with admission := rest, active := [q] }) c.num (sGraph q.pkt.bytes) = (s1, .ok base) →
        s1.ctx? c.num = some c1 → s1.searchRead c1 q.pkt.org.world none base 256 = .ok (s2, h) →
        (searchHeader q base h).2 = false →
        s2.searchRead c q.pkt.org.world none (sQuery q.pkt.bytes) (queryBytes (pk h 6 1 % 4) (pk h 4 2)) = .ok (s3, bs) →
        (pk h 6 1 % 4 ≠ 1 → ∀ v ∈ plainElems false (pk h 4 2) bs, v.finite = true) →
        ∃ t a, exec (.searchAccept dog) s = .next t ∧ (t.dog dog).active = [a] ∧ (t.dog dog).admission = rest ∧ a.pkt = q.pkt ∧
          a.stage = .entry ∧ a.base = base ∧ a.nodes = pk h 0 4 ∧ a.dim = pk h 4 2 ∧ a.fmt = pk h 6 1 % 4 ∧ a.deg = pk h 7 1 ∧
          a.nodeSz = pk h 8 4 ∧ a.qvec = bs ∧ a.visited = [sEntry q.pkt.bytes] ∧
          ∀ n, n < 8 → a.parts.getD n 0 = pk h (16 + 8 * n) 8)) ∧
    (∀ idx q c, x.active[idx]? = some q → q.stall = none → s.ctx? q.pkt.org.ctx = some c →
      let found (t : State) (y : Query) : Prop := (t.dog dog).active = x.active.set idx y ∧ (t.dog dog).admission = x.admission
      (∀ u s1 s2 h more, q.stage = .list u → s.listHead c q u (q.slot u + q.vb) = .ok (s1, h) →
        let n := ofBytes (h.take 2)
        1 ≤ n → n ≤ q.deg → s1.listRest c q u (q.slot u + q.vb) n h.length = .ok (s2, more) →
        let bs := h ++ more
        let ids := (List.range n).map fun k => ofBytes ((bs.drop (4 + 4 * k)).take 4)
        ∀ new, new = newIds q.nodes q.visited [] ids → new ≠ [] → q.visited.length + new.length ≤ 8192 →
          (∀ v, v ∈ new ↔ (v ∈ ids ∧ v < q.nodes ∧ v ∉ q.visited)) ∧ new.Nodup ∧
          let skip := q.skipped || ids.any (fun v => decide (q.nodes ≤ v))
          ∃ t, exec (.neighbourListReply dog idx) s = .next t ∧
            found t { q with visited := q.visited ++ new, stage := .dists new [], skipped := skip, head := [] }) ∧
      (∀ s1 bs v ids got, ((q.stage = .entry ∧ v = sEntry q.pkt.bytes ∧ ids = [v] ∧ got = []) ∨
          (q.stage = .dists ids got ∧ (ids.find? fun y => !got.any fun g => g.1 == y) = some v)) →
        s.searchRead c q.pkt.org.world (some (v % 8)) (q.slot v) (vecBytes q.fmt q.dim) = .ok (s1, bs) →
        let d := distance (sMetric q.pkt.bytes) (plainElems (q.fmt == 1) q.dim q.qvec) (nodeElems q.fmt q.dim bs)
        ∃ t, exec (.distanceRequest dog idx) s = .next t ∧ found t { q with stage := .dists ids (got ++ [(v, d)]) }) ∧
      (∀ v r got d, q.stage = .dists (v :: r) got → got.find? (fun g => g.1 == v) = some (v, d) →
        let cand := candInsert (sWidth q.pkt.bytes) q.cand (d, v)
        let left := got.filter fun y => y.1 != v
        (r ≠ [] → ∃ t, exec (.distanceAnswer dog idx) s = .next t ∧ found t { q with cand := cand, stage := .dists r left }) ∧
        (r = [] → q.cancel = false →
          (∀ e, cand.find? (fun e => !q.expanded.contains e.2) = some e → q.nexp ≠ pkLen q.pkt.bytes →
            let y := { q with cand := cand, expanded := q.expanded ++ [e.2], nexp := q.nexp + 1, stage := .list e.2, head := [] }
            ∃ t, exec (.distanceAnswer dog idx) s = .next t ∧ found t y) ∧
          (∀ tm bar, cand.find? (fun e => !q.expanded.contains e.2) = none → sRdev q.pkt.bytes = false →
            TeamBar s q.core q.pkt tm bar → ResultApart q tm bar →
            ∃ t, exec (.distanceAnswer dog idx) s = .next t ∧ ResultStands s t dog q tm bar 0 cand)))) ∧
    (∀ m rest, x.marks = m :: rest →
      let hits (p : Packet) : Bool :=
        p.org.ctx == m.ctx && pkKind p.bytes == 0x10 && sTag p.bytes == m.tag && sEntry p.bytes % 8 == dog &&
          !searchBad p.bytes p.queue.isSome && !searchRange (s.packetTeam p) p.bytes
      ∃ t, exec (.scancelMarkArrival dog) s = .next t ∧ (t.dog dog).marks = rest ∧
        (t.dog dog).active = x.active.map (fun q => if hits q.pkt then { q with cancel := true } else q) ∧
        (t.dog dog).admission = x.admission.map (fun q => if hits q.pkt then { q with cancel := true } else q) ∧
        (t.dog dog).inbound = x.inbound.map (fun q => if hits q.pkt then { q with cancel := true } else q) ∧
        (∀ c, (t.core c).search = (s.core c).search.map (fun p => if hits p then { p with cancel := true } else p) ∧
          (t.core c).queue = (s.core c).queue.map fun p => if hits p then { p with cancel := true } else p) ∧
        (let marked := ((x.inbound ++ x.admission ++ x.active).filter fun q => hits q.pkt).length +
          ((s.cores.map fun c => ((c.search ++ c.queue).filter hits).length).sum)
         t.cancels = s.cancels.map fun k =>
          if k.core = m.core ∧ k.port = m.port ∧ k.slot = m.slot ∧ k.lanes = m.lanes then { k with ready := k.ready ++ [(dog, marked)] }
          else k) ∧
        t.groups = s.groups) ∧
    (∀ core port slot k n g, s.cancels = [k] → k.core = core → k.port = port → k.slot = slot → k.ready = [(dog, n)] → k.left = 1 →
      s.group? (slotKey core port slot) = some g →
      ∃ t g', exec (.scancelAnswer dog core port slot) s = .next t ∧ t.cancels = [] ∧ t.group? (slotKey core port slot) = some g' ∧
        g'.gget k.dreg = BitVec.ofNat 64 (k.count + n) ∧ (∀ r, r ≠ k.dreg → g'.gget r = g.gget r) ∧ g'.v = g.v ∧ g'.k = g.k ∧
        Untouched s t (slotKey core port slot) ∧ ∀ l, l < 32 →
          (inSet k.lanes l = true → (g.lane l).st = .parked .scancel → (g'.lane l).st = .ready ∧ (g'.lane l).pc = (g.lane l).pc + 12 ∧
            (g'.lane l).tregion = (g.lane l).pc + 12) ∧
          (inSet k.lanes l = false → g'.lane l = g.lane l))

/-! ## The Fabric Engine -/

/-- R285 to R288 and R293: the home performs a peer's next request once, checked against its own page ownership table: a load answers
with the bytes, a store's bytes stand, an atomic leaves its result and answers with the old value; one that fails a check answers with
its cause and changes no byte; one that was performed is answered from what was kept; a monitor is armed for the peer's group, a
conversation operation reaches its Bellwether, and an acquire with PROMO waits for the stores of the core recorded (R275). A waiting request of this device goes when a path
exists: its lanes issue again or its store stands at the peer; when no path has existed for 2^22 cycles its lanes trap
REMOTE_LOAD_FAILED, or it is dropped. R292, R294 to R299: a link goes down, and returns with the keys it has or with those of a new exchange; that the keys go with a peer in
reset is the model's choice (log 72). Of the flits that arrive: one that is accepted moves its slot's counter past the value rebuilt
from ICL; a sequenced one with the expected SEQ is accepted, and sent on under the key of the next link where it travels to another
device; one with another SEQ is discarded with a NAK and moves no counter; one that fails, or has a TYPE that is not listed, is logged,
and the eighth failure of the expected SEQ takes the link down; a KEYSWITCH reloads the other slot with the next generation; an ACK
frees the retry buffer up to the SEQ of its payload, a NAK sends again from that SEQ. -/
def Obligations.FabricSteps : Prop :=
  ((∀ (s : State) (src world : Nat) (seq : BitVec 32) (priv : Bool), src < 16 → world < 16 → some src ≠ s.fabNum → s.pathTo src = true →
    let key := 16 * src + world
    let next (t : State) (bs : List Byte) : Prop := t.reply = bs ∧ sget t.rxE2e key = sget s.rxE2e key + 1 ∧
      (∀ k, k ≠ key → sget t.rxE2e k = sget s.rxE2e k) ∧ t.groups = s.groups
    let passes (pa : Nat) : Prop := isMemPa pa = true ∧ isCarve pa = false ∧ potPass s.mem world priv pa = true
    let kept (t : State) (data : List Byte) (cause : BitVec 8) : Prop :=
      { src := src, world := world, seq := seq, data := data, cause := cause } ∈ t.kept
    let recorded (promo : Option Nat) (pa tgt : Nat) : Prop := ∃ c, promo = some c ∧ s.promoTo src c 0 pa = some tgt
    let free (promo : Option Nat) (pa : Nat) : Prop :=
      ∀ tgt, recorded promo pa tgt → tgt / 256 = s.fabNum.getD 0 ∧ s.openStores (tgt % 256) = false
    (seq = sget s.rxE2e key →
      (∀ pa n promo, passes pa → s.dataError pa n = none → free promo pa →
        let bs := s.readBytes 0 pa n
        ∃ t, exec (.incomingFabricRequest src world seq (.load pa n priv promo)) s = .next t ∧ next t bs ∧ kept t bs 0 ∧
          ∀ space a, byteAt t space a = byteAt s space a) ∧
      (∀ pa n promo tgt, passes pa → s.dataError pa n = none → recorded promo pa tgt →
        (tgt / 256 = s.fabNum.getD 0 → s.openStores (tgt % 256) = true →
          exec (.incomingFabricRequest src world seq (.load pa n priv promo)) s = .next s) ∧
        (tgt / 256 ≠ s.fabNum.getD 0 → s.homePromo? world tgt src seq = none →
          ∃ t r, exec (.incomingFabricRequest src world seq (.load pa n priv promo)) s = .next t ∧ t.remotes = s.remotes ++ [r] ∧
            r.kind = .homePromo (tgt % 256) src seq ∧ r.peer = tgt / 256 ∧ r.ready = false ∧ t.rxE2e = s.rxE2e ∧ t.kept = s.kept ∧
            ∀ space a, byteAt t space a = byteAt s space a)) ∧
      (∀ pa bs rel, passes pa → s.eccBad = [] → s.tagBad = [] → bs ≠ [] → pa % 65536 + bs.length ≤ 65536 →
        ∃ t, exec (.incomingFabricRequest src world seq (.store pa bs priv rel)) s = .next t ∧ t.reply = [] ∧ kept t [] 0 ∧
          (∀ k, k < bs.length → byteAt t 0 (pa + k) = [bs.getD k 0]) ∧
          ∀ space a, (space ≠ 0 ∨ a < pa ∨ pa + bs.length ≤ a) → (space = 0 → a ≠ Config.clearedBase + potIndex pa / 8) →
            byteAt t space a = byteAt s space a) ∧
      (∀ op pa w (b c : BitVec 64) rel promo, passes pa → s.dataError pa w = none → free promo pa →
        (w = 4 ∨ w = 8) → pa % 65536 + w ≤ 65536 →
        let old := s.readNat 0 pa w
        ∃ t, exec (.incomingFabricRequest src world seq (.atomic op pa w b c priv rel promo)) s = .next t ∧ t.reply = toBytes w old ∧
          kept t (toBytes w old) 0 ∧ t.readNat 0 pa w = atomResult op (if w = 4 then 10 else 11) w old (b.toNat % 2 ^ (8 * w))
            (c.toNat % 2 ^ (8 * w)) % 2 ^ (8 * w) ∧
          ∀ space a, (space ≠ 0 ∨ a < pa ∨ pa + w ≤ a) → (space = 0 → a ≠ Config.clearedBase + potIndex pa / 8) →
            byteAt t space a = byteAt s space a) ∧
      (∀ pa g, passes pa → ∃ t, exec (.incomingFabricRequest src world seq (.arm pa g priv)) s = .next t ∧ next t [] ∧
        (∀ m, m ∈ t.peerMons ↔ (m = { src := src, world := world, who := g, line := pa / 128, written := false, wait := none } ∨
          (m ∈ s.peerMons ∧ ¬ (m.src = src ∧ m.world = world ∧ m.who = g)))) ∧
        ∀ space a, byteAt t space a = byteAt s space a) ∧
      (∀ o : ConvReq, passes o.pa → o.priv = priv → s.dataError o.pa 128 = none →
        ∃ t x, exec (.incomingFabricRequest src world seq (.conv o)) s = .next t ∧ t.convs = s.convs ++ [x] ∧
          t.rxE2e = sset s.rxE2e key (sget s.rxE2e key + 1) ∧ x.kind = o.kind ∧ x.pa = o.pa ∧ x.base = o.base ∧ x.role = o.role ∧
          x.pay = o.pay ∧ x.who = o.who ∧ x.epoch = o.epoch ∧ x.src = some (src, seq) ∧ x.held = false ∧ t.groups = s.groups ∧
          ∀ space a, byteAt t space a = byteAt s space a) ∧
      (∀ req pa, (req = .load pa 16 priv none ∨ req = .store pa (List.replicate 16 0) priv none ∨
          ∃ op b c, req = .atomic op pa 8 b c priv none none) →
        ∀ cause, ((isMemPa pa = false ∧ cause = cPageProtection) ∨ (isMemPa pa = true ∧ isCarve pa = true ∧ cause = cOwnership) ∨
          (isMemPa pa = true ∧ isCarve pa = false ∧ potPass s.mem world priv pa = false ∧ cause = cOwnership)) →
        ∃ t, exec (.incomingFabricRequest src world seq req) s = .next t ∧ next t [cause] ∧ kept t [] cause ∧
          ∀ space a, byteAt t space a = byteAt s space a)) ∧
    (∀ req, seq ≠ sget s.rxE2e key →
      (∀ x, s.kept.find? (fun x => x.src == src && x.world == world && x.seq == seq) = some x →
        ∃ t, exec (.incomingFabricRequest src world seq req) s = .next t ∧ t.rxE2e = s.rxE2e ∧ t.kept = s.kept ∧
          t.reply = (if x.cause = 0 then x.data else [x.cause]) ∧ ∀ space a, byteAt t space a = byteAt s space a) ∧
      (s.kept.find? (fun x => x.src == src && x.world == world && x.seq == seq) = none →
        exec (.incomingFabricRequest src world seq req) s = .next s))) ∧
  (∀ (s : State) (idx : Nat) (r : Remote) (g : Group), s.remotes[idx]? = some r → r.ready = false →
    let key := slotKey r.core r.org.port r.org.slot
    s.group? key = some g → g.gid = r.org.gid → some g.team = r.org.team →
    (s.pathTo r.peer = true → s.inDoubt r.peer = false → s.notFirst idx r = false →
      ((r.kind = .load ∨ r.kind = .atomic) →
        ∃ t g', exec (.remoteResponse idx) s = .next t ∧ t.remotes = s.remotes.set idx { r with ready := true } ∧
          t.group? key = some g' ∧ RegistersKept g g' ∧ (∀ space a, byteAt t space a = byteAt s space a) ∧
          ∀ l, l < 32 → ((inSet r.lanes l = true ∧ (g.lane l).waitsPeer = true) → (g'.lane l).st = .ready ∧ (g'.lane l).pc = (g.lane l).pc) ∧
            (¬ (inSet r.lanes l = true ∧ (g.lane l).waitsPeer = true) → g'.lane l = g.lane l)) ∧
      (∀ w a bs va rel, r.kind = .store w [(a, bs)] va rel → s.storeRefused r w [(a, bs)] = none → bs ≠ [] →
        a % 65536 + bs.length ≤ 65536 → isCarve (a + bs.length - 1) = false → isCarve a = false →
        ∃ t, exec (.remoteResponse idx) s = .next t ∧ t.remotes = s.remotes.eraseIdx idx ∧
          ∀ k, k < bs.length → byteAt t (2 + r.peer) (a + k) = [bs.getD k 0])) ∧
    (r.peer ≠ s.fabNum.getD 0 → s.pathTo r.peer = false → (s.link r.peer).lostAt + 0x400000 ≤ s.cycle.toNat →
      (∀ tm, (r.kind = .load ∨ (r.kind = .atomic ∧ r.doubt = false)) → s.team? g.team = some tm →
        ∃ t g', exec (.remotePathLimit idx) s = .next t ∧ t.remotes = s.remotes.eraseIdx idx ∧ t.group? key = some g' ∧ RegistersKept g g' ∧
          ∀ l, l < 32 → ((inSet r.lanes l = true ∧ (g.lane l).waitsPeer = true) → (g'.lane l).st = .trapped (!toHandler g l) ∧
              (g'.lane l).tcause = cRemoteLoadFailed ∧ (g'.lane l).taddr = r.va ∧ (g'.lane l).tinfo =
                BitVec.ofNat 64 (r.peer % 256 + 256 * (if r.doubt then 0xF2 else if (s.link r.peer).reset then 0xF1 else 0xF0))) ∧
            (¬ (inSet r.lanes l = true ∧ (g.lane l).waitsPeer = true) → g'.lane l = g.lane l)) ∧
      (∀ w ps va rel c, r.kind = .store w ps va rel → r.doubt = false → s.ctx? r.org.ctx = some c → c.errq = none → s.log.length < 4096 →
        ∃ t e, exec (.remotePathLimit idx) s = .next t ∧ t.remotes = s.remotes.eraseIdx idx ∧ t.log = s.log ++ [e] ∧ e.cls = 7 ∧
          ∀ space a, byteAt t space a = byteAt s space a)))) ∧
  (∀ (s : State) (peer : Nat), peer < 16 → s.links.length = 16 →
    let l := s.link peer
    let kept (t : State) : Prop := (∀ space a, byteAt t space a = byteAt s space a) ∧ t.groups = s.groups ∧ t.cores = s.cores
    (some peer ≠ s.fabNum → peer < s.fabN →
      (∃ t, exec (.linkDown peer false) s = .next t ∧ kept t ∧ (t.link peer).up = false ∧ (t.link peer).reset = false ∧
        (l.fails < 8 → (t.link peer).tx = l.tx ∧ (t.link peer).rx = l.rx) ∧
        (8 ≤ l.fails → (t.link peer).tx.live0 = false ∧ (t.link peer).tx.live1 = false ∧ (t.link peer).rx.live0 = false ∧
          (t.link peer).rx.live1 = false)) ∧
      (∃ t, exec (.linkDown peer true) s = .next t ∧ kept t ∧ (t.link peer).reset = true ∧ t.pathTo peer = false ∧
        (t.link peer).tx.live0 = false ∧ (t.link peer).tx.live1 = false ∧ (t.link peer).rx.live0 = false ∧ (t.link peer).rx.live1 = false) ∧
      (s.fabNum ≠ none → ∃ t, exec (.linkUp peer) s = .next t ∧ kept t ∧ (t.link peer).up = true ∧ (t.link peer).reset = false ∧
        ((l.tx.live0 = true ∨ l.tx.live1 = true) → l.fails < 8 → (t.link peer).rx = l.rx ∧ (t.link peer).rxSeq = l.rxSeq ∧
          (s.remotes = [] → (t.link peer).tx = l.tx)) ∧
        ((l.tx.live0 = false ∧ l.tx.live1 = false) ∨ 8 ≤ l.fails → (t.link peer).rxSeq = 0 ∧ (t.link peer).rx.gen0 = 0 ∧
          (t.link peer).rx.gen1 = 1 ∧ (t.link peer).rx.live0 = true ∧ (t.link peer).rx.live1 = true ∧
          (s.remotes = [] → (t.link peer).txSeq = 0 ∧ (t.link peer).retry = [] ∧ (t.link peer).tx = (t.link peer).rx)))) ∧
    (l.up = true → l.fails < 8 → ∀ f : Flit,
      let good (ty : Nat) : Prop := f.auth = true ∧ l.rx.live f.ks = true ∧ f.ty.toNat = ty
      let moved (t : State) : Prop := ∃ n, l.rx.ctr f.ks ≤ n ∧ n < l.rx.ctr f.ks + 2 ^ 31 ∧ n % 2 ^ 31 = f.icl.toNat ∧
        (t.link peer).rx.ctr f.ks = n + 1
      (f.seq = l.rxSeq →
        (good 1 → ∃ t, exec (.data peer f) s = .next t ∧ kept t ∧ moved t ∧ (t.link peer).rxSeq = l.rxSeq + 1 ∧
          (t.link peer).nakSent = false ∧ (t.link peer).fails = 0 ∧ (some f.dest = s.fabNum → (t.link peer).retry = l.retry) ∧
          (f.dest < 16 → f.dest ≠ peer → some f.dest ≠ s.fabNum → (s.link f.dest).up = true → (s.link f.dest).fails < 8 →
            LinkSettled (s.link f.dest) → (s.link f.dest).retry.length < 1024 →
            ∃ u, (t.link f.dest).retry.getLast? = some u ∧ u.payload = f.payload ∧ u.ks = false ∧ (t.link f.dest).txSeq = u.seq + 1)) ∧
        (good 4 → ∃ t, exec (.keyswitch peer f) s = .next t ∧ kept t ∧ moved t ∧ (t.link peer).rxSeq = l.rxSeq + 1 ∧ (t.link peer).rx.cur = f.ks ∧
          (t.link peer).rx.gen (!f.ks) = l.rx.gen f.ks + 1 ∧ (t.link peer).rx.ctr (!f.ks) = 0 ∧ (t.link peer).rx.live (!f.ks) = true)) ∧
      (∀ x ∈ [(Instr.data peer f, 1), (.keyswitch peer f, 4)],
        (good x.2 → f.seq ≠ l.rxSeq → ∃ t, exec x.1 s = .next t ∧ kept t ∧ (t.link peer).rxSeq = l.rxSeq ∧ (t.link peer).rx = l.rx ∧
          (t.link peer).nakSent = true ∧ t.log = s.log) ∧
        (((f.ty.toNat = x.2 ∧ (f.auth = false ∨ l.rx.live f.ks = false)) ∨ f.ty.toNat = 0 ∨ 5 < f.ty.toNat) → s.log.length < 4096 →
          ∃ t e, exec x.1 s = .next t ∧ kept t ∧ (t.link peer).rxSeq = l.rxSeq ∧ (t.link peer).rx = l.rx ∧
          t.log = s.log ++ [e] ∧ e.cls = 2 ∧ (t.link peer).fails = if f.seq = l.rxSeq then l.fails + 1 else l.fails)) ∧
      (let named := payloadSeq f
       (good 2 → ∃ t, exec (.ack peer f) s = .next t ∧ kept t ∧ moved t ∧ (t.link peer).rxSeq = l.rxSeq ∧ (LinkSettled l →
         (∀ pre u post, l.retry = pre ++ u :: post → u.seq = named → (∀ y ∈ pre, y.seq ≠ named) → (t.link peer).retry = post) ∧
         ((∀ u ∈ l.retry, u.seq ≠ named) → (t.link peer).retry = l.retry))) ∧
       (good 3 → ∃ t, exec (.nak peer f) s = .next t ∧ kept t ∧ moved t ∧ (t.link peer).rxSeq = l.rxSeq ∧ (t.link peer).retry = l.retry ∧
         ∀ pre post, l.retry = pre ++ post → (∀ y ∈ pre, y.seq ≠ named) → (∀ y ∈ post.head?, y.seq = named) →
           l.tx.ctr l.tx.cur + post.length ≤ 2 ^ 32 - 2 ^ 16 → (t.link peer).tx.ctr l.tx.cur = l.tx.ctr l.tx.cur + post.length) ∧
       (good 5 → ∃ t, exec (.idle peer f) s = .next t ∧ kept t ∧ moved t ∧ (t.link peer).rxSeq = l.rxSeq ∧ (t.link peer).tx = l.tx ∧
         (t.link peer).retry = l.retry))) ∧
    (l.up = true → l.fails < 8 → 2 ^ 32 - 2 ^ 16 ≤ l.tx.ctr l.tx.cur → l.tx.ctr (!l.tx.cur) < 2 ^ 32 - 2 ^ 16 → l.switchAt = none →
      l.ksOwed = false → l.sendq = [] → l.retry.length < 1024 →
      ∃ t, exec (.rekeySwitch peer) s = .next t ∧ kept t ∧ (t.link peer).tx.cur = !l.tx.cur ∧ (t.link peer).txSeq = l.txSeq + 1 ∧
        (t.link peer).switchAt = some l.txSeq ∧ (t.link peer).retry = l.retry ++ [{ seq := l.txSeq, ks := true, payload := [] }]) ∧
    (l.up = true → 8 ≤ l.fails →
      ∃ t, exec (.linkAuthFailureLimit peer) s = .next t ∧ kept t ∧ (t.link peer).up = false ∧ (t.link peer).tx.live0 = false ∧
        (t.link peer).tx.live1 = false ∧ (t.link peer).rx.live0 = false ∧ (t.link peer).rx.live1 = false))

/-! ## The Network Engine -/

/-- R300 to R306 and R308, at the sender: a NET packet whose source is present leaves on its connection, its packets of 4,096 bytes
taking the next PSNs, the first of them as Table 12.5 lays them out; an acknowledged packet is counted on the local barrier, and the window grows by one for each window of packets or
halves on ECE; a NAK with a cause ends its NWRI, an RNR waits 24,000 cycles, the seventh silence of 240,000 cycles in a row, or the loss
of the port, fails the connection. R301 to R303 and R305, at the target: a data packet with the expected PSN whose world, realm and
places pass is acknowledged and moves the expected PSN on, leaves its bytes in local memory and counts them on its barrier; the last of
its NWRI then deposits its notify entry and moves WIDX on; one with another PSN changes no byte; one of another world or realm is logged and refused with
NAME_RIGHTS; one for a ring that is full or absent is answered RNR. -/
def Obligations.NetworkMessages : Prop :=
  ((∀ (s : State) (core : Nat) (p : Packet) (rest : List Packet), core < 192 → s.cores.length = 192 → (s.core core).net = p :: rest →
    (∀ k x tm, netBad s p = false → s.conn? (nConn p.bytes) = some k → s.ctx? p.org.ctx = some x → nSscr p.bytes = true →
      s.packetTeam p = some tm → nSrc p.bytes + nLen p.bytes ≤ tm.ringStart → p.stall = none →
      absent (s.core core) (tm.base + nSrc p.bytes) (nLen p.bytes) = false → k.failed = false →
      ∃ t k', exec (.netPacket core) s = .next t ∧ (t.core core).net = rest ∧ t.conn? (nConn p.bytes) = some k' ∧
        k'.psn = k.psn + BitVec.ofNat 24 ((nLen p.bytes + 4095) / 4096) ∧
        (let n : Nwri := { pkt := p, core := core, psn0 := k.psn, total := nLen p.bytes, acked := 0,
                           data := spadRead (s.core core) (tm.base + nSrc p.bytes) (nLen p.bytes) }
         k'.sends = k.sends ++ [n] ∧
         (k.sends = [] → k.nxt = k.psn → k'.wire =
           (List.range (min k.cwnd ((nLen p.bytes + 4095) / 4096))).map fun j => packetBytes s.udpPort k n j)) ∧
        k'.cwnd = k.cwnd ∧ t.groups = s.groups ∧ ∀ space a, byteAt t space a = byteAt s space a) ∧
    (∀ tm bar, netBad s p = true → TeamBar s core p tm bar →
      ∃ t, exec (.netPacket core) s = .next t ∧ (t.core core).net = rest ∧ (t.barGet (.spad core bar)).error = true ∧
        ((s.barGet (.spad core bar)).cause = 0 → (t.barGet (.spad core bar)).cause = 2))) ∧
  (∀ (s : State) (id : Nat) (k : Conn), s.conn? id = some k → k.failed = false →
    let kept (t : State) : Prop := ∀ space a, byteAt t space a = byteAt s space a
    let genuine (fr : NetSrc) : Prop := fr.conn = id ∧ fr.port = k.port ∧ fr.addr = k.peerAddr ∧ (k.keyed = true → fr.auth = true)
    (∀ fr psn (ece : Bool) cause, fr.conn = id → ¬ genuine fr → ∀ ins ∈ [Instr.netAck fr psn ece, .netNak fr psn cause, .rnr fr psn],
      exec ins s = .next s) ∧
    (s.netUp.getLsbD k.port = true → ∀ fr, genuine fr →
    (∀ x rest tm bar (ece : Bool), k.sends = x :: rest → 1 ≤ k.inFlight → TeamBar s x.core x.pkt tm bar →
      let m := min 4096 (x.total - x.acked)
      ∃ t k', exec (.netAck fr (x.psn0 + BitVec.ofNat 24 (x.acked / 4096)) ece) s = .next t ∧ kept t ∧ t.conn? id = some k' ∧
        k'.sends = (if x.total ≤ x.acked + m then rest else { x with acked := x.acked + m } :: rest) ∧ k'.silences = 0 ∧
        k'.rnrUntil = none ∧ t.barGet (.spad x.core bar) = ((s.barGet (.spad x.core bar)).arrive m).written ∧
        (ece = false → (k.cwnd ≤ k.credit + 1 → k'.cwnd = min 1024 (k.cwnd + 1) ∧ k'.credit = 0) ∧
          (k.credit + 1 < k.cwnd → k'.cwnd = k.cwnd ∧ k'.credit = k.credit + 1)) ∧
        (ece = true → k.holdDec = none → k'.cwnd = max 1 (k.cwnd / 2))) ∧
    (∀ psn, ∃ t k', exec (.netNak fr psn 0) s = .next t ∧ kept t ∧ t.conn? id = some k' ∧ k'.sends = k.sends ∧ k'.silences = 0) ∧
    (∀ psn cause x tm bar, cause ≠ 0 → k.sends.find? (fun n => decide ((psn - n.psn0).toNat < packetsOf n.total)) = some x →
      TeamBar s x.core x.pkt tm bar →
      ∃ t k', exec (.netNak fr psn cause) s = .next t ∧ t.conn? id = some k' ∧
        k'.sends = k.sends.filter (fun y => y.psn0 != x.psn0) ∧ (t.barGet (.spad x.core bar)).error = true ∧
        ((s.barGet (.spad x.core bar)).cause = 0 → (t.barGet (.spad x.core bar)).cause = 0x19)) ∧
    (∀ psn, (k.sends.find? (fun n => decide ((psn - n.psn0).toNat < packetsOf n.total))).isSome = true →
      ∃ t k', exec (.rnr fr psn) s = .next t ∧ kept t ∧ t.conn? id = some k' ∧ k'.rnrUntil = some (s.cycle.toNat + 24000) ∧
        k'.sends = k.sends)) ∧
    (∀ c, k.rnrUntil = some c → c ≤ s.cycle.toNat →
      ∃ t k', exec (.rnrRetryTimer id) s = .next t ∧ kept t ∧ t.conn? id = some k' ∧ k'.rnrUntil = none ∧ k'.sends = k.sends) ∧
    (k.sends ≠ [] → k.rnrUntil = none → k.lastAct + 240000 ≤ s.cycle.toNat →
      (k.silences < 6 → ∃ t k', exec (.netSilenceTimeout id) s = .next t ∧ kept t ∧ t.conn? id = some k' ∧
        k'.silences = k.silences + 1 ∧ k'.sends = k.sends ∧ k'.failed = false ∧ k'.lastAct = s.cycle.toNat) ∧
      (6 ≤ k.silences → ∃ t k', exec (.netSilenceTimeout id) s = .next t ∧ t.conn? id = some k' ∧ k'.failed = true ∧ k'.sends = [])) ∧
    (k.port < 8 → s.conns = [k] → ∃ t k', exec (.netPortDown k.port) s = .next t ∧ t.conn? id = some k' ∧ k'.failed = true ∧
      k'.sends = [] ∧ ∀ n, n < 8 → t.netUp.getLsbD n = (s.netUp.getLsbD n && decide (n ≠ k.port))))) ∧
  (∀ (s : State) (p : NetPkt) (k : Conn) (c : Context), s.conn? p.dconn.toNat = some k → s.ctx? k.ctx = some c → k.failed = false →
    k.port = p.port → k.peerAddr = p.addr → s.netUp.getLsbD p.port = true → (k.keyed = true → p.auth = true) →
    p.data.length ≤ 4096 →
    ∀ x ∈ [(Instr.nwriMiddle p, false), (.nwriLast p, true)],
      let kept (t : State) : Prop := ∀ space a, byteAt t space a = byteAt s space a
      (p.psn ≠ k.rxPsn → ∃ t k', exec x.1 s = .next t ∧ kept t ∧ t.conn? p.dconn.toNat = some k' ∧ k'.rxPsn = k.rxPsn ∧
        ((p.psn - k.rxPsn).toNat < 2 ^ 23 → t.reply = answerBytes s.udpPort k 0x11 k.rxPsn.toNat 0 false)) ∧
      (p.psn = k.rxPsn → (p.world.toNat ≠ k.world ∨ p.realm.toNat ≠ k.realm) → s.log.length < 4096 →
        ∃ t e, exec x.1 s = .next t ∧ kept t ∧ t.log = s.log ++ [e] ∧ e.cls = 4 ∧
          t.reply = answerBytes s.udpPort k 0x11 p.psn.toNat cNameRights.toNat false) ∧
      (∀ l bl, p.psn = k.rxPsn → p.world.toNat = k.world → p.realm.toNat = k.realm → p.data ≠ [] →
        s.netCheck c p.tva.toNat p.data.length = .ok l → p.tva.toNat % 65536 + p.data.length ≤ 65536 →
        s.netCheck c p.tbar.toNat 16 = .ok bl → p.tbar.toNat % 16 = 0 →
        (c.rings.find? (fun r => r.1 == k.ring) = none → ∃ t, exec x.1 s = .next t ∧ kept t ∧
          t.reply = answerBytes s.udpPort k 0x12 p.psn.toNat 0 false) ∧
        (∀ n q, c.rings.find? (fun r => r.1 == k.ring) = some (n, q) →
          (k.rxGot = 0 → (s.ringSpace c.world q).2 = false →
            ∃ t, exec x.1 s = .next t ∧ kept t ∧ t.reply = answerBytes s.udpPort k 0x12 p.psn.toNat 0 false) ∧
          ((k.rxGot ≠ 0 ∨ (s.ringSpace c.world q).2 = true) →
            ∃ t k', exec x.1 s = .next t ∧ t.conn? p.dconn.toNat = some k' ∧ k'.rxPsn = k.rxPsn + 1 ∧
              k'.rxGot = (if x.2 then 0 else k.rxGot + p.data.length) ∧ k'.ece = false ∧
              t.reply = answerBytes s.udpPort k 0x10 p.psn.toNat 0 (k.ece || p.ecn) ∧
              (x.2 = false → l.space = 0 → bl.space = 0 → s.eccBad = [] → s.tagBad = [] →
                l.pa % 65536 + p.data.length ≤ 65536 → bl.pa % 65536 + 16 ≤ 65536 →
                (l.pa + p.data.length ≤ bl.pa ∨ bl.pa + 16 ≤ l.pa) →
                (∀ j, j < p.data.length → byteAt t 0 (l.pa + j) = [p.data.getD j 0]) ∧
                t.barGet (.dev 0 bl.pa) = ((s.barGet (.dev 0 bl.pa)).arrive p.data.length).written) ∧
              (x.2 = true → l.space = 0 → bl.space = 0 → s.eccBad = [] → s.tagBad = [] →
                let w := s.readNat 0 q.desc 8
                let entry := q.desc + 4096 + 8 * (w % 2 ^ q.n)
                walkerPass s.mem c.world q.desc false = none → walkerPass s.mem c.world entry false = none →
                isCarve q.desc = false → isCarve entry = false →
                (∀ y ∈ [(l.pa, p.data.length), (bl.pa, 16), (entry, 8), (q.desc, 8)], y.1 % 65536 + y.2 ≤ 65536) →
                [(l.pa, p.data.length), (bl.pa, 16), (entry, 8), (q.desc, 8)].Pairwise
                  (fun y z => y.1 + y.2 ≤ z.1 ∨ z.1 + z.2 ≤ y.1) →
                (∀ j, j < p.data.length → byteAt t 0 (l.pa + j) = [p.data.getD j 0]) ∧
                t.barGet (.dev 0 bl.pa) = ((s.barGet (.dev 0 bl.pa)).arrive p.data.length).written ∧
                t.readNat 0 entry 8 = 2 ^ 63 + k.id % 65536 * 2 ^ 32 + p.imm.toNat ∧
                t.readNat 0 q.desc 8 = (w + 1) % 2 ^ 64)))))

/-! ## Host and commands -/

/-- R402, R107, R337, R338, R404, R414 and Tables 14.3 and 16.2: the host reads and writes device memory where the page passes, else it
reads ones or writes nothing and the event is logged; it reads the registers of BAR0 and of its spawn ports, zero where they have none
or one that is write only; a thread that takes a line of its memory for writing stores its bytes and meets the monitors on the line; a
64-byte store at a spawn port's record puts it in the bound launch queue, one of another shape or at a full queue is dropped and
counted, as is, by the model's choice (log 46), one at a port of another ASID; CQBASE, CPLBASE, CQTAIL and CPLHEAD take writes as the
table says (CPLBASE's bits [11:0] read zero by the model's choice, log 55), and other registers none. A device that has failed its
first boot stages answers none of these. -/
def Obligations.HostAccesses : Prop :=
  (∀ (s : State), s.unreachable = true → ∀ place len iface pa bs x port offset (v : BitVec 64), port < 64 →
    ∀ i ∈ [Instr.hostCxlMemRead place len iface, .hostCxlMemWrite pa bs iface, .cxlCacheSnoop x, .spawnPortRecord port offset bs,
      .cqbaseWrite v, .cplbaseWrite v, .cqtail v, .cplheadWrite v], exec i s = .next s) ∧
  ∀ (s : State), s.unreachable = false →
    let kept (t : State) : Prop := ∀ space a, byteAt t space a = byteAt s space a
    (∀ pa len iface, 1 ≤ len → pa % 65536 + len ≤ 65536 →
      (HostMay s pa iface → s.eccBad = [] → s.tagBad = [] →
        ∃ t, exec (.hostCxlMemRead (.cxlMem pa) len iface) s = .next t ∧ kept t ∧ t.reply = s.readBytes 0 pa len ∧ t.log = s.log) ∧
      (¬ HostMay s pa iface → s.log.length < 4096 →
        ∃ t e, exec (.hostCxlMemRead (.cxlMem pa) len iface) s = .next t ∧ kept t ∧ t.reply = List.replicate len 0xFF ∧ t.log = s.log ++ [e] ∧ e.cls = 4)) ∧
    (∀ pa bs iface, bs ≠ [] → pa % 65536 + bs.length ≤ 65536 →
      (HostMay s pa iface → s.eccBad = [] → s.tagBad = [] →
        ∃ t, exec (.hostCxlMemWrite pa bs iface) s = .next t ∧ (∀ k, k < bs.length → byteAt t 0 (pa + k) = [bs.getD k 0]) ∧
          ∀ space a, (space ≠ 0 ∨ a < pa ∨ pa + bs.length ≤ a) → (space = 0 → a ≠ Config.clearedBase + potIndex pa / 8) →
            byteAt t space a = byteAt s space a) ∧
      (¬ HostMay s pa iface → s.log.length < 4096 →
        ∃ t e, exec (.hostCxlMemWrite pa bs iface) s = .next t ∧ kept t ∧ t.log = s.log ++ [e] ∧ e.cls = 4)) ∧
    (∀ iface off port (v : Nat), port < 64 →
      ((∀ place, (place = .bar0 off ∨ place = .bar2 (4096 * port + off)) → ∃ t, exec (.hostCxlMemRead place 8 iface) s = .next t ∧
        kept t ∧ t.groups = s.groups ∧ t.host = s.host ∧ t.log = s.log) ∧
      ((off, v) ∈ [(0, s.stage + (if s.ready then 2 ^ 8 else 0) + (if s.conf && decide (s.stage ≠ 0) then 2 ^ 9 else 0) +
            (if s.recovery then 2 ^ 10 else 0)), (8, s.host.cqBase.toNat), (0x10, s.host.cplBase.toNat), (0x18, 0),
            (0x20, s.host.cqHead.toNat), (0x28, s.host.cplHead.toNat)] → s.stage < 256 →
        ∃ t, exec (.hostCxlMemRead (.bar0 off) 8 iface) s = .next t ∧ ofBytes t.reply = v) ∧
      (∀ q, (s.sport port).queue = some q → (s.lqueue q).recs.length ≤ 64 →
        ∃ t, exec (.hostCxlMemRead (.bar2 (4096 * port + 0x40)) 8 iface) s = .next t ∧
          ofBytes t.reply = 64 - (s.lqueue q).recs.length + 2 ^ 16 * (s.sport port).dropped.toNat) ∧
      (off % 8 = 0 → off < 4096 → off ≠ 0x40 →
        ∃ t, exec (.hostCxlMemRead (.bar2 (4096 * port + off)) 8 iface) s = .next t ∧ ofBytes t.reply = 0))) ∧
    (∀ (x : HostStore), ∃ t, exec (.cxlCacheSnoop x) s = .next t ∧
      (∀ k, k < x.bytes.length → k < 128 - x.addr.toNat % 128 → byteAt t 1 (x.addr.toNat + k) = [x.bytes.getD k 0]) ∧
      (∀ space a, (space ≠ 1 ∨ a / 128 ≠ x.addr.toNat / 128) → byteAt t space a = byteAt s space a) ∧ ∀ key g, s.group? key = some g → ∃ g', t.group? key = some g' ∧
      RegistersKept g g' ∧ (g.mon.armed = true → g.mon.space = 1 → g.mon.line = x.addr.toNat / 128 * 128 →
        ((∀ l, l < 32 → (g.lane l).st ≠ .parked .monitor) → g'.mon.written = true) ∧
        ∀ l, l < 32 → (g.lane l).st = .parked .monitor → (g'.lane l).st = .ready ∧ (g'.lane l).ret = true)) ∧
    (∀ port, port < 64 → s.sports.length = 64 → s.queues.length = 64 →
      let dropped (t : State) : Prop := (t.sport port).dropped = (s.sport port).dropped + 1 ∧ t.queues = s.queues ∧ kept t
      (∀ offset bs, offset < 64 → (offset ≠ 0 ∨ bs.length ≠ 64) → ∃ t, exec (.spawnPortRecord port offset bs) s = .next t ∧ dropped t) ∧
      (∀ q c x bs, (s.sport port).queue = some q → (s.lqueue q).ctx = some c → s.ctx? c = some x → bs.length = 64 →
        recBad bs = false →
        ((s.sport port).asid ≠ some x.asid → ∃ t, exec (.spawnPortRecord port 0 bs) s = .next t ∧ dropped t) ∧
        ((s.lqueue q).full = true → ∃ t, exec (.spawnPortRecord port 0 bs) s = .next t ∧ dropped t) ∧
        ((s.sport port).asid = some x.asid → (s.lqueue q).full = false → q < 64 → ∃ t, exec (.spawnPortRecord port 0 bs) s = .next t ∧ kept t ∧
          (t.lqueue q).recs = (s.lqueue q).recs ++ [{ bytes := bs, pc := 0, who := none, peer := 0xF0 }] ∧
          (t.sport port).dropped = (s.sport port).dropped))) ∧
    (∀ v : BitVec 64,
      (s.host.busy = none →
        (∃ t, exec (.cqbaseWrite v) s = .next t ∧ kept t ∧
          t.host = { s.host with cqBase := v &&& ~~~ 0xFF0, tail := 0, cqHead := 0, cplHead := 0, phase := true }) ∧
        (∃ t, exec (.cplbaseWrite v) s = .next t ∧ kept t ∧ t.host = { s.host with cplBase := v &&& ~~~ 0xFFF })) ∧
      ((v - s.host.cqHead).toNat ≤ 2 ^ (s.host.cqBase.toNat % 16) →
        ∃ t, exec (.cqtail v) s = .next t ∧ kept t ∧ t.host = { s.host with tail := v }) ∧
      (2 ^ (s.host.cqBase.toNat % 16) < (v - s.host.cqHead).toNat → exec (.cqtail v) s = .next s) ∧
      (∃ t, exec (.cplheadWrite v) s = .next t ∧ kept t ∧ t.host = { s.host with cplHead := v }) ∧
      ∀ bar offset, exec (.ignoredRegisterWrite bar offset v) s = .next s)

/-- R403 to R405, R59, R84, R88, R338, R384, R389 and Table 16.3: CTXNEW creates a context from its descriptor, CTXEND ends one, PREEMPT
begins its first stage and completes when no team of it is resident, RESUME takes it up again, WINRESET empties the window of a
quiescent one, LQBIND binds a launch queue and a spawn port; CORESET gives cores to world 1 and clears their tables, Plate and L1,
WAYSET moves LLC ways; each completes with its status. R95, R120, R284, R290, R301, R303, R377, R408 to R410, R418 and Table 16.3:
SHQREG, FLTQREG, ERRQREG and RINGREG register their rings, SCRUBSET sets a pass target, FABSET takes the device's number and brings its
trained links up, NETCONN makes the connection of its descriptor, WORLDNEW makes the lowest free world live and WORLDFREE frees one and
its pages, MODESET records the mode, LOGREAD moves the oldest entries to host memory. -/
def Obligations.Commands : Prop :=
  (∀ (s : State),
    let b := s.command
    let p := cmdP b
    (∀ opc, CommandDue s opc → (opc = 0 ∨ 0x13 < opc) → ∃ t, exec .reservedOpc s = .next t ∧ CommandDone s t 1 0 ∧ t.ctxs = s.ctxs) ∧
    (CommandDue s 0x01 →
      let d := s.readBytes 0 (p 0) 512
      (s.descStatus (p 0) d = 0 → p 1 ≤ 0xFFFF → (∀ c ∈ s.ctxs, c.asid ≠ p 1) →
        ∃ t c, exec .ctxnew s = .next t ∧ CommandDone s t 0 s.nextCtx ∧ t.ctxs = s.ctxs ++ [c] ∧ t.nextCtx = s.nextCtx + 1 ∧ c.num = s.nextCtx ∧
          c.asid = p 1 ∧ c.desc = p 0 ∧ c.proot = pk d 0 8 ∧ c.wroot = pk d 8 8 ∧ c.rotBase = pk d 16 8 ∧ c.rotLog2 = pk d 24 1 ∧
          c.world = pk d 25 1 ∧ c.lq = pk d 27 1 ∧ c.hpc = BitVec.ofNat 64 (pk d 32 8) ∧ c.stage = .none ∧ c.errq = none ∧ c.savedTeams = []) ∧
      (∀ st, s.descStatus (p 0) d = st → st ≠ 0 → ∃ t, exec .ctxnew s = .next t ∧ CommandDone s t st 0 ∧ t.ctxs = s.ctxs)) ∧
    (∀ c, s.ctx? (p 0) = some c →
      (CommandDue s 0x02 → c.stage = .none → c.waiting = false → ∃ t, exec .ctxend s = .next t ∧ CommandDone s t 0 0 ∧ t.ctx? c.num = none) ∧
      (CommandDue s 0x02 → (c.stage = .drain ∨ c.stage = .save) → ∃ t, exec .ctxend s = .next t ∧ CommandDone s t 2 0 ∧ t.ctxs = s.ctxs) ∧
      (CommandDue s 0x09 →
        (c.stage = .saved → ∃ t, exec .preempt s = .next t ∧ CommandDone s t 0 (if c.savedTeams = [] then 0 else 1) ∧ t.ctxs = s.ctxs) ∧
        (c.stage = .none → (∀ tm ∈ s.teams, tm.ctx ≠ c.num) → ∃ t c', exec .preempt s = .next t ∧
          CommandDone s t 0 (if c.savedTeams = [] then 0 else 1) ∧ t.ctx? c.num = some c' ∧ c'.stage = .saved) ∧
        (c.stage = .none → (∃ tm ∈ s.teams, tm.ctx = c.num) → ∃ t c', exec .preempt s = .next t ∧ t.host.cqHead = s.host.cqHead ∧
          t.host.busy = some (BitVec.ofNat 32 (pk b 4 4), c.num) ∧ t.ctx? c.num = some c' ∧ c'.stage = .drain ∧
          c'.deadline = s.cycle.toNat + c.t1 ∧ c'.waiting = true)) ∧
      (CommandDue s 0x0A →
        (c.stage ≠ .saved → ∃ t, exec .resume s = .next t ∧ CommandDone s t 2 0 ∧ t.ctxs = s.ctxs) ∧
        (c.stage = .saved → s.descStatus c.desc (s.readBytes 0 c.desc 512) = 0 → ∃ t c', exec .resume s = .next t ∧ CommandDone s t 0 0 ∧
          t.ctx? c.num = some c' ∧ c'.stage = .none ∧ c'.savedTeams = c.savedTeams ∧ c'.resumed = s.cycle.toNat)) ∧
      (CommandDue s 0x0B →
        ((s.quiescent c = false ∨ s.wrootPass c = false) → ∃ t, exec .winreset s = .next t ∧ CommandDone s t 2 0 ∧ t.ctxs = s.ctxs ∧ t.tlb = s.tlb) ∧
        (s.quiescent c = true → s.wrootPass c = true → c.wroot % 65536 + 8192 ≤ 65536 → s.eccBad = [] → s.tagBad = [] → ∃ t c', exec .winreset s = .next t ∧ CommandDone s t 0 0 ∧
          t.ctx? c.num = some c' ∧ c'.cursor = Config.windowBase ∧ c'.wtNext = c.wtPool ∧ (∀ k, k < 8192 → byteAt t 0 (c.wroot + k) = [0]) ∧
          (∀ e ∈ t.tlb, e.asid ≠ c.asid) ∧ ∀ w ∈ t.walks, w.asid ≠ c.asid))) ∧
    (CommandDue s 0x03 → s.conf = false → s.cores.length = 192 →
      let named (k : Nat) : Prop := k < 192 ∧ (s.readNat 1 (p 0) 24).testBit k = true ∧ (s.core k).enabled = true
      (p 1 ≠ 1 → ∃ t, exec .coreset s = .next t ∧ CommandDone s t 3 0 ∧ t.cores = s.cores) ∧
      (p 1 = 1 → (∃ tm ∈ s.teams, named tm.core) → ∃ t, exec .coreset s = .next t ∧ CommandDone s t 2 0 ∧ t.cores = s.cores) ∧
      (p 1 = 1 → (∀ tm ∈ s.teams, ¬ named tm.core) → ∃ t, exec .coreset s = .next t ∧ CommandDone s t 0 0 ∧
        (∀ k, ¬ named k → t.core k = s.core k) ∧
        ∀ k, named k → (t.core k).world = some 1 ∧ (t.core k).spad = (s.core k).spad ∧ (t.core k).l1 = [] ∧ (t.core k).bank0.st = .empty ∧
          (t.core k).bank1.st = .empty ∧ (t.core k).plate.acc = [] ∧ (t.core k).plate.invalid = 0 ∧ (t.core k).plate.sticky = 0 ∧
          (t.core k).plate.frontBank.fmt = .empty ∧ (t.core k).plate.backBank.fmt = .empty ∧
          (t.core k).plate.bank0.retired = (s.core k).plate.bank0.retired)) ∧
    (CommandDue s 0x04 → s.worlds.length = 16 → (∀ w, w < 16 → (s.world w).ways.length = 32) → p 0 ≤ 15 → p 1 ≤ 31 → p 2 ≤ 0xFFFF →
      (s.conf = true → (s.world (p 0)).live = true → ∃ t, exec .wayset s = .next t ∧ CommandDone s t 0 0 ∧
        (t.world (p 0)).ways.getD (p 1) 0 = BitVec.ofNat 16 (p 2) ∧
        ∀ w, w < 16 → w ≠ p 0 → (t.world w).ways.getD (p 1) 0 = (s.world w).ways.getD (p 1) 0 &&& ~~~ (BitVec.ofNat 16 (p 2))) ∧
      (s.conf = false → ∃ t, exec .wayset s = .next t ∧ CommandDone s t 0 0 ∧ t.worlds = s.worlds)) ∧
    (∀ c, CommandDue s 0x05 → s.ctx? (p 1) = some c → s.queues.length = 64 → s.sports.length = 64 → p 0 ≤ 63 → (p 2 ≤ 63 ∨ p 2 = 0xFF) →
      ∃ t, exec .lqbind s = .next t ∧ CommandDone s t 0 0 ∧ (t.lqueue (p 0)).ctx = some c.num ∧ (∀ n, n ≠ p 0 → t.lqueue n = s.lqueue n) ∧
        (p 2 ≤ 63 → t.sport (p 2) = { s.sport (p 2) with asid := some c.asid, queue := some (p 0) }) ∧ (p 2 = 0xFF → t.sports = s.sports))) ∧
  (∀ (s : State),
    let b := s.command
    let p := cmdP b
    (∀ c, CommandDue s 0x06 → s.ctx? (p 4) = some c → s.shared.length = 64 →
      (p 0 ≤ 63 → p 1 % 4096 = 0 → 4 ≤ p 2 → p 2 ≤ 16 → p 3 < 192 → p 5 ≤ 63 → ∃ t, exec .shqreg s = .next t ∧ CommandDone s t 0 0 ∧
        t.shared.getD (p 0) none = some { desc := p 1, n := p 2, core := p 3, ctx := c.num, lq := p 5, stall := none }) ∧
      ((63 < p 0 ∨ p 1 % 4096 ≠ 0 ∨ p 2 < 4 ∨ 16 < p 2 ∨ 192 ≤ p 3 ∨ 63 < p 5) → ∃ t, exec .shqreg s = .next t ∧ CommandDone s t 1 0 ∧
        t.shared = s.shared)) ∧
    (CommandDue s 0x07 → s.worlds.length = 16 → p 0 < 16 → (s.world (p 0)).live = true → p 1 % 4096 = 0 → 6 ≤ p 2 → p 2 ≤ 16 →
      ∃ t, exec .fltqreg s = .next t ∧ CommandDone s t 0 0 ∧ (t.world (p 0)).faultq = some { desc := p 1, n := p 2 }) ∧
    (∀ c, CommandDue s 0x08 → s.ctx? (p 0) = some c → p 1 % 4096 = 0 → 4 ≤ p 2 → p 2 ≤ 16 →
      s.systemPages c.world (p 1) (4096 + 32 * 2 ^ p 2) = true → s.readNat 0 (p 1) 8 = 0 → s.readNat 0 (p 1 + 128) 8 = 0 →
      s.readNat 0 (p 1 + 256) 4 = 0 →
      ∃ t, exec .errqreg s = .next t ∧ CommandDone s t 0 0 ∧ t.ctx? c.num = some { c with errq := some { desc := p 1, n := p 2 }, errLost := false }) ∧
    (∀ c, CommandDue s 0x0F → s.ctx? (p 0) = some c → p 2 % 4096 = 0 → 4 ≤ p 3 → p 3 ≤ 16 → p 1 ≤ 15 → s.readNat 0 (p 2) 8 = 0 →
      s.readNat 0 (p 2 + 128) 8 = 0 → ringEmpty s.mem (p 2) (p 3) = true →
      ∃ t c', exec .ringreg s = .next t ∧ CommandDone s t 0 0 ∧ t.ctx? c.num = some c' ∧ (p 1, { desc := p 2, n := p 3 }) ∈ c'.rings ∧
        ∀ r ∈ c'.rings, r.1 = p 1 → r.2 = { desc := p 2, n := p 3 }) ∧
    (CommandDue s 0x0C →
      (p 0 = 0 → 24 ≤ p 1 → ∃ t, exec .scrubset s = .next t ∧ CommandDone s t 0 0 ∧
        t.scrubH = { s.scrubH with target := p 1 * 3600 * 2400000000 } ∧ t.scrubF = s.scrubF) ∧
      (p 0 = 1 → 72 ≤ p 1 → ∃ t, exec .scrubset s = .next t ∧ CommandDone s t 0 0 ∧
        t.scrubF = { s.scrubF with target := p 1 * 3600 * 2400000000 } ∧ t.scrubH = s.scrubH) ∧
      ((1 < p 0 ∨ p 1 < 24) → ∃ t, exec .scrubset s = .next t ∧ CommandDone s t 1 0 ∧ t.scrubH = s.scrubH ∧ t.scrubF = s.scrubF)) ∧
    (CommandDue s 0x0D →
      (8 ≤ p 1 → p 1 ≤ 16 → p 0 < p 1 → ∃ t, exec .fabset s = .next t ∧ CommandDone s t 0 0 ∧ t.fabNum = some (p 0) ∧ t.fabN = p 1 ∧
        ∀ q, q < 16 → ((t.link q).up = true ↔ (q ≠ p 0 ∧ q < p 1 ∧ ∃ n, n < 15 ∧ (p 0 + n + 1) % 16 = q ∧ s.linkTrained n = true))) ∧
      ((p 1 < 8 ∨ 16 < p 1 ∨ p 1 ≤ p 0) → ∃ t, exec .fabset s = .next t ∧ CommandDone s t 1 0 ∧ t.fabNum = s.fabNum ∧ t.links = s.links)) ∧
    (∀ c, CommandDue s 0x0E →
      let k := s.connDesc (BitVec.ofNat 64 (p 0))
      s.ctx? k.ctx = some c → (c.binding k.realm).isSome = true → s.conn? k.id = none →
      ∃ t, exec .netconn s = .next t ∧ CommandDone s t 0 0 ∧ t.conn? k.id = some k ∧ k.psn = 0 ∧ k.cwnd = 64 ∧ k.failed = false) ∧
    (∀ n w, CommandDue s 0x10 → s.worlds.length = 16 → s.conf = true → w < 16 → w ≠ 0 → (s.world w).live = false →
      (∀ v, v < w → v ≠ 0 → (s.world v).live = true) → s.entropyFailed = false →
      (n < 4 → ∃ t, exec (.worldnew n) s = .next t ∧ CommandDone s t 0 w ∧ (t.world w).live = true ∧ (t.world w).keys = true ∧
        (∀ k, k < 16 → (t.world w).meters.getD k 0 = 0) ∧ t.worldNews = s.worldNews + 1) ∧
      (4 ≤ n → s.log.length < 4096 → ∃ t e, exec (.worldnew n) s = .next t ∧ CommandDone s t 5 0 ∧ t.entropyFailed = true ∧
        t.log = s.log ++ [e] ∧ e.cls = 4 ∧ t.worlds = s.worlds)) ∧
    (CommandDue s 0x11 → s.worlds.length = 16 → s.conf = true → 0 < p 0 → p 0 < 16 → (s.world (p 0)).live = true →
      (∀ c ∈ s.cores, c.world ≠ some (p 0)) → (∀ c ∈ s.ctxs, c.world ≠ p 0) →
      ∃ t, exec .worldfree s = .next t ∧ CommandDone s t 0 0 ∧ (t.world (p 0)).live = false ∧ (t.world (p 0)).keys = false ∧
        (t.world (p 0)).faultq = none ∧ (∀ l ∈ t.llc, l.world ≠ p 0) ∧
        ∀ pa, isMemPa pa = true → potOwner (potEntry s.mem pa) = p 0 → potState (potEntry t.mem pa) = 0 ∧ clearedBit t.mem pa = true) ∧
    (CommandDue s 0x12 → p 0 ≤ 1 → ∃ t, exec .modeset s = .next t ∧ CommandDone s t 0 0 ∧ t.confReq = decide (p 0 = 1) ∧ t.resetReq = true ∧
      t.conf = s.conf) ∧
    (CommandDue s 0x13 →
      let n := min (p 1) s.log.length
      let entry := s.host.cplBase.toNat / 4096 * 4096 + 16 * (s.host.cqHead.toNat % s.host.entries)
      ∃ t, exec .logread s = .next t ∧ CommandDone s t 0 n ∧ t.log = s.log.drop n ∧
        ∀ k, k < 64 * n → (p 0 + k < entry ∨ entry + 16 ≤ p 0 + k) →
          byteAt t 1 (p 0 + k) = [((s.log.take n).flatMap LogEntry.bytes).getD k 0]))

/-! ## The Root Engine -/

/-- R407, R408, R414 and Tables 4.4 and 16.8: a boot whose image verifies and enables a core ends READY in stage 6, in the recorded mode, with
the image's cores enabled, the firmware team on the lowest of them, and every page FREE but those set SYSTEM of world 0; one that does
not verify stops at stage 2 in recovery, and one that enables no core at stage 3; the host then reaches it no more. A reset that a MODESET has recorded also zeroes memory; at 105 °C the device logs the sensor
and resets. -/
def Obligations.BootAndReset : Prop :=
  ∀ (s : State) (tr : Training), (∀ r ∈ tr.sysPages, r.1 + r.2 ≤ 0x2800000) →
    let im := s.flash
    let listed (pa : Nat) : Prop := ∃ r ∈ tr.sysPages, r.1 ≤ potIndex pa ∧ potIndex pa < r.1 + r.2
    let booted (t : State) (core : Nat) : Prop := t.stage = 6 ∧ t.ready = true ∧ t.recovery = false ∧ t.conf = s.confReq ∧ t.groups = [] ∧
      t.netUp = im.netPorts &&& tr.netPorts ∧ t.trained = im.links &&& tr.links ∧ t.unreachable = !tr.pcie ∧ t.image = some im ∧
      (∀ k, k < 192 → (t.core k).enabled = im.cores.getLsbD k ∧ (t.core k).spad = [] ∧ (t.core k).plate.acc = []) ∧
      (t.core core).world = some 0 ∧ (∃ tm ∈ t.teams, tm.core = core ∧ tm.firmware = true ∧ tm.service = true) ∧
      (∀ pa, isMemPa pa = true → (listed pa → potEntry t.mem pa = 0x200) ∧ (¬ listed pa → potEntry t.mem pa = 0))
    (s.stage ≠ 0 ∨ (s.cores = State.reset.cores ∧ s.groups = [] ∧ s.teams = [] ∧ s.recovery = false ∧ s.ready = false) →
      (im.signed = true → ∀ core, core < 192 → im.cores.getLsbD core = true → (∀ k, k < core → im.cores.getLsbD k = false) →
        ∃ t, exec (.boot tr) s = .next t ∧ booted t core ∧
          (s.confReq = false → ∀ a, (a < 0x7FF4000000 ∨ 0x7FFE000000 ≤ a) → sget t.mem a = sget s.mem a) ∧
          (s.confReq = true → ∀ a, (a < 0x7FF4000000 ∨ 0x7FFE000000 ≤ a) → sget t.mem a = 0)) ∧
      (∀ stage, ((im.signed = false ∧ stage = 2) ∨ (im.signed = true ∧ im.cores = 0 ∧ stage = 3)) →
        ∃ t, exec (.boot tr) s = .next t ∧ t.stage = stage ∧ t.recovery = true ∧ t.ready = false ∧ t.unreachable = true ∧
          (s.stage ≠ 0 → t.conf = s.confReq))) ∧
    (s.resetReq = false → exec (.modesetReset tr) s = .next s) ∧
    (s.resetReq = true → im.signed = true → ∀ core, core < 192 → im.cores.getLsbD core = true → (∀ k, k < core → im.cores.getLsbD k = false) →
      ∃ t, exec (.modesetReset tr) s = .next t ∧ booted t core ∧ t.resetReq = false ∧
        ∀ a, (a < 0x7FF4000000 ∨ 0x7FFE000000 ≤ a) → sget t.mem a = 0) ∧
    (∀ sensor temp, (temp < 105 → exec (.thermalShutdown sensor temp) s = .next s) ∧
      (105 ≤ temp → s.log.length < 4096 → ∃ t e, exec (.thermalShutdown sensor temp) s = .next t ∧ t.log = s.log ++ [e] ∧ e.cls = 5 ∧
        t.groups = [] ∧ t.teams = [] ∧ t.ready = false ∧ t.stage = 0 ∧ t.conf = s.confReq ∧
        ∀ a, sget t.mem a = if 0x7FF4000000 ≤ a ∧ a < 0x7FFE000000 then 0 else sget s.mem a))

/-- R95, R411 to R413, R415, R417 and R418: each millisecond the arithmetic clock moves one step between 1,200 and 2,400 MHz and every
live world's meter chain takes a link; a measurement answers with its block and signature; a first lock request takes a TDISP interface
and counts, any other is refused and counts; START and STOP move it; the management controller reads sensors and the log, sets the power
cap and writes the next image; a scrubber's level follows its shortfall each second, and a line read is corrected or its error logged.
-/
def Obligations.RootEngineSteps : Prop :=
  ∀ (s : State), s.worlds.length = 16 →
    let now := s.cycle.toNat
    let kept (t : State) : Prop := (∀ space a, byteAt t space a = byteAt s space a) ∧ t.cores = s.cores
    (∀ temp power, s.clockAt + 2400000 ≤ now → ∃ t, exec (.clockStep temp power) s = .next t ∧ kept t ∧ t.temp = temp ∧ t.power = power ∧
      t.clockAt = now ∧ ((95 < temp ∨ s.cap ≤ power) → t.clockMHz = max 1200 (s.clockMHz - 100)) ∧
      (temp < 90 → power < s.cap → t.clockMHz = min 2400 (s.clockMHz + 100)) ∧
      (90 ≤ temp → temp ≤ 95 → power < s.cap → t.clockMHz = s.clockMHz)) ∧
    (s.chainAt + 2400000 ≤ now → ∃ t, exec .meterChainExtend s = .next t ∧ kept t ∧ t.chainAt = now ∧ ∀ w, w < 16 →
      ((s.world w).live = false → t.world w = s.world w) ∧
      ((s.world w).live = true → (t.world w).linkNo = (s.world w).linkNo + 1 ∧ (t.world w).meters = (s.world w).meters ∧
        (t.world w).sampled = (s.world w).meters ∧ (t.world w).hash = Config.sha384 (toBytes 48 (s.world w).hash.toNat ++
          toBytes 8 ((s.world w).linkNo + 1) ++ toBytes 1 w ++ ((s.world w).meters.flatMap fun m => toBytes 8 m.toNat) ++
          toBytes 8 (if (s.world w).tdisp = .unlocked then 0 else (s.world w).owner.toNat)))) ∧
    (∀ w, w < 16 → s.entropyFailed = false →
      let m := toBytes 8 (s.world w).linkNo ++ toBytes 48 (s.world w).hash.toNat ++ (s.world w).sampled.flatMap fun x => toBytes 8 x.toNat
      exec (.measurements (16 + w)) s = .next { s with reply := m ++ Config.sign (Config.identityKey s.boots) m }) ∧
    (∀ w, w < 16 → (s.world w).live = true →
      (∀ r, (s.world w).tdisp = .unlocked → ∃ t, exec (.lockInterfaceRequest w r) s = .next t ∧ kept t ∧ (t.world w).tdisp = .locked ∧
        (t.world w).owner = r ∧ t.reply = replyOk ∧ ((s.world w).meters.length = 16 →
          (t.world w).meters.getD 8 0 = (s.world w).meters.getD 8 0 + 1)) ∧
      (∀ r, (s.world w).tdisp ≠ .unlocked → ∃ t, exec (.lockInterfaceRequest w r) s = .next t ∧ kept t ∧ (t.world w).tdisp = (s.world w).tdisp ∧
        (t.world w).owner = (s.world w).owner ∧ t.reply = replyError ∧ ((s.world w).meters.length = 16 →
          (t.world w).meters.getD 9 0 = (s.world w).meters.getD 9 0 + 1)) ∧
      ((s.world w).tdisp = .locked → ∃ t, exec (.tdispInterfaceRequest w .startInterface) s = .next t ∧ kept t ∧ (t.world w).tdisp = .run ∧
        (t.world w).owner = (s.world w).owner) ∧
      (∃ t, exec (.tdispInterfaceRequest w .stopInterface) s = .next t ∧ kept t ∧ (t.world w).tdisp = .unlocked)) ∧
    exec .pldmMonitorRead s = .next { s with reply := toBytes 8 s.temp ++ toBytes 8 s.power ++ toBytes 8 s.bootstat } ∧
    (∀ w, (1200 ≤ w → w ≤ 2200 → exec (.powerCapSet w) s = .next { s with cap := w }) ∧
      ((w < 1200 ∨ 2200 < w) → exec (.powerCapSet w) s = .next s)) ∧
    (∀ im, exec (.firmwareUpdateImageWrite im) s = .next { s with flash := im }) ∧
    (∀ n, ∃ t, exec (.pldmLogRead n) s = .next t ∧ kept t ∧ t.log = s.log.drop (min n s.log.length) ∧
      t.reply = (s.log.take (min n s.log.length)).flatMap LogEntry.bytes) ∧
    (∀ tier, tier < 2 →
      let x := s.scrubber tier
      let lines := if tier = 0 then 2 ^ 33 else 2 ^ 35
      let pa := (if tier = 0 then 0 else 0x20000000000) + 64 * x.next
      let done (t : State) : Prop := kept t ∧ (t.scrubber tier).target = x.target ∧ t.scrubber (1 - tier) = s.scrubber (1 - tier)
      (x.tick + 2400000000 ≤ now → ∃ t, exec (.scrubTick tier) s = .next t ∧ done t ∧ (t.scrubber tier).tick = now ∧
        (t.scrubber tier).next = x.next ∧
        (∀ n, (x.level, n) ∈ [(0, 10), (1, 20), (2, 30)] → x.above now lines n = true → (t.scrubber tier).level = x.level + 1) ∧
        (∀ n, (x.level, n) ∈ [(1, 5), (2, 15), (3, 25)] → x.below now lines n = true →
          (∀ k, (x.level, k) ∈ [(1, 20), (2, 30)] → x.above now lines k = false) → (t.scrubber tier).level = x.level - 1)) ∧
      (s.log.length < 4096 → ∃ t, exec (.scrubLine tier) s = .next t ∧ kept t ∧
        ((∀ q ∈ s.eccBad, q / 4 ≠ pa / 64) → ∀ q ∈ t.eccSoft, ¬ (pa ≤ 16 * q ∧ 16 * q < pa + 64)) ∧ t.eccBad = s.eccBad ∧
        ((∃ q ∈ s.eccBad, q / 4 = pa / 64) → t.eccSoft = s.eccSoft ∧ t.groups = s.groups) ∧
        (x.next + 1 < lines → (t.scrubber tier).next = x.next + 1) ∧
        (x.next + 1 = lines → (t.scrubber tier).next = 0 ∧ (t.scrubber tier).start = now) ∧
        ((∀ q ∈ s.eccBad, q / 4 ≠ pa / 64) → t.log = s.log) ∧
        ((∃ q ∈ s.eccBad, q / 4 = pa / 64) → ∃ e, t.log = s.log ++ [e] ∧ e.cls = 3)))

/-! ## Scheduling and pre-emption -/

/-- R340 to R343, R341, R388, R391 and R406: a queue's level and PINNED follow its waiting time; a slice that has run out while another
context of the world cannot be placed begins a pre-emption; the chosen queue's head is accepted under a new SEQ where its entry name
resolves to code, and leaves the queue where it does not; its next team is placed on the first core that fits, with a zeroed allocation,
its groups READY at the entry point with their arguments; a saved team of a resumed context is placed with the budgets of its record's
header, and every lane in the handler; a
sub-group that stays blocked sends a probe, which ends where a lane can go on, and brings DEADLOCK where it returns to lanes that still
wait. -/
def Obligations.SchedulingSteps : Prop :=
  ∀ (s : State), s.queues.length = 64 → s.cores.length = 192 →
    let now := s.cycle.toNat
    let a := s.ageAll
    (∀ n, n < 64 →
      ((s.lqueue n).recs = [] → ∃ t, exec (.queueAging n) s = .next t ∧ (t.lqueue n).raised = 0 ∧ (t.lqueue n).pinned = false ∧
        (t.lqueue n).since = now) ∧
      (∀ r rs ctx c, (s.lqueue n).recs = r :: rs → (s.lqueue n).ctx = some ctx → s.ctx? ctx = some c → c.stage = .none →
        let k := (now - (s.lqueue n).since) / 2400000
        ∃ t, exec (.queueAging n) s = .next t ∧ (t.lqueue n).raised = min k (3 - recPrio r.bytes) ∧
          (t.lqueue n).pinned = decide (4 - recPrio r.bytes ≤ k) ∧ (t.lqueue n).recs = r :: rs ∧
          (∀ m, m ≠ n → t.lqueue m = s.lqueue m) ∧ t.groups = s.groups ∧ t.mem = s.mem) ∧
      (a.chooseQueue = some n → (a.lqueue n).accepted = none → ∀ r rs ctx, (a.lqueue n).recs = r :: rs → (a.lqueue n).ctx = some ctx →
        ∀ s2 e, State.swizzle { a with gridSeq := (a.gridSeq + 1) % 2 ^ 24 } ctx (pk r.bytes 0 16) = (s2, e) →
          (∀ va c x, e = .ok va → s2.ctx? ctx = some c → inWindow va.toNat = true → s2.rangeOf c va.toNat = .ok (some x) → x.kind = 1 →
            ∃ t, exec (.recordAccept n) s = .next t ∧ (t.lqueue n).accepted = some ((a.gridSeq + 1) % 2 ^ 24, va) ∧
              (t.lqueue n).nextTeam = 0 ∧ t.teams = s.teams) ∧
          (∀ cause, e = .error cause → ∃ t, exec (.recordAccept n) s = .next t ∧ (t.lqueue n).recs = rs ∧ (t.lqueue n).accepted = none)) ∧
      (a.chooseQueue ≠ some n → exec (.recordAccept n) s = .next a)) ∧
    (∀ ctx c, s.ctx? ctx = some c →
      let due : Prop := c.stage = .none ∧ c.slice ≠ 0 ∧ c.resumed + c.slice ≤ now ∧
        ∃ q ∈ s.queues, ∃ n d, q.ctx = some n ∧ n ≠ c.num ∧ q.recs ≠ [] ∧ s.ctx? n = some d ∧ d.world = c.world ∧ s.headFits q = false
      (due → (∃ tm ∈ s.teams, tm.ctx = ctx) → ∃ t c', exec (.sliceExpiry ctx) s = .next t ∧ t.ctx? ctx = some c' ∧ c'.stage = .drain ∧
        c'.deadline = now + c.t1 ∧ t.groups = s.groups ∧ t.teams = s.teams ∧ t.mem = s.mem) ∧
      (due → (∀ tm ∈ s.teams, tm.ctx ≠ ctx) → ∃ t c', exec (.sliceExpiry ctx) s = .next t ∧ t.ctx? ctx = some c' ∧ c'.stage = .saved) ∧
      (¬ due → exec (.sliceExpiry ctx) s = .next s)) ∧
    ((∀ c ∈ s.ctxs, c.savedTeams = []) → ∀ n ctx c r rs seq entry core base, a.chooseQueue = some n → (a.lqueue n).recs = r :: rs →
      (a.lqueue n).ctx = some ctx → s.ctx? ctx = some c → (a.lqueue n).accepted = some (seq, entry) →
      a.findCore c.world (recScr r.bytes) ((recGroups r.bytes).map (·.2)) = some (core, base) →
      ∃ t tm, exec .teamPlacement s = .next t ∧ tm ∈ t.teams ∧ tm.tid = s.nextTid ∧ tm.ctx = ctx ∧ tm.core = core ∧ tm.base = base ∧
        tm.record = r.bytes ∧ tm.groups.length = (recGroups r.bytes).length ∧ t.lastCore = some core ∧ t.lastQueue = some n ∧
        (∀ x, base ≤ x → x < base + 4096 * recScr r.bytes → sget (t.core core).spad x = 0) ∧
        (recTeams r.bytes ≤ (a.lqueue n).nextTeam + 1 → (t.lqueue n).recs = rs) ∧
        ((a.lqueue n).nextTeam + 1 < recTeams r.bytes → (t.lqueue n).recs = r :: rs ∧ (t.lqueue n).nextTeam = (a.lqueue n).nextTeam + 1) ∧
        ∀ i key role blks, (i, key) ∈ tm.groups → (recGroups r.bytes)[i]? = some (role, blks) →
          ∃ g, t.group? key = some g ∧ g.gid = mkGid seq (a.lqueue n).nextTeam i role ∧ g.team = s.nextTid ∧ g.budget = blks ∧
            g.trapv = c.hpc &&& ~~~ 3 ∧ g.tmask = 0 ∧ g.v = [] ∧ g.k = [] ∧ g.j = [] ∧
            (∀ k, g.gget k = if k < 3 then BitVec.ofNat 64 (pk r.bytes (40 + 8 * k) 8) else 0) ∧
            ∀ l, l < 32 → (g.lane l).st = .ready ∧ (g.lane l).pc = entry) ∧
    (∀ c k tm core base, s.ctxs = [c] → c.stage = .none → c.savedTeams = [(k, tm)] → a.chooseQueue = none →
      (a.anyPinned = true → exec .teamPlacement s = .next a) ∧
      (a.anyPinned = false →
      a.findCore c.world (a.savedScr c k tm) (a.savedBlocks c k tm) = some (core, base) →
      ∃ t tm' c', exec .teamPlacement s = .next t ∧ tm' ∈ t.teams ∧ tm'.tid = s.nextTid ∧ tm'.core = core ∧ tm'.base = base ∧
        tm'.saveRec = some k ∧ t.ctx? c.num = some c' ∧ c'.savedTeams = [] ∧ tm'.groups.length = tm.ngroups ∧
        ∀ i key, (i, key) ∈ tm'.groups → ∃ g, t.group? key = some g ∧ g.tmask = BitVec.allOnes 32 ∧ g.v = [] ∧ g.g = [] ∧
          (a.savedBlocks c k tm)[i]? = some g.budget ∧
          ∀ l, l < 32 → (g.lane l).st = .ready ∧ (g.lane l).pc = c.hpc &&& ~~~ 3 ∧ (g.lane l).tcause = cSaveRequest ∧
            (g.lane l).taddr = BitVec.ofNat 64 (c.saveBase + k * c.saveSz) ∧ (g.lane l).tinfo = 256)) ∧
    (∀ core port slot lane g e, core < 192 → port < 4 → slot < 16 → lane < 32 → s.group? (slotKey core port slot) = some g → g.halted = false →
      s.edge (slotKey core port slot) g lane = some e →
      let d := now - (g.lane lane).since
      (2 ^ 20 ≤ d → d % 2 ^ 20 = 0 → ∃ t p, exec (.probeTimer core port slot lane) s = .next t ∧ t = { s with probes := s.probes ++ [p] } ∧
        p.at_ = e ∧ p.hops = 1 ∧ p.since = (g.lane lane).since ∧ p.ident = identWord s g.gid ∧ p.world = s.groupWorld g ∧
        p.origin = some (slotKey core port slot, unitOf g lane) ∧ p.far = s.farEdge (slotKey core port slot) g lane) ∧
      (d < 2 ^ 20 → exec (.probeTimer core port slot lane) s = .next s) ∧
      (∀ j, (s.team? g.team).isSome = true → (g.lane lane).st = .parked (.rejoin j) → e = [(slotKey core port slot, g.jget j)])) ∧
    (∀ i p, s.probes[i]? = some p →
      let gone : State := { s with probes := s.probes.eraseIdx i }
      let blocked : Prop := ∀ x ∈ p.at_, ∃ g, s.group? x.1 = some g ∧ g.halted = false ∧
        ∀ l, inSet x.2 l = true → (g.lane l).st.isParked = true ∨ (g.lane l).st = .exited
      (¬ blocked ∨ 64 < p.hops → exec (.probeHop i) s = .next gone) ∧
      (∀ key olanes, p.origin = some (key, olanes) → blocked → p.hops ≤ 64 → (∃ x ∈ p.at_, x.1 = key ∧ x.2 &&& olanes ≠ 0) →
        (∀ g, s.group? key = some g → (identWord s g.gid ≠ p.ident ∨ ∃ l, inSet olanes l = true ∧ (g.lane l).since ≠ p.since) →
          exec (.probeHop i) s = .next gone) ∧
        ∀ g tm l0, s.group? key = some g → s.team? g.team = some tm →
        identWord s g.gid = p.ident → inSet olanes l0 = true → (∀ l, l < l0 → inSet olanes l = false) →
        (∀ l, inSet olanes l = true → (g.lane l).st.isParked = true ∧ (g.lane l).since = p.since ∧ (g.lane l).pc = (g.lane l0).pc ∧
          (g.lane l).st ≠ .parked .conv) →
        ∃ t g', exec (.probeHop i) s = .next t ∧ t.group? key = some g' ∧ t.probes = gone.probes ∧
          TrapTaken g g' olanes (g.lane l0).pc cDeadlock (s.deadlockAddr key g l0) (BitVec.ofNat 64 p.hops)))

/-- R345, R379, R384 to R387 and R389: a drain that is over its time begins the save of the context's teams, each in the lowest free
record, or ends the context's teams by forced reset where a group has no handler; a save that is over its time ends in a forced reset;
the request goes to every group of a team whose engine work is done; a saved team leaves its core; a team that has ended leaves it too
and JOIN counts down; a posting becomes the next entry of its world's fault queue, whose descriptor is a local physical address by the
model's choice (log 24). -/
def Obligations.PreemptionSteps : Prop :=
  ∀ (s : State),
    let now := s.cycle.toNat
    (∀ ctx c, s.ctx? ctx = some c →
      let reset (ins : Instr) : Prop := ∃ t c', exec ins s = .next t ∧ t.ctx? ctx = some c' ∧ c'.stage = .saved ∧ c'.savedTeams = [] ∧
        c'.recs = [] ∧ ∀ tm ∈ t.teams, tm.ctx ≠ ctx
      (c.stopped = none → c.deadline ≤ now →
        (c.stage = .drain →
          let tms := s.teams.filter fun x => x.ctx == ctx && (s.teamGroups x).any fun p => !p.2.allExited
          let free (k : Nat) : Prop := k < c.saveN ∧ ∀ r ∈ s.usedRecs c, r.1 ≠ k
          let stuck : Prop := ∃ tm ∈ tms, ∃ p ∈ s.teamGroups tm, p.2.trapv = 0 ∧ p.2.allExited = false
          (∀ ks : List Nat, ks.length = tms.length → ks.Pairwise (· < ·) → (∀ k ∈ ks, free k) →
            (∀ k, free k → k ∉ ks → ∀ j ∈ ks, j < k) → (tms.map Team.tid).Nodup → ¬ stuck →
            ∃ t c', exec (.preemptT1Expiry ctx) s = .next t ∧ t.ctx? ctx = some c' ∧ c'.stage = .save ∧ c'.deadline = now + c.t2 ∧
              c'.recs = s.usedRecs c ++ ks.map (fun k => (k, false)) ∧ t.groups = s.groups ∧ t.mem = s.mem ∧
              ∀ (n : Nat) (tm : Team) (k : Nat), tms[n]? = some tm → ks[n]? = some k → ∃ tm' ∈ t.teams, tm'.tid = tm.tid ∧ tm'.saveRec = some k ∧
                tm'.saveSent = false) ∧
          ((stuck ∨ ∀ ks : List Nat, ks.Nodup → (∀ k ∈ ks, free k) → ks.length < tms.length) → reset (.preemptT1Expiry ctx))) ∧
        (c.stage = .save → reset (.preemptT2Expiry ctx))) ∧
      ((c.stage ≠ .drain ∨ c.stopped ≠ none ∨ now < c.deadline) → exec (.preemptT1Expiry ctx) s = .next s) ∧
      ((c.stage ≠ .save ∨ c.stopped ≠ none ∨ now < c.deadline) → exec (.preemptT2Expiry ctx) s = .next s)) ∧
    (∀ n tm c, s.team? n = some tm → s.ctx? tm.ctx = some c →
      (∀ k, tm.saveRec = some k →
        (c.stage = .save → tm.saveSent = false → s.engineBusy tm = false → s.saveQueries tm = false →
          let va := c.saveBase + k * c.saveSz
          (s.checkedWrite c va (s.saveHeader tm) = none → exec (.saveRequest n) s = .next (s.forcedReset c.num)) ∧
          (∀ s1, s.checkedWrite c va (s.saveHeader tm) = some s1 → ∃ t, exec (.saveRequest n) s = .next t ∧
            (∀ x ∈ tm.groups, ∀ g, s.group? x.2 = some g → g.allExited = false → ∃ g', t.group? x.2 = some g' ∧ g'.saveReq = some (BitVec.ofNat 64 va) ∧
              RegistersKept g g') ∧
            (∀ l, tm.record.length = 64 → inPage va 256 = 256 → s.resolve c true .write va 256 = .ok l → l.space = spLocal →
              isCarve l.pa = false → inPage l.pa 256 = 256 → t.readBytes spLocal l.pa 256 = s.saveHeader tm))) ∧
        ((s.engineBusy tm = true ∨ s.saveQueries tm = true) → exec (.saveRequest n) s = .next s) ∧
        (tm.groups = [] → tm.savedGrp ≠ [] →
          (s.teamBusy tm = true → exec (.teamSaved n) s = .next s) ∧
          (s.teamBusy tm = false → ∃ t c', exec (.teamSaved n) s = .next t ∧ t.ctx? tm.ctx = some c' ∧ (k, tm) ∈ c'.savedTeams ∧
            (∀ x ∈ t.teams, x.tid ≠ n) ∧
            (c.stage = .save → (∀ x ∈ s.teams, x.tid ≠ n → x.ctx ≠ tm.ctx) → c'.stage = .saved)))) ∧
      ((tm.groups ≠ [] ∨ tm.savedGrp ≠ [] ∨ s.teamBusy tm = true) → exec (.teamEnd n) s = .next s) ∧
      (tm.groups = [] → tm.savedGrp = [] → s.teamBusy tm = false → (∃ x ∈ s.teams, x.tid ≠ n ∧ x.ctx = tm.ctx) →
        (recJoin tm.record = 0 → ∃ t, exec (.teamEnd n) s = .next t ∧ (∀ x ∈ t.teams, x.tid ≠ n) ∧ t.mem = s.mem ∧ t.groups = s.groups) ∧
        (recJoin tm.record ≠ 0 → recJoin tm.record % 8 = 0 → ∀ l, s.resolve c c.priv .atomic (recJoin tm.record) 8 = .ok l →
          l.space = spLocal → isCarve l.pa = false → l.pa % 8 = 0 → s.eccBad = [] → s.tagBad = [] →
          ∃ t, exec (.teamEnd n) s = .next t ∧ (∀ x ∈ t.teams, x.tid ≠ n) ∧
            t.readNat spLocal l.pa 8 = (s.readNat spLocal l.pa 8 + 2 ^ 64 - 1) % 2 ^ 64))) ∧
    (∀ p q, s.posts = [p] → p.svc = false → (s.world p.world).faultq = some q → s.posted = [] → q.desc % 4096 = 0 →
      (∀ a, q.desc ≤ a → a < q.desc + 4096 + 32 * 2 ^ q.n → isCarve a = false ∧ walkerPass s.mem p.world a false = none) →
      s.eccBad = [] → s.tagBad = [] →
      let w := s.readNat spLocal q.desc 8
      let r := s.readNat spLocal (q.desc + 128) 8
      ((r + 2 ^ q.n) % 2 ^ 64 ≤ w → exec .faultQueuePost s = .next s) ∧
      (w < (r + 2 ^ q.n) % 2 ^ 64 → ∃ t, exec .faultQueuePost s = .next t ∧ t.posts = [] ∧
        t.readNat spLocal q.desc 8 = (w + 1) % 2 ^ 64 ∧
        t.readBytes spLocal (q.desc + 4096 + 32 * (w % 2 ^ q.n)) 32 = p.bytes (((s.ctx? p.ctx).map (·.asid)).getD 0) w false))

/-! ## The form of the data -/

/-- Every step keeps the form: memories stay canonical, so that equal memories are equal data, and no unit is lost. The form of the data
is the model's; the units it counts are those of Tables 4.1, 7.1, 14.1 and 16.1. -/
def Obligations.StepKeepsForm : Prop :=
  ∀ s t : State, WellShaped s → step s = .next t → WellShaped t

/-- The machine after reset has the form. -/
def Obligations.ResetHasForm : Prop :=
  WellShaped State.reset
end

