-- ==== Sys2Proof/Laws/Sparse.lean ====
section
/-! SUPPORT. Laws of sparse contents: read after write, and the canonical form kept by every operation. -/

namespace Sys2Proof.Machine

/-- The canonical form as a proposition: keys strictly rising, no listed zero. -/
theorem sparseWf_iff {w : Nat} (m : Sparse w) :
    sparseWf m = true ↔ m.Pairwise (fun p q => p.1 < q.1) ∧ ∀ p ∈ m, p.2 ≠ 0#w := by
  induction m with
  | nil => simp [sparseWf]
  | cons p r ih =>
    cases r with
    | nil => simp [sparseWf]
    | cons q r =>
      obtain ⟨k, v⟩ := p
      obtain ⟨k', v'⟩ := q
      simp only [sparseWf, Bool.and_eq_true, decide_eq_true_eq, ih, List.pairwise_cons, List.mem_cons, forall_eq_or_imp]
      constructor
      · rintro ⟨⟨hv, hk⟩, ⟨h1, h2⟩, h3, h4⟩
        exact ⟨⟨⟨hk, fun x hx => lt_trans hk (h1 x hx)⟩, h1, h2⟩, hv, h3, h4⟩
      · rintro ⟨⟨⟨hk, -⟩, h1, h2⟩, hv, h3, h4⟩
        exact ⟨⟨hv, hk⟩, ⟨h1, h2⟩, h3, h4⟩

@[simp] theorem sparseWf_nil {w : Nat} : sparseWf ([] : Sparse w) = true := rfl

theorem sparseWf_filter {w : Nat} (m : Sparse w) (p : Nat × BitVec w → Bool) (h : sparseWf m = true) :
    sparseWf (m.filter p) = true := by
  rw [sparseWf_iff] at *
  exact ⟨h.1.filter _, fun q hq => h.2 q (List.mem_of_mem_filter hq)⟩

theorem mem_scells {w : Nat} (vs : List (BitVec w)) (a : Nat) (p : Nat × BitVec w) (h : p ∈ scells a vs) :
    a ≤ p.1 ∧ p.1 < a + vs.length ∧ p.2 ≠ 0#w := by
  induction vs generalizing a with
  | nil => simp [scells] at h
  | cons v r ih =>
    simp only [scells] at h
    split at h
    · have := ih (a + 1) h
      simp only [List.length_cons]
      exact ⟨by omega, by omega, this.2.2⟩
    · rcases List.mem_cons.mp h with rfl | h
      · exact ⟨le_refl _, by simp, by assumption⟩
      · have := ih (a + 1) h
        simp only [List.length_cons]
        exact ⟨by omega, by omega, this.2.2⟩

theorem sparseWf_scells {w : Nat} (vs : List (BitVec w)) (a : Nat) : sparseWf (scells a vs) = true := by
  rw [sparseWf_iff]
  refine ⟨?_, fun p hp => (mem_scells vs a p hp).2.2⟩
  induction vs generalizing a with
  | nil => simp [scells]
  | cons v r ih =>
    simp only [scells]
    split
    · exact ih _
    · exact List.pairwise_cons.mpr ⟨fun p hp => (mem_scells r (a + 1) p hp).1, ih _⟩

theorem sparseWf_append {w : Nat} (m n : Sparse w) (hm : sparseWf m = true) (hn : sparseWf n = true)
    (h : ∀ p ∈ m, ∀ q ∈ n, p.1 < q.1) : sparseWf (m ++ n) = true := by
  rw [sparseWf_iff] at *
  refine ⟨List.pairwise_append.mpr ⟨hm.1, hn.1, h⟩, fun p hp => ?_⟩
  rcases List.mem_append.mp hp with hp | hp
  · exact hm.2 p hp
  · exact hn.2 p hp

/-- A write keeps the canonical form. -/
theorem sparseWf_sput {w : Nat} (m : Sparse w) (a : Nat) (vs : List (BitVec w)) (h : sparseWf m = true) :
    sparseWf (sput m a vs) = true := by
  refine sparseWf_append _ _ (sparseWf_append _ _ (sparseWf_filter m _ h) (sparseWf_scells vs a) ?_)
    (sparseWf_filter m _ h) ?_
  · intro p hp q hq
    have h1 := (List.mem_filter.mp hp).2
    have h2 := mem_scells vs a q hq
    simp only [decide_eq_true_eq] at h1
    omega
  · intro p hp q hq
    have h2 := (List.mem_filter.mp hq).2
    simp only [decide_eq_true_eq] at h2
    rcases List.mem_append.mp hp with hp | hp
    · have h1 := (List.mem_filter.mp hp).2
      simp only [decide_eq_true_eq] at h1
      omega
    · have h1 := mem_scells vs a p hp
      omega

theorem sparseWf_sset {w : Nat} (m : Sparse w) (a : Nat) (v : BitVec w) (h : sparseWf m = true) :
    sparseWf (sset m a v) = true := sparseWf_sput m a [v] h

/-- A clear keeps the canonical form. -/
theorem sparseWf_sclear {w : Nat} (m : Sparse w) (a n : Nat) (h : sparseWf m = true) : sparseWf (sclear m a n) = true := by
  refine sparseWf_append _ _ (sparseWf_filter m _ h) (sparseWf_filter m _ h) ?_
  intro p hp q hq
  have h1 := (List.mem_filter.mp hp).2
  have h2 := (List.mem_filter.mp hq).2
  simp only [decide_eq_true_eq] at h1 h2
  omega

theorem sget_append {w : Nat} (m n : Sparse w) (k : Nat) :
    sget (m ++ n) k = if m.any (fun p => p.1 == k) then sget m k else sget n k := by
  induction m with
  | nil => simp
  | cons p r ih =>
    obtain ⟨a, v⟩ := p
    by_cases h : a = k <;> simp [sget, h, ih]

theorem sget_none {w : Nat} (m : Sparse w) (k : Nat) (h : ∀ p ∈ m, p.1 ≠ k) : sget m k = 0#w := by
  induction m with
  | nil => rfl
  | cons p r ih =>
    obtain ⟨a, v⟩ := p
    simp only [sget]
    rw [if_neg (h (a, v) (by simp))]
    exact ih fun q hq => h q (by simp [hq])

theorem sget_filter {w : Nat} (m : Sparse w) (p : Nat → Bool) (k : Nat) :
    sget (m.filter fun x => p x.1) k = if p k then sget m k else 0#w := by
  induction m with
  | nil => simp [sget]
  | cons x r ih =>
    obtain ⟨a, v⟩ := x
    by_cases h : a = k
    · subst h
      by_cases hp : p a = true
      · simp [List.filter, hp, sget]
      · simp only [List.filter, Bool.not_eq_true] at hp ⊢
        simp only [hp, ih]; simp
    · by_cases hp : p a = true
      · simp only [List.filter, hp, sget, h, if_false, ih]
      · simp only [Bool.not_eq_true] at hp
        simp only [List.filter, hp, ih, sget, h, if_false]

theorem sget_scells {w : Nat} (vs : List (BitVec w)) (a k : Nat) :
    sget (scells a vs) k = if a ≤ k then vs.getD (k - a) 0#w else 0#w := by
  induction vs generalizing a with
  | nil => simp [scells, sget]
  | cons v r ih =>
    simp only [scells]
    rcases Nat.lt_trichotomy k a with h | h | h
    · have : ¬ a ≤ k := by omega
      have h2 : ¬ a + 1 ≤ k := by omega
      split <;> simp [sget, ih, h2, Nat.ne_of_gt h]
    · subst h
      split
      · next hv => simp [ih, hv]
      · simp [sget]
    · obtain ⟨d, rfl⟩ := Nat.exists_eq_add_of_lt h
      have e1 : a + d + 1 - (a + 1) = d := by omega
      have e2 : a + d + 1 - a = d + 1 := by omega
      have h3 : a + 1 ≤ a + d + 1 := by omega
      have h5 : a ≠ a + d + 1 := by omega
      rw [if_pos (show a ≤ a + d + 1 by omega), e2]
      split <;> simp [sget, ih, h3, h5, e1]

/-- Read after write: the written keys read the values written, every other key reads as before. -/
theorem sget_sput {w : Nat} (m : Sparse w) (a : Nat) (vs : List (BitVec w)) (k : Nat) :
    sget (sput m a vs) k = if a ≤ k ∧ k < a + vs.length then vs.getD (k - a) 0#w else sget m k := by
  have f1 := sget_filter m (fun x => decide (x < a)) k
  have f2 := sget_filter m (fun x => decide (a + vs.length ≤ x)) k
  have c := sget_scells vs a k
  have e0 : ∀ (l : Sparse w), (l.any fun p => p.1 == k) = false → sget l k = 0#w := by
    intro l hl
    exact sget_none l k fun p hp h => by
      have := List.any_eq_false.mp hl p hp
      simp [h] at this
  unfold sput
  rw [sget_append, sget_append]
  simp only [decide_eq_true_eq] at f1 f2
  by_cases h1 : k < a
  · have n1 : ¬ (a ≤ k ∧ k < a + vs.length) := by omega
    have n2 : ¬ a ≤ k := by omega
    have n3 : ¬ a + vs.length ≤ k := by omega
    rw [if_neg n1]
    simp only [h1, if_true] at f1
    simp only [n2, if_false] at c
    simp only [n3, if_false] at f2
    split
    · split
      · exact f1
      · next hh => rw [c, ← f1]; exact (e0 _ ((Bool.not_eq_true _).mp hh)).symm
    · next hh =>
      rw [f2, ← f1]
      refine (e0 _ ?_).symm
      simp only [List.any_append, Bool.or_eq_true, not_or, Bool.not_eq_true] at hh
      exact hh.1
  · simp only [h1, if_false] at f1
    have a1 : (List.any (m.filter fun x => decide (x.1 < a)) fun p => p.1 == k) = false := by
      simp only [List.any_eq_false, List.mem_filter, decide_eq_true_eq, beq_iff_eq]
      intro p hp; omega
    by_cases h2 : k < a + vs.length
    · have n1 : a ≤ k ∧ k < a + vs.length := by omega
      have n2 : a ≤ k := by omega
      have n3 : ¬ a + vs.length ≤ k := by omega
      rw [if_pos n1]
      simp only [n2, if_true] at c
      simp only [n3, if_false] at f2
      simp only [List.any_append, a1, Bool.false_or, Bool.false_eq_true, if_false]
      split
      · exact c
      · next hh => rw [f2, ← c]; exact (e0 _ ((Bool.not_eq_true _).mp hh)).symm
    · have n1 : ¬ (a ≤ k ∧ k < a + vs.length) := by omega
      have n3 : a + vs.length ≤ k := by omega
      rw [if_neg n1]
      simp only [n3, if_true] at f2
      have a2 : (List.any (scells a vs) fun p => p.1 == k) = false := by
        simp only [List.any_eq_false, beq_iff_eq]
        intro p hp he
        have := mem_scells vs a p hp
        omega
      simp only [List.any_append, a1, a2, Bool.or_self, Bool.false_eq_true, if_false]
      exact f2

theorem sget_sset {w : Nat} (m : Sparse w) (a : Nat) (v : BitVec w) (k : Nat) :
    sget (sset m a v) k = if k = a then v else sget m k := by
  unfold sset
  rw [sget_sput]
  by_cases h : k = a
  · subst h; simp
  · have : ¬ (a ≤ k ∧ k < a + [v].length) := by simp only [List.length_cons, List.length_nil]; omega
    rw [if_neg this, if_neg h]

theorem sget_sclear {w : Nat} (m : Sparse w) (a n k : Nat) :
    sget (sclear m a n) k = if a ≤ k ∧ k < a + n then 0#w else sget m k := by
  unfold sclear
  rw [sget_append]
  have f1 := sget_filter m (fun x => decide (x < a)) k
  have f2 := sget_filter m (fun x => decide (a + n ≤ x)) k
  simp only [decide_eq_true_eq] at f1 f2
  have e0 : ∀ (l : Sparse w), (l.any fun p => p.1 == k) = false → sget l k = 0#w := by
    intro l hl
    exact sget_none l k fun p hp h => by
      have := List.any_eq_false.mp hl p hp
      simp [h] at this
  by_cases h1 : k < a
  · rw [if_neg (show ¬ (a ≤ k ∧ k < a + n) by omega)]
    rw [if_pos h1] at f1
    rw [if_neg (show ¬ a + n ≤ k by omega)] at f2
    split
    · exact f1
    · next hh => rw [f2, ← f1]; exact (e0 _ ((Bool.not_eq_true _).mp hh)).symm
  · have a1 : (List.any (m.filter fun x => decide (x.1 < a)) fun p => p.1 == k) = false := by
      simp only [List.any_eq_false, List.mem_filter, decide_eq_true_eq, beq_iff_eq]
      intro p hp; omega
    simp only [a1, Bool.false_eq_true, if_false, f2]
    by_cases h2 : k < a + n
    · rw [if_neg (by omega), if_pos (by omega)]
    · rw [if_pos (by omega), if_neg (by omega)]

/-- Reading several keys is reading each of them. -/
theorem sread_eq {w : Nat} (m : Sparse w) (a n : Nat) : sread m a n = (List.range n).map fun i => sget m (a + i) := by
  unfold sread
  refine List.map_congr_left fun i hi => ?_
  have f := sget_filter m (fun x => decide (a ≤ x) && decide (x < a + n)) (a + i)
  have hi := List.mem_range.mp hi
  rw [f]
  simp [hi]

theorem sread_length {w : Nat} (m : Sparse w) (a n : Nat) : (sread m a n).length = n := by
  rw [sread_eq]; simp

end Sys2Proof.Machine
end

