-- ==== Sys2Proof/Laws/State.lean ====
section
/-! SUPPORT. Laws of the state's named updates: what each leaves of every field that another statement reads, and that a unit
that is replaced reads back. -/

namespace Sys2Proof.Machine

open Sys2Proof.Bits

@[simp] theorem State.setGroup_mem (s : State) (k : Nat) (g : Group) : (s.setGroup k g).mem = s.mem := rfl
@[simp] theorem State.setGroup_hostMem (s : State) (k : Nat) (g : Group) : (s.setGroup k g).hostMem = s.hostMem := rfl
@[simp] theorem State.setGroup_peers (s : State) (k : Nat) (g : Group) : (s.setGroup k g).peers = s.peers := rfl
@[simp] theorem State.setGroup_eccBad (s : State) (k : Nat) (g : Group) : (s.setGroup k g).eccBad = s.eccBad := rfl
@[simp] theorem State.setGroup_eccSoft (s : State) (k : Nat) (g : Group) : (s.setGroup k g).eccSoft = s.eccSoft := rfl
@[simp] theorem State.setGroup_tagBad (s : State) (k : Nat) (g : Group) : (s.setGroup k g).tagBad = s.tagBad := rfl
@[simp] theorem State.setGroup_cores (s : State) (k : Nat) (g : Group) : (s.setGroup k g).cores = s.cores := rfl
@[simp] theorem State.setGroup_teams (s : State) (k : Nat) (g : Group) : (s.setGroup k g).teams = s.teams := rfl
@[simp] theorem State.setGroup_ctxs (s : State) (k : Nat) (g : Group) : (s.setGroup k g).ctxs = s.ctxs := rfl
@[simp] theorem State.setGroup_posts (s : State) (k : Nat) (g : Group) : (s.setGroup k g).posts = s.posts := rfl
@[simp] theorem State.setGroup_worlds (s : State) (k : Nat) (g : Group) : (s.setGroup k g).worlds = s.worlds := rfl
@[simp] theorem State.setGroup_cycle (s : State) (k : Nat) (g : Group) : (s.setGroup k g).cycle = s.cycle := rfl
@[simp] theorem State.setGroup_tick (s : State) (k : Nat) (g : Group) : (s.setGroup k g).tick = s.tick := rfl
@[simp] theorem State.setGroup_turn (s : State) (k : Nat) (g : Group) : (s.setGroup k g).turn = s.turn := rfl
@[simp] theorem State.setGroup_agenda (s : State) (k : Nat) (g : Group) : (s.setGroup k g).agenda = s.agenda := rfl
@[simp] theorem State.setGroup_remotes (s : State) (k : Nat) (g : Group) : (s.setGroup k g).remotes = s.remotes := rfl
@[simp] theorem State.setGroup_convs (s : State) (k : Nat) (g : Group) : (s.setGroup k g).convs = s.convs := rfl
@[simp] theorem State.setGroup_queues (s : State) (k : Nat) (g : Group) : (s.setGroup k g).queues = s.queues := rfl
@[simp] theorem State.setGroup_host (s : State) (k : Nat) (g : Group) : (s.setGroup k g).host = s.host := rfl
@[simp] theorem State.setGroup_links (s : State) (k : Nat) (g : Group) : (s.setGroup k g).links = s.links := rfl
@[simp] theorem State.setGroup_conns (s : State) (k : Nat) (g : Group) : (s.setGroup k g).conns = s.conns := rfl
@[simp] theorem State.setGroup_dogs (s : State) (k : Nat) (g : Group) : (s.setGroup k g).dogs = s.dogs := rfl
@[simp] theorem State.setGroup_pubs (s : State) (k : Nat) (g : Group) : (s.setGroup k g).pubs = s.pubs := rfl
@[simp] theorem State.setGroup_tlb (s : State) (k : Nat) (g : Group) : (s.setGroup k g).tlb = s.tlb := rfl
@[simp] theorem State.setGroup_walks (s : State) (k : Nat) (g : Group) : (s.setGroup k g).walks = s.walks := rfl
@[simp] theorem State.setGroup_peerMons (s : State) (k : Nat) (g : Group) : (s.setGroup k g).peerMons = s.peerMons := rfl
@[simp] theorem State.setGroup_udpPort (s : State) (k : Nat) (g : Group) : (s.setGroup k g).udpPort = s.udpPort := rfl
@[simp] theorem State.setGroup_trained (s : State) (k : Nat) (g : Group) : (s.setGroup k g).trained = s.trained := rfl
@[simp] theorem State.setGroup_arith (s : State) (k : Nat) (g : Group) : (s.setGroup k g).arith = s.arith := rfl
@[simp] theorem State.setGroup_unreachable (s : State) (k : Nat) (g : Group) : (s.setGroup k g).unreachable = s.unreachable := rfl
@[simp] theorem State.setGroup_kept (s : State) (k : Nat) (g : Group) : (s.setGroup k g).kept = s.kept := rfl
@[simp] theorem State.setGroup_waitPage (s : State) (k : Nat) (g : Group) : (s.setGroup k g).waitPage = s.waitPage := rfl
@[simp] theorem State.setGroup_probes (s : State) (k : Nat) (g : Group) : (s.setGroup k g).probes = s.probes := rfl
@[simp] theorem State.setGroup_txE2e (s : State) (k : Nat) (g : Group) : (s.setGroup k g).txE2e = s.txE2e := rfl
@[simp] theorem State.setGroup_rxE2e (s : State) (k : Nat) (g : Group) : (s.setGroup k g).rxE2e = s.rxE2e := rfl
@[simp] theorem State.setGroup_log (s : State) (k : Nat) (g : Group) : (s.setGroup k g).log = s.log := rfl
@[simp] theorem State.setGroup_llc (s : State) (k : Nat) (g : Group) : (s.setGroup k g).llc = s.llc := rfl
@[simp] theorem State.setGroup_release (s : State) (k : Nat) (g : Group) : (s.setGroup k g).release = s.release := rfl
@[simp] theorem State.setGroup_conf (s : State) (k : Nat) (g : Group) : (s.setGroup k g).conf = s.conf := rfl
@[simp] theorem State.setGroup_fabNum (s : State) (k : Nat) (g : Group) : (s.setGroup k g).fabNum = s.fabNum := rfl

@[simp] theorem State.addPosts_mem (s : State) (ps : List Posting) : (s.addPosts ps).mem = s.mem := rfl
@[simp] theorem State.addPosts_hostMem (s : State) (ps : List Posting) : (s.addPosts ps).hostMem = s.hostMem := rfl
@[simp] theorem State.addPosts_peers (s : State) (ps : List Posting) : (s.addPosts ps).peers = s.peers := rfl
@[simp] theorem State.addPosts_eccBad (s : State) (ps : List Posting) : (s.addPosts ps).eccBad = s.eccBad := rfl
@[simp] theorem State.addPosts_eccSoft (s : State) (ps : List Posting) : (s.addPosts ps).eccSoft = s.eccSoft := rfl
@[simp] theorem State.addPosts_tagBad (s : State) (ps : List Posting) : (s.addPosts ps).tagBad = s.tagBad := rfl
@[simp] theorem State.addPosts_cores (s : State) (ps : List Posting) : (s.addPosts ps).cores = s.cores := rfl
@[simp] theorem State.addPosts_groups (s : State) (ps : List Posting) : (s.addPosts ps).groups = s.groups := rfl
@[simp] theorem State.addPosts_teams (s : State) (ps : List Posting) : (s.addPosts ps).teams = s.teams := rfl
@[simp] theorem State.addPosts_ctxs (s : State) (ps : List Posting) : (s.addPosts ps).ctxs = s.ctxs := rfl
@[simp] theorem State.addPosts_worlds (s : State) (ps : List Posting) : (s.addPosts ps).worlds = s.worlds := rfl
@[simp] theorem State.addPosts_cycle (s : State) (ps : List Posting) : (s.addPosts ps).cycle = s.cycle := rfl
@[simp] theorem State.addPosts_tick (s : State) (ps : List Posting) : (s.addPosts ps).tick = s.tick := rfl
@[simp] theorem State.addPosts_turn (s : State) (ps : List Posting) : (s.addPosts ps).turn = s.turn := rfl
@[simp] theorem State.addPosts_agenda (s : State) (ps : List Posting) : (s.addPosts ps).agenda = s.agenda := rfl
@[simp] theorem State.addPosts_remotes (s : State) (ps : List Posting) : (s.addPosts ps).remotes = s.remotes := rfl
@[simp] theorem State.addPosts_convs (s : State) (ps : List Posting) : (s.addPosts ps).convs = s.convs := rfl
@[simp] theorem State.addPosts_queues (s : State) (ps : List Posting) : (s.addPosts ps).queues = s.queues := rfl
@[simp] theorem State.addPosts_host (s : State) (ps : List Posting) : (s.addPosts ps).host = s.host := rfl
@[simp] theorem State.addPosts_links (s : State) (ps : List Posting) : (s.addPosts ps).links = s.links := rfl
@[simp] theorem State.addPosts_conns (s : State) (ps : List Posting) : (s.addPosts ps).conns = s.conns := rfl
@[simp] theorem State.addPosts_dogs (s : State) (ps : List Posting) : (s.addPosts ps).dogs = s.dogs := rfl
@[simp] theorem State.addPosts_pubs (s : State) (ps : List Posting) : (s.addPosts ps).pubs = s.pubs := rfl
@[simp] theorem State.addPosts_tlb (s : State) (ps : List Posting) : (s.addPosts ps).tlb = s.tlb := rfl
@[simp] theorem State.addPosts_walks (s : State) (ps : List Posting) : (s.addPosts ps).walks = s.walks := rfl
@[simp] theorem State.addPosts_peerMons (s : State) (ps : List Posting) : (s.addPosts ps).peerMons = s.peerMons := rfl
@[simp] theorem State.addPosts_udpPort (s : State) (ps : List Posting) : (s.addPosts ps).udpPort = s.udpPort := rfl
@[simp] theorem State.addPosts_trained (s : State) (ps : List Posting) : (s.addPosts ps).trained = s.trained := rfl
@[simp] theorem State.addPosts_arith (s : State) (ps : List Posting) : (s.addPosts ps).arith = s.arith := rfl
@[simp] theorem State.addPosts_unreachable (s : State) (ps : List Posting) : (s.addPosts ps).unreachable = s.unreachable := rfl
@[simp] theorem State.addPosts_kept (s : State) (ps : List Posting) : (s.addPosts ps).kept = s.kept := rfl
@[simp] theorem State.addPosts_waitPage (s : State) (ps : List Posting) : (s.addPosts ps).waitPage = s.waitPage := rfl
@[simp] theorem State.addPosts_probes (s : State) (ps : List Posting) : (s.addPosts ps).probes = s.probes := rfl
@[simp] theorem State.addPosts_txE2e (s : State) (ps : List Posting) : (s.addPosts ps).txE2e = s.txE2e := rfl
@[simp] theorem State.addPosts_rxE2e (s : State) (ps : List Posting) : (s.addPosts ps).rxE2e = s.rxE2e := rfl
@[simp] theorem State.addPosts_log (s : State) (ps : List Posting) : (s.addPosts ps).log = s.log := rfl
@[simp] theorem State.addPosts_llc (s : State) (ps : List Posting) : (s.addPosts ps).llc = s.llc := rfl
@[simp] theorem State.addPosts_release (s : State) (ps : List Posting) : (s.addPosts ps).release = s.release := rfl
@[simp] theorem State.addPosts_conf (s : State) (ps : List Posting) : (s.addPosts ps).conf = s.conf := rfl
@[simp] theorem State.addPosts_fabNum (s : State) (ps : List Posting) : (s.addPosts ps).fabNum = s.fabNum := rfl

@[simp] theorem State.setCore_mem (s : State) (c : Nat) (x : Core) : (s.setCore c x).mem = s.mem := rfl
@[simp] theorem State.setCore_hostMem (s : State) (c : Nat) (x : Core) : (s.setCore c x).hostMem = s.hostMem := rfl
@[simp] theorem State.setCore_peers (s : State) (c : Nat) (x : Core) : (s.setCore c x).peers = s.peers := rfl
@[simp] theorem State.setCore_eccBad (s : State) (c : Nat) (x : Core) : (s.setCore c x).eccBad = s.eccBad := rfl
@[simp] theorem State.setCore_eccSoft (s : State) (c : Nat) (x : Core) : (s.setCore c x).eccSoft = s.eccSoft := rfl
@[simp] theorem State.setCore_tagBad (s : State) (c : Nat) (x : Core) : (s.setCore c x).tagBad = s.tagBad := rfl
@[simp] theorem State.setCore_groups (s : State) (c : Nat) (x : Core) : (s.setCore c x).groups = s.groups := rfl
@[simp] theorem State.setCore_teams (s : State) (c : Nat) (x : Core) : (s.setCore c x).teams = s.teams := rfl
@[simp] theorem State.setCore_ctxs (s : State) (c : Nat) (x : Core) : (s.setCore c x).ctxs = s.ctxs := rfl
@[simp] theorem State.setCore_posts (s : State) (c : Nat) (x : Core) : (s.setCore c x).posts = s.posts := rfl
@[simp] theorem State.setCore_worlds (s : State) (c : Nat) (x : Core) : (s.setCore c x).worlds = s.worlds := rfl
@[simp] theorem State.setCore_cycle (s : State) (c : Nat) (x : Core) : (s.setCore c x).cycle = s.cycle := rfl
@[simp] theorem State.setCore_tick (s : State) (c : Nat) (x : Core) : (s.setCore c x).tick = s.tick := rfl
@[simp] theorem State.setCore_turn (s : State) (c : Nat) (x : Core) : (s.setCore c x).turn = s.turn := rfl
@[simp] theorem State.setCore_agenda (s : State) (c : Nat) (x : Core) : (s.setCore c x).agenda = s.agenda := rfl
@[simp] theorem State.setCore_remotes (s : State) (c : Nat) (x : Core) : (s.setCore c x).remotes = s.remotes := rfl
@[simp] theorem State.setCore_convs (s : State) (c : Nat) (x : Core) : (s.setCore c x).convs = s.convs := rfl
@[simp] theorem State.setCore_queues (s : State) (c : Nat) (x : Core) : (s.setCore c x).queues = s.queues := rfl
@[simp] theorem State.setCore_host (s : State) (c : Nat) (x : Core) : (s.setCore c x).host = s.host := rfl
@[simp] theorem State.setCore_links (s : State) (c : Nat) (x : Core) : (s.setCore c x).links = s.links := rfl
@[simp] theorem State.setCore_conns (s : State) (c : Nat) (x : Core) : (s.setCore c x).conns = s.conns := rfl
@[simp] theorem State.setCore_dogs (s : State) (c : Nat) (x : Core) : (s.setCore c x).dogs = s.dogs := rfl
@[simp] theorem State.setCore_pubs (s : State) (c : Nat) (x : Core) : (s.setCore c x).pubs = s.pubs := rfl
@[simp] theorem State.setCore_tlb (s : State) (c : Nat) (x : Core) : (s.setCore c x).tlb = s.tlb := rfl
@[simp] theorem State.setCore_walks (s : State) (c : Nat) (x : Core) : (s.setCore c x).walks = s.walks := rfl
@[simp] theorem State.setCore_peerMons (s : State) (c : Nat) (x : Core) : (s.setCore c x).peerMons = s.peerMons := rfl
@[simp] theorem State.setCore_udpPort (s : State) (c : Nat) (x : Core) : (s.setCore c x).udpPort = s.udpPort := rfl
@[simp] theorem State.setCore_trained (s : State) (c : Nat) (x : Core) : (s.setCore c x).trained = s.trained := rfl
@[simp] theorem State.setCore_arith (s : State) (c : Nat) (x : Core) : (s.setCore c x).arith = s.arith := rfl
@[simp] theorem State.setCore_unreachable (s : State) (c : Nat) (x : Core) : (s.setCore c x).unreachable = s.unreachable := rfl
@[simp] theorem State.setCore_kept (s : State) (c : Nat) (x : Core) : (s.setCore c x).kept = s.kept := rfl
@[simp] theorem State.setCore_waitPage (s : State) (c : Nat) (x : Core) : (s.setCore c x).waitPage = s.waitPage := rfl
@[simp] theorem State.setCore_probes (s : State) (c : Nat) (x : Core) : (s.setCore c x).probes = s.probes := rfl
@[simp] theorem State.setCore_txE2e (s : State) (c : Nat) (x : Core) : (s.setCore c x).txE2e = s.txE2e := rfl
@[simp] theorem State.setCore_rxE2e (s : State) (c : Nat) (x : Core) : (s.setCore c x).rxE2e = s.rxE2e := rfl
@[simp] theorem State.setCore_log (s : State) (c : Nat) (x : Core) : (s.setCore c x).log = s.log := rfl
@[simp] theorem State.setCore_llc (s : State) (c : Nat) (x : Core) : (s.setCore c x).llc = s.llc := rfl
@[simp] theorem State.setCore_release (s : State) (c : Nat) (x : Core) : (s.setCore c x).release = s.release := rfl
@[simp] theorem State.setCore_conf (s : State) (c : Nat) (x : Core) : (s.setCore c x).conf = s.conf := rfl
@[simp] theorem State.setCore_fabNum (s : State) (c : Nat) (x : Core) : (s.setCore c x).fabNum = s.fabNum := rfl

@[simp] theorem State.setPort_mem (s : State) (c p : Nat) (x : Port) : (s.setPort c p x).mem = s.mem := rfl
@[simp] theorem State.setPort_hostMem (s : State) (c p : Nat) (x : Port) : (s.setPort c p x).hostMem = s.hostMem := rfl
@[simp] theorem State.setPort_peers (s : State) (c p : Nat) (x : Port) : (s.setPort c p x).peers = s.peers := rfl
@[simp] theorem State.setPort_eccBad (s : State) (c p : Nat) (x : Port) : (s.setPort c p x).eccBad = s.eccBad := rfl
@[simp] theorem State.setPort_eccSoft (s : State) (c p : Nat) (x : Port) : (s.setPort c p x).eccSoft = s.eccSoft := rfl
@[simp] theorem State.setPort_tagBad (s : State) (c p : Nat) (x : Port) : (s.setPort c p x).tagBad = s.tagBad := rfl
@[simp] theorem State.setPort_groups (s : State) (c p : Nat) (x : Port) : (s.setPort c p x).groups = s.groups := rfl
@[simp] theorem State.setPort_teams (s : State) (c p : Nat) (x : Port) : (s.setPort c p x).teams = s.teams := rfl
@[simp] theorem State.setPort_ctxs (s : State) (c p : Nat) (x : Port) : (s.setPort c p x).ctxs = s.ctxs := rfl
@[simp] theorem State.setPort_posts (s : State) (c p : Nat) (x : Port) : (s.setPort c p x).posts = s.posts := rfl
@[simp] theorem State.setPort_worlds (s : State) (c p : Nat) (x : Port) : (s.setPort c p x).worlds = s.worlds := rfl
@[simp] theorem State.setPort_cycle (s : State) (c p : Nat) (x : Port) : (s.setPort c p x).cycle = s.cycle := rfl
@[simp] theorem State.setPort_tick (s : State) (c p : Nat) (x : Port) : (s.setPort c p x).tick = s.tick := rfl
@[simp] theorem State.setPort_turn (s : State) (c p : Nat) (x : Port) : (s.setPort c p x).turn = s.turn := rfl
@[simp] theorem State.setPort_agenda (s : State) (c p : Nat) (x : Port) : (s.setPort c p x).agenda = s.agenda := rfl
@[simp] theorem State.setPort_remotes (s : State) (c p : Nat) (x : Port) : (s.setPort c p x).remotes = s.remotes := rfl
@[simp] theorem State.setPort_convs (s : State) (c p : Nat) (x : Port) : (s.setPort c p x).convs = s.convs := rfl
@[simp] theorem State.setPort_queues (s : State) (c p : Nat) (x : Port) : (s.setPort c p x).queues = s.queues := rfl
@[simp] theorem State.setPort_host (s : State) (c p : Nat) (x : Port) : (s.setPort c p x).host = s.host := rfl
@[simp] theorem State.setPort_links (s : State) (c p : Nat) (x : Port) : (s.setPort c p x).links = s.links := rfl
@[simp] theorem State.setPort_conns (s : State) (c p : Nat) (x : Port) : (s.setPort c p x).conns = s.conns := rfl
@[simp] theorem State.setPort_dogs (s : State) (c p : Nat) (x : Port) : (s.setPort c p x).dogs = s.dogs := rfl
@[simp] theorem State.setPort_pubs (s : State) (c p : Nat) (x : Port) : (s.setPort c p x).pubs = s.pubs := rfl
@[simp] theorem State.setPort_tlb (s : State) (c p : Nat) (x : Port) : (s.setPort c p x).tlb = s.tlb := rfl
@[simp] theorem State.setPort_walks (s : State) (c p : Nat) (x : Port) : (s.setPort c p x).walks = s.walks := rfl
@[simp] theorem State.setPort_peerMons (s : State) (c p : Nat) (x : Port) : (s.setPort c p x).peerMons = s.peerMons := rfl
@[simp] theorem State.setPort_udpPort (s : State) (c p : Nat) (x : Port) : (s.setPort c p x).udpPort = s.udpPort := rfl
@[simp] theorem State.setPort_trained (s : State) (c p : Nat) (x : Port) : (s.setPort c p x).trained = s.trained := rfl
@[simp] theorem State.setPort_arith (s : State) (c p : Nat) (x : Port) : (s.setPort c p x).arith = s.arith := rfl
@[simp] theorem State.setPort_unreachable (s : State) (c p : Nat) (x : Port) : (s.setPort c p x).unreachable = s.unreachable := rfl
@[simp] theorem State.setPort_kept (s : State) (c p : Nat) (x : Port) : (s.setPort c p x).kept = s.kept := rfl
@[simp] theorem State.setPort_waitPage (s : State) (c p : Nat) (x : Port) : (s.setPort c p x).waitPage = s.waitPage := rfl
@[simp] theorem State.setPort_probes (s : State) (c p : Nat) (x : Port) : (s.setPort c p x).probes = s.probes := rfl
@[simp] theorem State.setPort_txE2e (s : State) (c p : Nat) (x : Port) : (s.setPort c p x).txE2e = s.txE2e := rfl
@[simp] theorem State.setPort_rxE2e (s : State) (c p : Nat) (x : Port) : (s.setPort c p x).rxE2e = s.rxE2e := rfl
@[simp] theorem State.setPort_log (s : State) (c p : Nat) (x : Port) : (s.setPort c p x).log = s.log := rfl
@[simp] theorem State.setPort_llc (s : State) (c p : Nat) (x : Port) : (s.setPort c p x).llc = s.llc := rfl
@[simp] theorem State.setPort_release (s : State) (c p : Nat) (x : Port) : (s.setPort c p x).release = s.release := rfl
@[simp] theorem State.setPort_conf (s : State) (c p : Nat) (x : Port) : (s.setPort c p x).conf = s.conf := rfl
@[simp] theorem State.setPort_fabNum (s : State) (c p : Nat) (x : Port) : (s.setPort c p x).fabNum = s.fabNum := rfl

@[simp] theorem State.setTeam_mem (s : State) (x : Team) : (s.setTeam x).mem = s.mem := rfl
@[simp] theorem State.setTeam_hostMem (s : State) (x : Team) : (s.setTeam x).hostMem = s.hostMem := rfl
@[simp] theorem State.setTeam_peers (s : State) (x : Team) : (s.setTeam x).peers = s.peers := rfl
@[simp] theorem State.setTeam_eccBad (s : State) (x : Team) : (s.setTeam x).eccBad = s.eccBad := rfl
@[simp] theorem State.setTeam_eccSoft (s : State) (x : Team) : (s.setTeam x).eccSoft = s.eccSoft := rfl
@[simp] theorem State.setTeam_tagBad (s : State) (x : Team) : (s.setTeam x).tagBad = s.tagBad := rfl
@[simp] theorem State.setTeam_cores (s : State) (x : Team) : (s.setTeam x).cores = s.cores := rfl
@[simp] theorem State.setTeam_groups (s : State) (x : Team) : (s.setTeam x).groups = s.groups := rfl
@[simp] theorem State.setTeam_ctxs (s : State) (x : Team) : (s.setTeam x).ctxs = s.ctxs := rfl
@[simp] theorem State.setTeam_posts (s : State) (x : Team) : (s.setTeam x).posts = s.posts := rfl
@[simp] theorem State.setTeam_worlds (s : State) (x : Team) : (s.setTeam x).worlds = s.worlds := rfl
@[simp] theorem State.setTeam_cycle (s : State) (x : Team) : (s.setTeam x).cycle = s.cycle := rfl
@[simp] theorem State.setTeam_tick (s : State) (x : Team) : (s.setTeam x).tick = s.tick := rfl
@[simp] theorem State.setTeam_turn (s : State) (x : Team) : (s.setTeam x).turn = s.turn := rfl
@[simp] theorem State.setTeam_agenda (s : State) (x : Team) : (s.setTeam x).agenda = s.agenda := rfl
@[simp] theorem State.setTeam_remotes (s : State) (x : Team) : (s.setTeam x).remotes = s.remotes := rfl
@[simp] theorem State.setTeam_convs (s : State) (x : Team) : (s.setTeam x).convs = s.convs := rfl
@[simp] theorem State.setTeam_queues (s : State) (x : Team) : (s.setTeam x).queues = s.queues := rfl
@[simp] theorem State.setTeam_host (s : State) (x : Team) : (s.setTeam x).host = s.host := rfl
@[simp] theorem State.setTeam_links (s : State) (x : Team) : (s.setTeam x).links = s.links := rfl
@[simp] theorem State.setTeam_conns (s : State) (x : Team) : (s.setTeam x).conns = s.conns := rfl
@[simp] theorem State.setTeam_dogs (s : State) (x : Team) : (s.setTeam x).dogs = s.dogs := rfl
@[simp] theorem State.setTeam_pubs (s : State) (x : Team) : (s.setTeam x).pubs = s.pubs := rfl
@[simp] theorem State.setTeam_tlb (s : State) (x : Team) : (s.setTeam x).tlb = s.tlb := rfl
@[simp] theorem State.setTeam_walks (s : State) (x : Team) : (s.setTeam x).walks = s.walks := rfl
@[simp] theorem State.setTeam_peerMons (s : State) (x : Team) : (s.setTeam x).peerMons = s.peerMons := rfl
@[simp] theorem State.setTeam_udpPort (s : State) (x : Team) : (s.setTeam x).udpPort = s.udpPort := rfl
@[simp] theorem State.setTeam_trained (s : State) (x : Team) : (s.setTeam x).trained = s.trained := rfl
@[simp] theorem State.setTeam_arith (s : State) (x : Team) : (s.setTeam x).arith = s.arith := rfl
@[simp] theorem State.setTeam_unreachable (s : State) (x : Team) : (s.setTeam x).unreachable = s.unreachable := rfl
@[simp] theorem State.setTeam_kept (s : State) (x : Team) : (s.setTeam x).kept = s.kept := rfl
@[simp] theorem State.setTeam_waitPage (s : State) (x : Team) : (s.setTeam x).waitPage = s.waitPage := rfl
@[simp] theorem State.setTeam_probes (s : State) (x : Team) : (s.setTeam x).probes = s.probes := rfl
@[simp] theorem State.setTeam_txE2e (s : State) (x : Team) : (s.setTeam x).txE2e = s.txE2e := rfl
@[simp] theorem State.setTeam_rxE2e (s : State) (x : Team) : (s.setTeam x).rxE2e = s.rxE2e := rfl
@[simp] theorem State.setTeam_log (s : State) (x : Team) : (s.setTeam x).log = s.log := rfl
@[simp] theorem State.setTeam_llc (s : State) (x : Team) : (s.setTeam x).llc = s.llc := rfl
@[simp] theorem State.setTeam_release (s : State) (x : Team) : (s.setTeam x).release = s.release := rfl
@[simp] theorem State.setTeam_conf (s : State) (x : Team) : (s.setTeam x).conf = s.conf := rfl
@[simp] theorem State.setTeam_fabNum (s : State) (x : Team) : (s.setTeam x).fabNum = s.fabNum := rfl

@[simp] theorem State.setCtx_mem (s : State) (x : Context) : (s.setCtx x).mem = s.mem := rfl
@[simp] theorem State.setCtx_hostMem (s : State) (x : Context) : (s.setCtx x).hostMem = s.hostMem := rfl
@[simp] theorem State.setCtx_peers (s : State) (x : Context) : (s.setCtx x).peers = s.peers := rfl
@[simp] theorem State.setCtx_eccBad (s : State) (x : Context) : (s.setCtx x).eccBad = s.eccBad := rfl
@[simp] theorem State.setCtx_eccSoft (s : State) (x : Context) : (s.setCtx x).eccSoft = s.eccSoft := rfl
@[simp] theorem State.setCtx_tagBad (s : State) (x : Context) : (s.setCtx x).tagBad = s.tagBad := rfl
@[simp] theorem State.setCtx_cores (s : State) (x : Context) : (s.setCtx x).cores = s.cores := rfl
@[simp] theorem State.setCtx_groups (s : State) (x : Context) : (s.setCtx x).groups = s.groups := rfl
@[simp] theorem State.setCtx_teams (s : State) (x : Context) : (s.setCtx x).teams = s.teams := rfl
@[simp] theorem State.setCtx_posts (s : State) (x : Context) : (s.setCtx x).posts = s.posts := rfl
@[simp] theorem State.setCtx_worlds (s : State) (x : Context) : (s.setCtx x).worlds = s.worlds := rfl
@[simp] theorem State.setCtx_cycle (s : State) (x : Context) : (s.setCtx x).cycle = s.cycle := rfl
@[simp] theorem State.setCtx_tick (s : State) (x : Context) : (s.setCtx x).tick = s.tick := rfl
@[simp] theorem State.setCtx_turn (s : State) (x : Context) : (s.setCtx x).turn = s.turn := rfl
@[simp] theorem State.setCtx_agenda (s : State) (x : Context) : (s.setCtx x).agenda = s.agenda := rfl
@[simp] theorem State.setCtx_remotes (s : State) (x : Context) : (s.setCtx x).remotes = s.remotes := rfl
@[simp] theorem State.setCtx_convs (s : State) (x : Context) : (s.setCtx x).convs = s.convs := rfl
@[simp] theorem State.setCtx_queues (s : State) (x : Context) : (s.setCtx x).queues = s.queues := rfl
@[simp] theorem State.setCtx_host (s : State) (x : Context) : (s.setCtx x).host = s.host := rfl
@[simp] theorem State.setCtx_links (s : State) (x : Context) : (s.setCtx x).links = s.links := rfl
@[simp] theorem State.setCtx_conns (s : State) (x : Context) : (s.setCtx x).conns = s.conns := rfl
@[simp] theorem State.setCtx_dogs (s : State) (x : Context) : (s.setCtx x).dogs = s.dogs := rfl
@[simp] theorem State.setCtx_pubs (s : State) (x : Context) : (s.setCtx x).pubs = s.pubs := rfl
@[simp] theorem State.setCtx_tlb (s : State) (x : Context) : (s.setCtx x).tlb = s.tlb := rfl
@[simp] theorem State.setCtx_walks (s : State) (x : Context) : (s.setCtx x).walks = s.walks := rfl
@[simp] theorem State.setCtx_peerMons (s : State) (x : Context) : (s.setCtx x).peerMons = s.peerMons := rfl
@[simp] theorem State.setCtx_udpPort (s : State) (x : Context) : (s.setCtx x).udpPort = s.udpPort := rfl
@[simp] theorem State.setCtx_trained (s : State) (x : Context) : (s.setCtx x).trained = s.trained := rfl
@[simp] theorem State.setCtx_arith (s : State) (x : Context) : (s.setCtx x).arith = s.arith := rfl
@[simp] theorem State.setCtx_unreachable (s : State) (x : Context) : (s.setCtx x).unreachable = s.unreachable := rfl
@[simp] theorem State.setCtx_kept (s : State) (x : Context) : (s.setCtx x).kept = s.kept := rfl
@[simp] theorem State.setCtx_waitPage (s : State) (x : Context) : (s.setCtx x).waitPage = s.waitPage := rfl
@[simp] theorem State.setCtx_probes (s : State) (x : Context) : (s.setCtx x).probes = s.probes := rfl
@[simp] theorem State.setCtx_txE2e (s : State) (x : Context) : (s.setCtx x).txE2e = s.txE2e := rfl
@[simp] theorem State.setCtx_rxE2e (s : State) (x : Context) : (s.setCtx x).rxE2e = s.rxE2e := rfl
@[simp] theorem State.setCtx_log (s : State) (x : Context) : (s.setCtx x).log = s.log := rfl
@[simp] theorem State.setCtx_llc (s : State) (x : Context) : (s.setCtx x).llc = s.llc := rfl
@[simp] theorem State.setCtx_release (s : State) (x : Context) : (s.setCtx x).release = s.release := rfl
@[simp] theorem State.setCtx_conf (s : State) (x : Context) : (s.setCtx x).conf = s.conf := rfl
@[simp] theorem State.setCtx_fabNum (s : State) (x : Context) : (s.setCtx x).fabNum = s.fabNum := rfl

@[simp] theorem State.setWorld_mem (s : State) (w : Nat) (x : World) : (s.setWorld w x).mem = s.mem := rfl
@[simp] theorem State.setWorld_hostMem (s : State) (w : Nat) (x : World) : (s.setWorld w x).hostMem = s.hostMem := rfl
@[simp] theorem State.setWorld_peers (s : State) (w : Nat) (x : World) : (s.setWorld w x).peers = s.peers := rfl
@[simp] theorem State.setWorld_eccBad (s : State) (w : Nat) (x : World) : (s.setWorld w x).eccBad = s.eccBad := rfl
@[simp] theorem State.setWorld_eccSoft (s : State) (w : Nat) (x : World) : (s.setWorld w x).eccSoft = s.eccSoft := rfl
@[simp] theorem State.setWorld_tagBad (s : State) (w : Nat) (x : World) : (s.setWorld w x).tagBad = s.tagBad := rfl
@[simp] theorem State.setWorld_cores (s : State) (w : Nat) (x : World) : (s.setWorld w x).cores = s.cores := rfl
@[simp] theorem State.setWorld_groups (s : State) (w : Nat) (x : World) : (s.setWorld w x).groups = s.groups := rfl
@[simp] theorem State.setWorld_teams (s : State) (w : Nat) (x : World) : (s.setWorld w x).teams = s.teams := rfl
@[simp] theorem State.setWorld_ctxs (s : State) (w : Nat) (x : World) : (s.setWorld w x).ctxs = s.ctxs := rfl
@[simp] theorem State.setWorld_posts (s : State) (w : Nat) (x : World) : (s.setWorld w x).posts = s.posts := rfl
@[simp] theorem State.setWorld_cycle (s : State) (w : Nat) (x : World) : (s.setWorld w x).cycle = s.cycle := rfl
@[simp] theorem State.setWorld_tick (s : State) (w : Nat) (x : World) : (s.setWorld w x).tick = s.tick := rfl
@[simp] theorem State.setWorld_turn (s : State) (w : Nat) (x : World) : (s.setWorld w x).turn = s.turn := rfl
@[simp] theorem State.setWorld_agenda (s : State) (w : Nat) (x : World) : (s.setWorld w x).agenda = s.agenda := rfl
@[simp] theorem State.setWorld_remotes (s : State) (w : Nat) (x : World) : (s.setWorld w x).remotes = s.remotes := rfl
@[simp] theorem State.setWorld_convs (s : State) (w : Nat) (x : World) : (s.setWorld w x).convs = s.convs := rfl
@[simp] theorem State.setWorld_queues (s : State) (w : Nat) (x : World) : (s.setWorld w x).queues = s.queues := rfl
@[simp] theorem State.setWorld_host (s : State) (w : Nat) (x : World) : (s.setWorld w x).host = s.host := rfl
@[simp] theorem State.setWorld_links (s : State) (w : Nat) (x : World) : (s.setWorld w x).links = s.links := rfl
@[simp] theorem State.setWorld_conns (s : State) (w : Nat) (x : World) : (s.setWorld w x).conns = s.conns := rfl
@[simp] theorem State.setWorld_dogs (s : State) (w : Nat) (x : World) : (s.setWorld w x).dogs = s.dogs := rfl
@[simp] theorem State.setWorld_pubs (s : State) (w : Nat) (x : World) : (s.setWorld w x).pubs = s.pubs := rfl
@[simp] theorem State.setWorld_tlb (s : State) (w : Nat) (x : World) : (s.setWorld w x).tlb = s.tlb := rfl
@[simp] theorem State.setWorld_walks (s : State) (w : Nat) (x : World) : (s.setWorld w x).walks = s.walks := rfl
@[simp] theorem State.setWorld_peerMons (s : State) (w : Nat) (x : World) : (s.setWorld w x).peerMons = s.peerMons := rfl
@[simp] theorem State.setWorld_udpPort (s : State) (w : Nat) (x : World) : (s.setWorld w x).udpPort = s.udpPort := rfl
@[simp] theorem State.setWorld_trained (s : State) (w : Nat) (x : World) : (s.setWorld w x).trained = s.trained := rfl
@[simp] theorem State.setWorld_arith (s : State) (w : Nat) (x : World) : (s.setWorld w x).arith = s.arith := rfl
@[simp] theorem State.setWorld_unreachable (s : State) (w : Nat) (x : World) : (s.setWorld w x).unreachable = s.unreachable := rfl
@[simp] theorem State.setWorld_kept (s : State) (w : Nat) (x : World) : (s.setWorld w x).kept = s.kept := rfl
@[simp] theorem State.setWorld_waitPage (s : State) (w : Nat) (x : World) : (s.setWorld w x).waitPage = s.waitPage := rfl
@[simp] theorem State.setWorld_probes (s : State) (w : Nat) (x : World) : (s.setWorld w x).probes = s.probes := rfl
@[simp] theorem State.setWorld_txE2e (s : State) (w : Nat) (x : World) : (s.setWorld w x).txE2e = s.txE2e := rfl
@[simp] theorem State.setWorld_rxE2e (s : State) (w : Nat) (x : World) : (s.setWorld w x).rxE2e = s.rxE2e := rfl
@[simp] theorem State.setWorld_log (s : State) (w : Nat) (x : World) : (s.setWorld w x).log = s.log := rfl
@[simp] theorem State.setWorld_llc (s : State) (w : Nat) (x : World) : (s.setWorld w x).llc = s.llc := rfl
@[simp] theorem State.setWorld_release (s : State) (w : Nat) (x : World) : (s.setWorld w x).release = s.release := rfl
@[simp] theorem State.setWorld_conf (s : State) (w : Nat) (x : World) : (s.setWorld w x).conf = s.conf := rfl
@[simp] theorem State.setWorld_fabNum (s : State) (w : Nat) (x : World) : (s.setWorld w x).fabNum = s.fabNum := rfl

@[simp] theorem State.meter_mem (s : State) (w j n : Nat) : (s.meter w j n).mem = s.mem := rfl
@[simp] theorem State.meter_hostMem (s : State) (w j n : Nat) : (s.meter w j n).hostMem = s.hostMem := rfl
@[simp] theorem State.meter_peers (s : State) (w j n : Nat) : (s.meter w j n).peers = s.peers := rfl
@[simp] theorem State.meter_eccBad (s : State) (w j n : Nat) : (s.meter w j n).eccBad = s.eccBad := rfl
@[simp] theorem State.meter_eccSoft (s : State) (w j n : Nat) : (s.meter w j n).eccSoft = s.eccSoft := rfl
@[simp] theorem State.meter_tagBad (s : State) (w j n : Nat) : (s.meter w j n).tagBad = s.tagBad := rfl
@[simp] theorem State.meter_cores (s : State) (w j n : Nat) : (s.meter w j n).cores = s.cores := rfl
@[simp] theorem State.meter_groups (s : State) (w j n : Nat) : (s.meter w j n).groups = s.groups := rfl
@[simp] theorem State.meter_teams (s : State) (w j n : Nat) : (s.meter w j n).teams = s.teams := rfl
@[simp] theorem State.meter_ctxs (s : State) (w j n : Nat) : (s.meter w j n).ctxs = s.ctxs := rfl
@[simp] theorem State.meter_posts (s : State) (w j n : Nat) : (s.meter w j n).posts = s.posts := rfl
@[simp] theorem State.meter_cycle (s : State) (w j n : Nat) : (s.meter w j n).cycle = s.cycle := rfl
@[simp] theorem State.meter_tick (s : State) (w j n : Nat) : (s.meter w j n).tick = s.tick := rfl
@[simp] theorem State.meter_turn (s : State) (w j n : Nat) : (s.meter w j n).turn = s.turn := rfl
@[simp] theorem State.meter_agenda (s : State) (w j n : Nat) : (s.meter w j n).agenda = s.agenda := rfl
@[simp] theorem State.meter_remotes (s : State) (w j n : Nat) : (s.meter w j n).remotes = s.remotes := rfl
@[simp] theorem State.meter_convs (s : State) (w j n : Nat) : (s.meter w j n).convs = s.convs := rfl
@[simp] theorem State.meter_queues (s : State) (w j n : Nat) : (s.meter w j n).queues = s.queues := rfl
@[simp] theorem State.meter_host (s : State) (w j n : Nat) : (s.meter w j n).host = s.host := rfl
@[simp] theorem State.meter_links (s : State) (w j n : Nat) : (s.meter w j n).links = s.links := rfl
@[simp] theorem State.meter_conns (s : State) (w j n : Nat) : (s.meter w j n).conns = s.conns := rfl
@[simp] theorem State.meter_dogs (s : State) (w j n : Nat) : (s.meter w j n).dogs = s.dogs := rfl
@[simp] theorem State.meter_pubs (s : State) (w j n : Nat) : (s.meter w j n).pubs = s.pubs := rfl
@[simp] theorem State.meter_tlb (s : State) (w j n : Nat) : (s.meter w j n).tlb = s.tlb := rfl
@[simp] theorem State.meter_walks (s : State) (w j n : Nat) : (s.meter w j n).walks = s.walks := rfl
@[simp] theorem State.meter_peerMons (s : State) (w j n : Nat) : (s.meter w j n).peerMons = s.peerMons := rfl
@[simp] theorem State.meter_udpPort (s : State) (w j n : Nat) : (s.meter w j n).udpPort = s.udpPort := rfl
@[simp] theorem State.meter_trained (s : State) (w j n : Nat) : (s.meter w j n).trained = s.trained := rfl
@[simp] theorem State.meter_arith (s : State) (w j n : Nat) : (s.meter w j n).arith = s.arith := rfl
@[simp] theorem State.meter_unreachable (s : State) (w j n : Nat) : (s.meter w j n).unreachable = s.unreachable := rfl
@[simp] theorem State.meter_kept (s : State) (w j n : Nat) : (s.meter w j n).kept = s.kept := rfl
@[simp] theorem State.meter_waitPage (s : State) (w j n : Nat) : (s.meter w j n).waitPage = s.waitPage := rfl
@[simp] theorem State.meter_probes (s : State) (w j n : Nat) : (s.meter w j n).probes = s.probes := rfl
@[simp] theorem State.meter_txE2e (s : State) (w j n : Nat) : (s.meter w j n).txE2e = s.txE2e := rfl
@[simp] theorem State.meter_rxE2e (s : State) (w j n : Nat) : (s.meter w j n).rxE2e = s.rxE2e := rfl
@[simp] theorem State.meter_log (s : State) (w j n : Nat) : (s.meter w j n).log = s.log := rfl
@[simp] theorem State.meter_llc (s : State) (w j n : Nat) : (s.meter w j n).llc = s.llc := rfl
@[simp] theorem State.meter_release (s : State) (w j n : Nat) : (s.meter w j n).release = s.release := rfl
@[simp] theorem State.meter_conf (s : State) (w j n : Nat) : (s.meter w j n).conf = s.conf := rfl
@[simp] theorem State.meter_fabNum (s : State) (w j n : Nat) : (s.meter w j n).fabNum = s.fabNum := rfl

@[simp] theorem State.mapGroups_mem (s : State) (f : Nat → Group → Group) : (s.mapGroups f).mem = s.mem := rfl
@[simp] theorem State.mapGroups_hostMem (s : State) (f : Nat → Group → Group) : (s.mapGroups f).hostMem = s.hostMem := rfl
@[simp] theorem State.mapGroups_peers (s : State) (f : Nat → Group → Group) : (s.mapGroups f).peers = s.peers := rfl
@[simp] theorem State.mapGroups_eccBad (s : State) (f : Nat → Group → Group) : (s.mapGroups f).eccBad = s.eccBad := rfl
@[simp] theorem State.mapGroups_eccSoft (s : State) (f : Nat → Group → Group) : (s.mapGroups f).eccSoft = s.eccSoft := rfl
@[simp] theorem State.mapGroups_tagBad (s : State) (f : Nat → Group → Group) : (s.mapGroups f).tagBad = s.tagBad := rfl
@[simp] theorem State.mapGroups_cores (s : State) (f : Nat → Group → Group) : (s.mapGroups f).cores = s.cores := rfl
@[simp] theorem State.mapGroups_teams (s : State) (f : Nat → Group → Group) : (s.mapGroups f).teams = s.teams := rfl
@[simp] theorem State.mapGroups_ctxs (s : State) (f : Nat → Group → Group) : (s.mapGroups f).ctxs = s.ctxs := rfl
@[simp] theorem State.mapGroups_posts (s : State) (f : Nat → Group → Group) : (s.mapGroups f).posts = s.posts := rfl
@[simp] theorem State.mapGroups_worlds (s : State) (f : Nat → Group → Group) : (s.mapGroups f).worlds = s.worlds := rfl
@[simp] theorem State.mapGroups_cycle (s : State) (f : Nat → Group → Group) : (s.mapGroups f).cycle = s.cycle := rfl
@[simp] theorem State.mapGroups_tick (s : State) (f : Nat → Group → Group) : (s.mapGroups f).tick = s.tick := rfl
@[simp] theorem State.mapGroups_turn (s : State) (f : Nat → Group → Group) : (s.mapGroups f).turn = s.turn := rfl
@[simp] theorem State.mapGroups_agenda (s : State) (f : Nat → Group → Group) : (s.mapGroups f).agenda = s.agenda := rfl
@[simp] theorem State.mapGroups_remotes (s : State) (f : Nat → Group → Group) : (s.mapGroups f).remotes = s.remotes := rfl
@[simp] theorem State.mapGroups_convs (s : State) (f : Nat → Group → Group) : (s.mapGroups f).convs = s.convs := rfl
@[simp] theorem State.mapGroups_queues (s : State) (f : Nat → Group → Group) : (s.mapGroups f).queues = s.queues := rfl
@[simp] theorem State.mapGroups_host (s : State) (f : Nat → Group → Group) : (s.mapGroups f).host = s.host := rfl
@[simp] theorem State.mapGroups_links (s : State) (f : Nat → Group → Group) : (s.mapGroups f).links = s.links := rfl
@[simp] theorem State.mapGroups_conns (s : State) (f : Nat → Group → Group) : (s.mapGroups f).conns = s.conns := rfl
@[simp] theorem State.mapGroups_dogs (s : State) (f : Nat → Group → Group) : (s.mapGroups f).dogs = s.dogs := rfl
@[simp] theorem State.mapGroups_pubs (s : State) (f : Nat → Group → Group) : (s.mapGroups f).pubs = s.pubs := rfl
@[simp] theorem State.mapGroups_tlb (s : State) (f : Nat → Group → Group) : (s.mapGroups f).tlb = s.tlb := rfl
@[simp] theorem State.mapGroups_walks (s : State) (f : Nat → Group → Group) : (s.mapGroups f).walks = s.walks := rfl
@[simp] theorem State.mapGroups_peerMons (s : State) (f : Nat → Group → Group) : (s.mapGroups f).peerMons = s.peerMons := rfl
@[simp] theorem State.mapGroups_udpPort (s : State) (f : Nat → Group → Group) : (s.mapGroups f).udpPort = s.udpPort := rfl
@[simp] theorem State.mapGroups_trained (s : State) (f : Nat → Group → Group) : (s.mapGroups f).trained = s.trained := rfl
@[simp] theorem State.mapGroups_arith (s : State) (f : Nat → Group → Group) : (s.mapGroups f).arith = s.arith := rfl
@[simp] theorem State.mapGroups_unreachable (s : State) (f : Nat → Group → Group) : (s.mapGroups f).unreachable = s.unreachable := rfl
@[simp] theorem State.mapGroups_kept (s : State) (f : Nat → Group → Group) : (s.mapGroups f).kept = s.kept := rfl
@[simp] theorem State.mapGroups_waitPage (s : State) (f : Nat → Group → Group) : (s.mapGroups f).waitPage = s.waitPage := rfl
@[simp] theorem State.mapGroups_probes (s : State) (f : Nat → Group → Group) : (s.mapGroups f).probes = s.probes := rfl
@[simp] theorem State.mapGroups_txE2e (s : State) (f : Nat → Group → Group) : (s.mapGroups f).txE2e = s.txE2e := rfl
@[simp] theorem State.mapGroups_rxE2e (s : State) (f : Nat → Group → Group) : (s.mapGroups f).rxE2e = s.rxE2e := rfl
@[simp] theorem State.mapGroups_log (s : State) (f : Nat → Group → Group) : (s.mapGroups f).log = s.log := rfl
@[simp] theorem State.mapGroups_llc (s : State) (f : Nat → Group → Group) : (s.mapGroups f).llc = s.llc := rfl
@[simp] theorem State.mapGroups_release (s : State) (f : Nat → Group → Group) : (s.mapGroups f).release = s.release := rfl
@[simp] theorem State.mapGroups_conf (s : State) (f : Nat → Group → Group) : (s.mapGroups f).conf = s.conf := rfl
@[simp] theorem State.mapGroups_fabNum (s : State) (f : Nat → Group → Group) : (s.mapGroups f).fabNum = s.fabNum := rfl

/-! ## Groups -/

theorem findGroup_putGroup {gs : List (Nat × Group)} {k : Nat} {g : Group} (g' : Group) (h : findGroup gs k = some g) :
    findGroup (putGroup gs k g') k = some g' := by
  induction gs with
  | nil => cases h
  | cons p r ih =>
    obtain ⟨a, x⟩ := p
    by_cases e : a = k
    · simp [putGroup, findGroup, e]
    · simp only [findGroup, e, if_false] at h
      simp [putGroup, findGroup, e, ih h]

theorem findGroup_putGroup_ne (gs : List (Nat × Group)) {k k' : Nat} (g' : Group) (h : k' ≠ k) :
    findGroup (putGroup gs k g') k' = findGroup gs k' := by
  induction gs with
  | nil => rfl
  | cons p r ih =>
    obtain ⟨a, x⟩ := p
    by_cases e : a = k
    · subst e
      simp [putGroup, findGroup, Ne.symm h]
    · by_cases e' : a = k'
      · subst e'; simp [putGroup, findGroup, e]
      · simp [putGroup, findGroup, e, e', ih]

/-- A resident group that is replaced reads back. -/
theorem State.group?_setGroup {s : State} {k : Nat} {g : Group} (g' : Group) (h : s.group? k = some g) :
    (s.setGroup k g').group? k = some g' := findGroup_putGroup g' h

/-- Replacing a group leaves every other. -/
theorem State.group?_setGroup_ne (s : State) {k k' : Nat} (g' : Group) (h : k' ≠ k) :
    (s.setGroup k g').group? k' = s.group? k' := findGroup_putGroup_ne s.groups g' h

@[simp] theorem State.group?_addPosts (s : State) (ps : List Posting) (k : Nat) : (s.addPosts ps).group? k = s.group? k := rfl
@[simp] theorem State.group?_setPort (s : State) (c p : Nat) (x : Port) (k : Nat) : (s.setPort c p x).group? k = s.group? k := rfl
@[simp] theorem State.group?_setCore (s : State) (c : Nat) (x : Core) (k : Nat) : (s.setCore c x).group? k = s.group? k := rfl
@[simp] theorem State.group?_setTeam (s : State) (x : Team) (k : Nat) : (s.setTeam x).group? k = s.group? k := rfl
@[simp] theorem State.group?_setCtx (s : State) (x : Context) (k : Nat) : (s.setCtx x).group? k = s.group? k := rfl
@[simp] theorem State.group?_meter (s : State) (w j n k : Nat) : (s.meter w j n).group? k = s.group? k := rfl

@[simp] theorem State.core_setGroup (s : State) (k : Nat) (g : Group) (c : Nat) : (s.setGroup k g).core c = s.core c := rfl
@[simp] theorem State.core_addPosts (s : State) (ps : List Posting) (c : Nat) : (s.addPosts ps).core c = s.core c := rfl
@[simp] theorem State.core_meter (s : State) (w j n c : Nat) : (s.meter w j n).core c = s.core c := rfl
@[simp] theorem State.core_setTeam (s : State) (x : Team) (c : Nat) : (s.setTeam x).core c = s.core c := rfl
@[simp] theorem State.core_setCtx (s : State) (x : Context) (c : Nat) : (s.setCtx x).core c = s.core c := rfl

/-- A core that is replaced reads back. -/
theorem State.core_setCore (s : State) (c c' : Nat) (x : Core) :
    (s.setCore c x).core c' = if c' = c ∧ c < s.cores.length then x else s.core c' := by
  simp only [State.core, State.setCore, List.getD_eq_getElem?_getD, List.getElem?_set]
  by_cases h : c = c'
  · subst h
    by_cases h2 : c < s.cores.length <;> simp [h2]
  · simp [h, Ne.symm h]

/-! ## Lanes and registers of a group -/

/-- Every lane of a changed group. -/
theorem Group.lane_mapLanes (g : Group) (f : Nat → Lane → Lane) {l : Nat} (h : l < 32) :
    (g.mapLanes f).lane l = f l (g.lane l) := by
  simp [Group.mapLanes, Group.lane, lanes32, List.getD_eq_getElem?_getD, h]

theorem Group.lane_onLanes (g : Group) (m : LaneSet) (f : Nat → Lane → Lane) {l : Nat} (h : l < 32) :
    (g.onLanes m f).lane l = if inSet m l then f l (g.lane l) else g.lane l := by
  unfold Group.onLanes
  rw [Group.lane_mapLanes _ _ h]

theorem inSet_lt {m : LaneSet} {l : Nat} (h : inSet m l = true) : l < 32 := by
  unfold inSet at h
  by_contra hl
  rw [Nat.testBit_lt_two_pow (lt_of_lt_of_le m.isLt (Nat.pow_le_pow_right (by norm_num) (by omega)))] at h
  cases h

theorem inSet_eq (m : LaneSet) (l : Nat) : inSet m l = m.getLsbD l := rfl

theorem inSet_and (m n : LaneSet) (l : Nat) : inSet (m &&& n) l = (inSet m l && inSet n l) := by
  simp [inSet_eq]

theorem inSet_or (m n : LaneSet) (l : Nat) : inSet (m ||| n) l = (inSet m l || inSet n l) := by
  simp [inSet_eq]

theorem inSet_not (m : LaneSet) {l : Nat} (h : l < 32) : inSet (~~~ m) l = !inSet m l := by
  simp [inSet_eq, h]

theorem inSet_zero (l : Nat) : inSet 0 l = false := by simp [inSet_eq]

theorem inSet_ones {l : Nat} (h : l < 32) : inSet (BitVec.allOnes 32) l = true := by
  rw [inSet_eq, BitVec.getLsbD_allOnes]; simp [h]

/-- The set of the lanes that satisfy a predicate holds just those. -/
theorem inSet_laneSet (p : Nat → Bool) {l : Nat} (h : l < 32) : inSet (laneSet p) l = p l := by
  unfold inSet laneSet
  have gen : ∀ n, n ≤ 32 →
      ((List.range n).foldl (fun a l => if p l then a + 2 ^ l else a) 0 < 2 ^ n) ∧
      ∀ k, ((List.range n).foldl (fun a l => if p l then a + 2 ^ l else a) 0).testBit k = (decide (k < n) && p k) := by
    intro n
    induction n with
    | zero => intro _; simp
    | succ n ih =>
      intro hn
      obtain ⟨h1, h2⟩ := ih (by omega)
      rw [List.range_succ, List.foldl_append]
      simp only [List.foldl_cons, List.foldl_nil]
      generalize (List.range n).foldl (fun a l => if p l then a + 2 ^ l else a) 0 = x at h1 h2
      have e : (2 : Nat) ^ (n + 1) = 2 ^ n + 2 ^ n := by ring
      by_cases hp : p n = true
      · simp only [hp, if_true]
        refine ⟨by omega, fun k => ?_⟩
        rw [Nat.add_comm]
        rcases Nat.lt_trichotomy k n with hk | hk | hk
        · rw [Nat.testBit_two_pow_add_gt hk, h2]
          simp [hk, Nat.lt_succ_of_lt hk]
        · subst hk
          rw [Nat.testBit_two_pow_add_eq, h2]
          simp [hp]
        · have : ¬ k < n + 1 := by omega
          simp only [this, decide_false, Bool.false_and]
          exact Nat.testBit_lt_two_pow (lt_of_lt_of_le (show 2 ^ n + x < 2 ^ (n + 1) by omega)
            (Nat.pow_le_pow_right (by norm_num) (by omega)))
      · simp only [hp, Bool.false_eq_true, if_false]
        refine ⟨by omega, fun k => ?_⟩
        rw [h2]
        by_cases hk : k = n
        · subst hk; simp [hp]
        · by_cases h3 : k < n
          · simp [h3, Nat.lt_succ_of_lt h3]
          · have : ¬ k < n + 1 := by omega
            simp [h3, this]
  obtain ⟨h1, h2⟩ := gen 32 (le_refl _)
  rw [BitVec.toNat_ofNat, Nat.mod_eq_of_lt h1, h2]
  simp [h]

theorem mem_lanesOf {m : LaneSet} {l : Nat} : l ∈ lanesOf m ↔ inSet m l = true := by
  unfold lanesOf inSet
  rw [List.mem_filter, List.mem_range]
  exact ⟨fun h => h.2, fun h => ⟨inSet_lt h, h⟩⟩

/-! ## Registers of a group -/

@[simp] theorem Group.vset_gid (g : Group) (r : Nat) (m : LaneSet) (f : Nat → BitVec 64) : (g.vset r m f).gid = g.gid := rfl
@[simp] theorem Group.vset_team (g : Group) (r : Nat) (m : LaneSet) (f : Nat → BitVec 64) : (g.vset r m f).team = g.team := rfl
@[simp] theorem Group.vset_budget (g : Group) (r : Nat) (m : LaneSet) (f : Nat → BitVec 64) : (g.vset r m f).budget = g.budget := rfl
@[simp] theorem Group.vset_budgetNext (g : Group) (r : Nat) (m : LaneSet) (f : Nat → BitVec 64) : (g.vset r m f).budgetNext = g.budgetNext := rfl
@[simp] theorem Group.vset_g (g : Group) (r : Nat) (m : LaneSet) (f : Nat → BitVec 64) : (g.vset r m f).g = g.g := rfl
@[simp] theorem Group.vset_k (g : Group) (r : Nat) (m : LaneSet) (f : Nat → BitVec 64) : (g.vset r m f).k = g.k := rfl
@[simp] theorem Group.vset_j (g : Group) (r : Nat) (m : LaneSet) (f : Nat → BitVec 64) : (g.vset r m f).j = g.j := rfl
@[simp] theorem Group.vset_cv (g : Group) (r : Nat) (m : LaneSet) (f : Nat → BitVec 64) : (g.vset r m f).cv = g.cv := rfl
@[simp] theorem Group.vset_fmode (g : Group) (r : Nat) (m : LaneSet) (f : Nat → BitVec 64) : (g.vset r m f).fmode = g.fmode := rfl
@[simp] theorem Group.vset_fmodeNext (g : Group) (r : Nat) (m : LaneSet) (f : Nat → BitVec 64) : (g.vset r m f).fmodeNext = g.fmodeNext := rfl
@[simp] theorem Group.vset_fflags (g : Group) (r : Nat) (m : LaneSet) (f : Nat → BitVec 64) : (g.vset r m f).fflags = g.fflags := rfl
@[simp] theorem Group.vset_csrd (g : Group) (r : Nat) (m : LaneSet) (f : Nat → BitVec 64) : (g.vset r m f).csrd = g.csrd := rfl
@[simp] theorem Group.vset_tmask (g : Group) (r : Nat) (m : LaneSet) (f : Nat → BitVec 64) : (g.vset r m f).tmask = g.tmask := rfl
@[simp] theorem Group.vset_trapv (g : Group) (r : Nat) (m : LaneSet) (f : Nat → BitVec 64) : (g.vset r m f).trapv = g.trapv := rfl
@[simp] theorem Group.vset_mon (g : Group) (r : Nat) (m : LaneSet) (f : Nat → BitVec 64) : (g.vset r m f).mon = g.mon := rfl
@[simp] theorem Group.vset_actSel (g : Group) (r : Nat) (m : LaneSet) (f : Nat → BitVec 64) : (g.vset r m f).actSel = g.actSel := rfl
@[simp] theorem Group.vset_plateErr (g : Group) (r : Nat) (m : LaneSet) (f : Nat → BitVec 64) : (g.vset r m f).plateErr = g.plateErr := rfl
@[simp] theorem Group.vset_halted (g : Group) (r : Nat) (m : LaneSet) (f : Nat → BitVec 64) : (g.vset r m f).halted = g.halted := rfl
@[simp] theorem Group.vset_haltReq (g : Group) (r : Nat) (m : LaneSet) (f : Nat → BitVec 64) : (g.vset r m f).haltReq = g.haltReq := rfl
@[simp] theorem Group.vset_saveReq (g : Group) (r : Nat) (m : LaneSet) (f : Nat → BitVec 64) : (g.vset r m f).saveReq = g.saveReq := rfl
@[simp] theorem Group.vset_errReq (g : Group) (r : Nat) (m : LaneSet) (f : Nat → BitVec 64) : (g.vset r m f).errReq = g.errReq := rfl
@[simp] theorem Group.vset_buf (g : Group) (r : Nat) (m : LaneSet) (f : Nat → BitVec 64) : (g.vset r m f).buf = g.buf := rfl
@[simp] theorem Group.vset_awaits (g : Group) (r : Nat) (m : LaneSet) (f : Nat → BitVec 64) : (g.vset r m f).awaits = g.awaits := rfl
@[simp] theorem Group.vset_lanes (g : Group) (r : Nat) (m : LaneSet) (f : Nat → BitVec 64) : (g.vset r m f).lanes = g.lanes := rfl

@[simp] theorem Group.gset_gid (g : Group) (n : Nat) (x : BitVec 64) : (g.gset n x).gid = g.gid := rfl
@[simp] theorem Group.gset_team (g : Group) (n : Nat) (x : BitVec 64) : (g.gset n x).team = g.team := rfl
@[simp] theorem Group.gset_budget (g : Group) (n : Nat) (x : BitVec 64) : (g.gset n x).budget = g.budget := rfl
@[simp] theorem Group.gset_budgetNext (g : Group) (n : Nat) (x : BitVec 64) : (g.gset n x).budgetNext = g.budgetNext := rfl
@[simp] theorem Group.gset_v (g : Group) (n : Nat) (x : BitVec 64) : (g.gset n x).v = g.v := rfl
@[simp] theorem Group.gset_k (g : Group) (n : Nat) (x : BitVec 64) : (g.gset n x).k = g.k := rfl
@[simp] theorem Group.gset_j (g : Group) (n : Nat) (x : BitVec 64) : (g.gset n x).j = g.j := rfl
@[simp] theorem Group.gset_cv (g : Group) (n : Nat) (x : BitVec 64) : (g.gset n x).cv = g.cv := rfl
@[simp] theorem Group.gset_fmode (g : Group) (n : Nat) (x : BitVec 64) : (g.gset n x).fmode = g.fmode := rfl
@[simp] theorem Group.gset_fmodeNext (g : Group) (n : Nat) (x : BitVec 64) : (g.gset n x).fmodeNext = g.fmodeNext := rfl
@[simp] theorem Group.gset_fflags (g : Group) (n : Nat) (x : BitVec 64) : (g.gset n x).fflags = g.fflags := rfl
@[simp] theorem Group.gset_csrd (g : Group) (n : Nat) (x : BitVec 64) : (g.gset n x).csrd = g.csrd.filter fun w => w.reg != n := rfl
@[simp] theorem Group.gset_tmask (g : Group) (n : Nat) (x : BitVec 64) : (g.gset n x).tmask = g.tmask := rfl
@[simp] theorem Group.gset_trapv (g : Group) (n : Nat) (x : BitVec 64) : (g.gset n x).trapv = g.trapv := rfl
@[simp] theorem Group.gset_mon (g : Group) (n : Nat) (x : BitVec 64) : (g.gset n x).mon = g.mon := rfl
@[simp] theorem Group.gset_actSel (g : Group) (n : Nat) (x : BitVec 64) : (g.gset n x).actSel = g.actSel := rfl
@[simp] theorem Group.gset_plateErr (g : Group) (n : Nat) (x : BitVec 64) : (g.gset n x).plateErr = g.plateErr := rfl
@[simp] theorem Group.gset_halted (g : Group) (n : Nat) (x : BitVec 64) : (g.gset n x).halted = g.halted := rfl
@[simp] theorem Group.gset_haltReq (g : Group) (n : Nat) (x : BitVec 64) : (g.gset n x).haltReq = g.haltReq := rfl
@[simp] theorem Group.gset_saveReq (g : Group) (n : Nat) (x : BitVec 64) : (g.gset n x).saveReq = g.saveReq := rfl
@[simp] theorem Group.gset_errReq (g : Group) (n : Nat) (x : BitVec 64) : (g.gset n x).errReq = g.errReq := rfl
@[simp] theorem Group.gset_buf (g : Group) (n : Nat) (x : BitVec 64) : (g.gset n x).buf = g.buf := rfl
@[simp] theorem Group.gset_awaits (g : Group) (n : Nat) (x : BitVec 64) : (g.gset n x).awaits = g.awaits := rfl
@[simp] theorem Group.gset_lanes (g : Group) (n : Nat) (x : BitVec 64) : (g.gset n x).lanes = g.lanes := rfl

@[simp] theorem Group.jset_gid (g : Group) (n : Nat) (x : LaneSet) : (g.jset n x).gid = g.gid := rfl
@[simp] theorem Group.jset_team (g : Group) (n : Nat) (x : LaneSet) : (g.jset n x).team = g.team := rfl
@[simp] theorem Group.jset_budget (g : Group) (n : Nat) (x : LaneSet) : (g.jset n x).budget = g.budget := rfl
@[simp] theorem Group.jset_budgetNext (g : Group) (n : Nat) (x : LaneSet) : (g.jset n x).budgetNext = g.budgetNext := rfl
@[simp] theorem Group.jset_v (g : Group) (n : Nat) (x : LaneSet) : (g.jset n x).v = g.v := rfl
@[simp] theorem Group.jset_g (g : Group) (n : Nat) (x : LaneSet) : (g.jset n x).g = g.g := rfl
@[simp] theorem Group.jset_k (g : Group) (n : Nat) (x : LaneSet) : (g.jset n x).k = g.k := rfl
@[simp] theorem Group.jset_cv (g : Group) (n : Nat) (x : LaneSet) : (g.jset n x).cv = g.cv := rfl
@[simp] theorem Group.jset_fmode (g : Group) (n : Nat) (x : LaneSet) : (g.jset n x).fmode = g.fmode := rfl
@[simp] theorem Group.jset_fmodeNext (g : Group) (n : Nat) (x : LaneSet) : (g.jset n x).fmodeNext = g.fmodeNext := rfl
@[simp] theorem Group.jset_fflags (g : Group) (n : Nat) (x : LaneSet) : (g.jset n x).fflags = g.fflags := rfl
@[simp] theorem Group.jset_csrd (g : Group) (n : Nat) (x : LaneSet) : (g.jset n x).csrd = g.csrd := rfl
@[simp] theorem Group.jset_tmask (g : Group) (n : Nat) (x : LaneSet) : (g.jset n x).tmask = g.tmask := rfl
@[simp] theorem Group.jset_trapv (g : Group) (n : Nat) (x : LaneSet) : (g.jset n x).trapv = g.trapv := rfl
@[simp] theorem Group.jset_mon (g : Group) (n : Nat) (x : LaneSet) : (g.jset n x).mon = g.mon := rfl
@[simp] theorem Group.jset_actSel (g : Group) (n : Nat) (x : LaneSet) : (g.jset n x).actSel = g.actSel := rfl
@[simp] theorem Group.jset_plateErr (g : Group) (n : Nat) (x : LaneSet) : (g.jset n x).plateErr = g.plateErr := rfl
@[simp] theorem Group.jset_halted (g : Group) (n : Nat) (x : LaneSet) : (g.jset n x).halted = g.halted := rfl
@[simp] theorem Group.jset_haltReq (g : Group) (n : Nat) (x : LaneSet) : (g.jset n x).haltReq = g.haltReq := rfl
@[simp] theorem Group.jset_saveReq (g : Group) (n : Nat) (x : LaneSet) : (g.jset n x).saveReq = g.saveReq := rfl
@[simp] theorem Group.jset_errReq (g : Group) (n : Nat) (x : LaneSet) : (g.jset n x).errReq = g.errReq := rfl
@[simp] theorem Group.jset_buf (g : Group) (n : Nat) (x : LaneSet) : (g.jset n x).buf = g.buf := rfl
@[simp] theorem Group.jset_awaits (g : Group) (n : Nat) (x : LaneSet) : (g.jset n x).awaits = g.awaits := rfl
@[simp] theorem Group.jset_lanes (g : Group) (n : Nat) (x : LaneSet) : (g.jset n x).lanes = g.lanes := rfl

@[simp] theorem Group.cvset_gid (g : Group) (n : Nat) (x : BitVec 64) : (g.cvset n x).gid = g.gid := rfl
@[simp] theorem Group.cvset_team (g : Group) (n : Nat) (x : BitVec 64) : (g.cvset n x).team = g.team := rfl
@[simp] theorem Group.cvset_budget (g : Group) (n : Nat) (x : BitVec 64) : (g.cvset n x).budget = g.budget := rfl
@[simp] theorem Group.cvset_budgetNext (g : Group) (n : Nat) (x : BitVec 64) : (g.cvset n x).budgetNext = g.budgetNext := rfl
@[simp] theorem Group.cvset_v (g : Group) (n : Nat) (x : BitVec 64) : (g.cvset n x).v = g.v := rfl
@[simp] theorem Group.cvset_g (g : Group) (n : Nat) (x : BitVec 64) : (g.cvset n x).g = g.g := rfl
@[simp] theorem Group.cvset_k (g : Group) (n : Nat) (x : BitVec 64) : (g.cvset n x).k = g.k := rfl
@[simp] theorem Group.cvset_j (g : Group) (n : Nat) (x : BitVec 64) : (g.cvset n x).j = g.j := rfl
@[simp] theorem Group.cvset_fmode (g : Group) (n : Nat) (x : BitVec 64) : (g.cvset n x).fmode = g.fmode := rfl
@[simp] theorem Group.cvset_fmodeNext (g : Group) (n : Nat) (x : BitVec 64) : (g.cvset n x).fmodeNext = g.fmodeNext := rfl
@[simp] theorem Group.cvset_fflags (g : Group) (n : Nat) (x : BitVec 64) : (g.cvset n x).fflags = g.fflags := rfl
@[simp] theorem Group.cvset_csrd (g : Group) (n : Nat) (x : BitVec 64) : (g.cvset n x).csrd = g.csrd := rfl
@[simp] theorem Group.cvset_tmask (g : Group) (n : Nat) (x : BitVec 64) : (g.cvset n x).tmask = g.tmask := rfl
@[simp] theorem Group.cvset_trapv (g : Group) (n : Nat) (x : BitVec 64) : (g.cvset n x).trapv = g.trapv := rfl
@[simp] theorem Group.cvset_mon (g : Group) (n : Nat) (x : BitVec 64) : (g.cvset n x).mon = g.mon := rfl
@[simp] theorem Group.cvset_actSel (g : Group) (n : Nat) (x : BitVec 64) : (g.cvset n x).actSel = g.actSel := rfl
@[simp] theorem Group.cvset_plateErr (g : Group) (n : Nat) (x : BitVec 64) : (g.cvset n x).plateErr = g.plateErr := rfl
@[simp] theorem Group.cvset_halted (g : Group) (n : Nat) (x : BitVec 64) : (g.cvset n x).halted = g.halted := rfl
@[simp] theorem Group.cvset_haltReq (g : Group) (n : Nat) (x : BitVec 64) : (g.cvset n x).haltReq = g.haltReq := rfl
@[simp] theorem Group.cvset_saveReq (g : Group) (n : Nat) (x : BitVec 64) : (g.cvset n x).saveReq = g.saveReq := rfl
@[simp] theorem Group.cvset_errReq (g : Group) (n : Nat) (x : BitVec 64) : (g.cvset n x).errReq = g.errReq := rfl
@[simp] theorem Group.cvset_buf (g : Group) (n : Nat) (x : BitVec 64) : (g.cvset n x).buf = g.buf := rfl
@[simp] theorem Group.cvset_awaits (g : Group) (n : Nat) (x : BitVec 64) : (g.cvset n x).awaits = g.awaits := rfl
@[simp] theorem Group.cvset_lanes (g : Group) (n : Nat) (x : BitVec 64) : (g.cvset n x).lanes = g.lanes := rfl

@[simp] theorem Group.mapLanes_gid (g : Group) (f : Nat → Lane → Lane) : (g.mapLanes f).gid = g.gid := rfl
@[simp] theorem Group.mapLanes_team (g : Group) (f : Nat → Lane → Lane) : (g.mapLanes f).team = g.team := rfl
@[simp] theorem Group.mapLanes_budget (g : Group) (f : Nat → Lane → Lane) : (g.mapLanes f).budget = g.budget := rfl
@[simp] theorem Group.mapLanes_budgetNext (g : Group) (f : Nat → Lane → Lane) : (g.mapLanes f).budgetNext = g.budgetNext := rfl
@[simp] theorem Group.mapLanes_v (g : Group) (f : Nat → Lane → Lane) : (g.mapLanes f).v = g.v := rfl
@[simp] theorem Group.mapLanes_g (g : Group) (f : Nat → Lane → Lane) : (g.mapLanes f).g = g.g := rfl
@[simp] theorem Group.mapLanes_k (g : Group) (f : Nat → Lane → Lane) : (g.mapLanes f).k = g.k := rfl
@[simp] theorem Group.mapLanes_j (g : Group) (f : Nat → Lane → Lane) : (g.mapLanes f).j = g.j := rfl
@[simp] theorem Group.mapLanes_cv (g : Group) (f : Nat → Lane → Lane) : (g.mapLanes f).cv = g.cv := rfl
@[simp] theorem Group.mapLanes_fmode (g : Group) (f : Nat → Lane → Lane) : (g.mapLanes f).fmode = g.fmode := rfl
@[simp] theorem Group.mapLanes_fmodeNext (g : Group) (f : Nat → Lane → Lane) : (g.mapLanes f).fmodeNext = g.fmodeNext := rfl
@[simp] theorem Group.mapLanes_fflags (g : Group) (f : Nat → Lane → Lane) : (g.mapLanes f).fflags = g.fflags := rfl
@[simp] theorem Group.mapLanes_csrd (g : Group) (f : Nat → Lane → Lane) : (g.mapLanes f).csrd = g.csrd := rfl
@[simp] theorem Group.mapLanes_tmask (g : Group) (f : Nat → Lane → Lane) : (g.mapLanes f).tmask = g.tmask := rfl
@[simp] theorem Group.mapLanes_trapv (g : Group) (f : Nat → Lane → Lane) : (g.mapLanes f).trapv = g.trapv := rfl
@[simp] theorem Group.mapLanes_mon (g : Group) (f : Nat → Lane → Lane) : (g.mapLanes f).mon = g.mon := rfl
@[simp] theorem Group.mapLanes_actSel (g : Group) (f : Nat → Lane → Lane) : (g.mapLanes f).actSel = g.actSel := rfl
@[simp] theorem Group.mapLanes_plateErr (g : Group) (f : Nat → Lane → Lane) : (g.mapLanes f).plateErr = g.plateErr := rfl
@[simp] theorem Group.mapLanes_halted (g : Group) (f : Nat → Lane → Lane) : (g.mapLanes f).halted = g.halted := rfl
@[simp] theorem Group.mapLanes_haltReq (g : Group) (f : Nat → Lane → Lane) : (g.mapLanes f).haltReq = g.haltReq := rfl
@[simp] theorem Group.mapLanes_saveReq (g : Group) (f : Nat → Lane → Lane) : (g.mapLanes f).saveReq = g.saveReq := rfl
@[simp] theorem Group.mapLanes_errReq (g : Group) (f : Nat → Lane → Lane) : (g.mapLanes f).errReq = g.errReq := rfl
@[simp] theorem Group.mapLanes_buf (g : Group) (f : Nat → Lane → Lane) : (g.mapLanes f).buf = g.buf := rfl
@[simp] theorem Group.mapLanes_awaits (g : Group) (f : Nat → Lane → Lane) : (g.mapLanes f).awaits = g.awaits := rfl

@[simp] theorem Group.onLanes_gid (g : Group) (m : LaneSet) (f : Nat → Lane → Lane) : (g.onLanes m f).gid = g.gid := rfl
@[simp] theorem Group.onLanes_team (g : Group) (m : LaneSet) (f : Nat → Lane → Lane) : (g.onLanes m f).team = g.team := rfl
@[simp] theorem Group.onLanes_budget (g : Group) (m : LaneSet) (f : Nat → Lane → Lane) : (g.onLanes m f).budget = g.budget := rfl
@[simp] theorem Group.onLanes_budgetNext (g : Group) (m : LaneSet) (f : Nat → Lane → Lane) : (g.onLanes m f).budgetNext = g.budgetNext := rfl
@[simp] theorem Group.onLanes_v (g : Group) (m : LaneSet) (f : Nat → Lane → Lane) : (g.onLanes m f).v = g.v := rfl
@[simp] theorem Group.onLanes_g (g : Group) (m : LaneSet) (f : Nat → Lane → Lane) : (g.onLanes m f).g = g.g := rfl
@[simp] theorem Group.onLanes_k (g : Group) (m : LaneSet) (f : Nat → Lane → Lane) : (g.onLanes m f).k = g.k := rfl
@[simp] theorem Group.onLanes_j (g : Group) (m : LaneSet) (f : Nat → Lane → Lane) : (g.onLanes m f).j = g.j := rfl
@[simp] theorem Group.onLanes_cv (g : Group) (m : LaneSet) (f : Nat → Lane → Lane) : (g.onLanes m f).cv = g.cv := rfl
@[simp] theorem Group.onLanes_fmode (g : Group) (m : LaneSet) (f : Nat → Lane → Lane) : (g.onLanes m f).fmode = g.fmode := rfl
@[simp] theorem Group.onLanes_fmodeNext (g : Group) (m : LaneSet) (f : Nat → Lane → Lane) : (g.onLanes m f).fmodeNext = g.fmodeNext := rfl
@[simp] theorem Group.onLanes_fflags (g : Group) (m : LaneSet) (f : Nat → Lane → Lane) : (g.onLanes m f).fflags = g.fflags := rfl
@[simp] theorem Group.onLanes_csrd (g : Group) (m : LaneSet) (f : Nat → Lane → Lane) : (g.onLanes m f).csrd = g.csrd := rfl
@[simp] theorem Group.onLanes_tmask (g : Group) (m : LaneSet) (f : Nat → Lane → Lane) : (g.onLanes m f).tmask = g.tmask := rfl
@[simp] theorem Group.onLanes_trapv (g : Group) (m : LaneSet) (f : Nat → Lane → Lane) : (g.onLanes m f).trapv = g.trapv := rfl
@[simp] theorem Group.onLanes_mon (g : Group) (m : LaneSet) (f : Nat → Lane → Lane) : (g.onLanes m f).mon = g.mon := rfl
@[simp] theorem Group.onLanes_actSel (g : Group) (m : LaneSet) (f : Nat → Lane → Lane) : (g.onLanes m f).actSel = g.actSel := rfl
@[simp] theorem Group.onLanes_plateErr (g : Group) (m : LaneSet) (f : Nat → Lane → Lane) : (g.onLanes m f).plateErr = g.plateErr := rfl
@[simp] theorem Group.onLanes_halted (g : Group) (m : LaneSet) (f : Nat → Lane → Lane) : (g.onLanes m f).halted = g.halted := rfl
@[simp] theorem Group.onLanes_haltReq (g : Group) (m : LaneSet) (f : Nat → Lane → Lane) : (g.onLanes m f).haltReq = g.haltReq := rfl
@[simp] theorem Group.onLanes_saveReq (g : Group) (m : LaneSet) (f : Nat → Lane → Lane) : (g.onLanes m f).saveReq = g.saveReq := rfl
@[simp] theorem Group.onLanes_errReq (g : Group) (m : LaneSet) (f : Nat → Lane → Lane) : (g.onLanes m f).errReq = g.errReq := rfl
@[simp] theorem Group.onLanes_buf (g : Group) (m : LaneSet) (f : Nat → Lane → Lane) : (g.onLanes m f).buf = g.buf := rfl
@[simp] theorem Group.onLanes_awaits (g : Group) (m : LaneSet) (f : Nat → Lane → Lane) : (g.onLanes m f).awaits = g.awaits := rfl


@[simp] theorem Group.kset_gid (g : Group) (n : Nat) (x : LaneSet) : (g.kset n x).gid = g.gid := by
  unfold Group.kset; split <;> rfl
@[simp] theorem Group.kset_team (g : Group) (n : Nat) (x : LaneSet) : (g.kset n x).team = g.team := by
  unfold Group.kset; split <;> rfl
@[simp] theorem Group.kset_budget (g : Group) (n : Nat) (x : LaneSet) : (g.kset n x).budget = g.budget := by
  unfold Group.kset; split <;> rfl
@[simp] theorem Group.kset_budgetNext (g : Group) (n : Nat) (x : LaneSet) : (g.kset n x).budgetNext = g.budgetNext := by
  unfold Group.kset; split <;> rfl
@[simp] theorem Group.kset_v (g : Group) (n : Nat) (x : LaneSet) : (g.kset n x).v = g.v := by
  unfold Group.kset; split <;> rfl
@[simp] theorem Group.kset_g (g : Group) (n : Nat) (x : LaneSet) : (g.kset n x).g = g.g := by
  unfold Group.kset; split <;> rfl
@[simp] theorem Group.kset_j (g : Group) (n : Nat) (x : LaneSet) : (g.kset n x).j = g.j := by
  unfold Group.kset; split <;> rfl
@[simp] theorem Group.kset_cv (g : Group) (n : Nat) (x : LaneSet) : (g.kset n x).cv = g.cv := by
  unfold Group.kset; split <;> rfl
@[simp] theorem Group.kset_fmode (g : Group) (n : Nat) (x : LaneSet) : (g.kset n x).fmode = g.fmode := by
  unfold Group.kset; split <;> rfl
@[simp] theorem Group.kset_fmodeNext (g : Group) (n : Nat) (x : LaneSet) : (g.kset n x).fmodeNext = g.fmodeNext := by
  unfold Group.kset; split <;> rfl
@[simp] theorem Group.kset_fflags (g : Group) (n : Nat) (x : LaneSet) : (g.kset n x).fflags = g.fflags := by
  unfold Group.kset; split <;> rfl
@[simp] theorem Group.kset_csrd (g : Group) (n : Nat) (x : LaneSet) : (g.kset n x).csrd = g.csrd := by
  unfold Group.kset; split <;> rfl
@[simp] theorem Group.kset_tmask (g : Group) (n : Nat) (x : LaneSet) : (g.kset n x).tmask = g.tmask := by
  unfold Group.kset; split <;> rfl
@[simp] theorem Group.kset_trapv (g : Group) (n : Nat) (x : LaneSet) : (g.kset n x).trapv = g.trapv := by
  unfold Group.kset; split <;> rfl
@[simp] theorem Group.kset_mon (g : Group) (n : Nat) (x : LaneSet) : (g.kset n x).mon = g.mon := by
  unfold Group.kset; split <;> rfl
@[simp] theorem Group.kset_actSel (g : Group) (n : Nat) (x : LaneSet) : (g.kset n x).actSel = g.actSel := by
  unfold Group.kset; split <;> rfl
@[simp] theorem Group.kset_plateErr (g : Group) (n : Nat) (x : LaneSet) : (g.kset n x).plateErr = g.plateErr := by
  unfold Group.kset; split <;> rfl
@[simp] theorem Group.kset_halted (g : Group) (n : Nat) (x : LaneSet) : (g.kset n x).halted = g.halted := by
  unfold Group.kset; split <;> rfl
@[simp] theorem Group.kset_haltReq (g : Group) (n : Nat) (x : LaneSet) : (g.kset n x).haltReq = g.haltReq := by
  unfold Group.kset; split <;> rfl
@[simp] theorem Group.kset_saveReq (g : Group) (n : Nat) (x : LaneSet) : (g.kset n x).saveReq = g.saveReq := by
  unfold Group.kset; split <;> rfl
@[simp] theorem Group.kset_errReq (g : Group) (n : Nat) (x : LaneSet) : (g.kset n x).errReq = g.errReq := by
  unfold Group.kset; split <;> rfl
@[simp] theorem Group.kset_buf (g : Group) (n : Nat) (x : LaneSet) : (g.kset n x).buf = g.buf := by
  unfold Group.kset; split <;> rfl
@[simp] theorem Group.kset_awaits (g : Group) (n : Nat) (x : LaneSet) : (g.kset n x).awaits = g.awaits := by
  unfold Group.kset; split <;> rfl
@[simp] theorem Group.kset_lanes (g : Group) (n : Nat) (x : LaneSet) : (g.kset n x).lanes = g.lanes := by
  unfold Group.kset; split <;> rfl
@[simp] theorem Group.await_gid (g : Group) (r : AwaitReg) (m : LaneSet) : (g.await r m).gid = g.gid := rfl
@[simp] theorem Group.await_team (g : Group) (r : AwaitReg) (m : LaneSet) : (g.await r m).team = g.team := rfl
@[simp] theorem Group.await_budget (g : Group) (r : AwaitReg) (m : LaneSet) : (g.await r m).budget = g.budget := rfl
@[simp] theorem Group.await_budgetNext (g : Group) (r : AwaitReg) (m : LaneSet) : (g.await r m).budgetNext = g.budgetNext := rfl
@[simp] theorem Group.await_v (g : Group) (r : AwaitReg) (m : LaneSet) : (g.await r m).v = g.v := rfl
@[simp] theorem Group.await_g (g : Group) (r : AwaitReg) (m : LaneSet) : (g.await r m).g = g.g := rfl
@[simp] theorem Group.await_k (g : Group) (r : AwaitReg) (m : LaneSet) : (g.await r m).k = g.k := rfl
@[simp] theorem Group.await_j (g : Group) (r : AwaitReg) (m : LaneSet) : (g.await r m).j = g.j := rfl
@[simp] theorem Group.await_cv (g : Group) (r : AwaitReg) (m : LaneSet) : (g.await r m).cv = g.cv := rfl
@[simp] theorem Group.await_fmode (g : Group) (r : AwaitReg) (m : LaneSet) : (g.await r m).fmode = g.fmode := rfl
@[simp] theorem Group.await_fmodeNext (g : Group) (r : AwaitReg) (m : LaneSet) : (g.await r m).fmodeNext = g.fmodeNext := rfl
@[simp] theorem Group.await_fflags (g : Group) (r : AwaitReg) (m : LaneSet) : (g.await r m).fflags = g.fflags := rfl
@[simp] theorem Group.await_csrd (g : Group) (r : AwaitReg) (m : LaneSet) : (g.await r m).csrd = g.csrd := rfl
@[simp] theorem Group.await_tmask (g : Group) (r : AwaitReg) (m : LaneSet) : (g.await r m).tmask = g.tmask := rfl
@[simp] theorem Group.await_trapv (g : Group) (r : AwaitReg) (m : LaneSet) : (g.await r m).trapv = g.trapv := rfl
@[simp] theorem Group.await_mon (g : Group) (r : AwaitReg) (m : LaneSet) : (g.await r m).mon = g.mon := rfl
@[simp] theorem Group.await_actSel (g : Group) (r : AwaitReg) (m : LaneSet) : (g.await r m).actSel = g.actSel := rfl
@[simp] theorem Group.await_plateErr (g : Group) (r : AwaitReg) (m : LaneSet) : (g.await r m).plateErr = g.plateErr := rfl
@[simp] theorem Group.await_halted (g : Group) (r : AwaitReg) (m : LaneSet) : (g.await r m).halted = g.halted := rfl
@[simp] theorem Group.await_haltReq (g : Group) (r : AwaitReg) (m : LaneSet) : (g.await r m).haltReq = g.haltReq := rfl
@[simp] theorem Group.await_saveReq (g : Group) (r : AwaitReg) (m : LaneSet) : (g.await r m).saveReq = g.saveReq := rfl
@[simp] theorem Group.await_errReq (g : Group) (r : AwaitReg) (m : LaneSet) : (g.await r m).errReq = g.errReq := rfl
@[simp] theorem Group.await_buf (g : Group) (r : AwaitReg) (m : LaneSet) : (g.await r m).buf = g.buf := rfl
@[simp] theorem Group.await_lanes (g : Group) (r : AwaitReg) (m : LaneSet) : (g.await r m).lanes = g.lanes := rfl

theorem Group.vget_vset (g : Group) (r r' : Nat) (m : LaneSet) (f : Nat → BitVec 64) {l : Nat} (h : l < 32) :
    (g.vset r m f).vget r' l = if r' = r ∧ inSet m l = true then f l else g.vget r' l := by
  simp only [Group.vget, Group.vset, sget_sput, lanes32, List.length_map, List.length_range]
  by_cases e : r' = r
  · subst e
    have e2 : 32 * r' + l - 32 * r' = l := by omega
    rw [if_pos ⟨by omega, by omega⟩, e2, List.getD_eq_getElem?_getD, List.getElem?_map, List.getElem?_range h]
    simp
  · rw [if_neg (by omega), if_neg (by simp [e])]

theorem Group.gget_gset (g : Group) (n n' : Nat) (x : BitVec 64) : (g.gset n x).gget n' = if n' = n then x else g.gget n' := by
  simp only [Group.gget, Group.gset, sget_sset]

theorem Group.jget_jset (g : Group) (n n' : Nat) (x : LaneSet) : (g.jset n x).jget n' = if n' = n then x else g.jget n' := by
  simp only [Group.jget, Group.jset, sget_sset]

/-- A write to k0 is ignored and k0 reads all ones (R137); every other mask reads what was written. -/
theorem Group.kget_kset (g : Group) (n n' : Nat) (x : LaneSet) :
    (g.kset n x).kget n' = if n' = n ∧ n ≠ 0 then x else g.kget n' := by
  unfold Group.kset
  by_cases h : n = 0
  · simp [h]
  · simp only [h, if_false, Group.kget]
    by_cases h' : n' = 0
    · have : ¬ n' = n := by omega
      simp [h', Ne.symm h]
    · simp only [h', if_false, sget_sset]
      by_cases e : n' = n <;> simp [e, h]

/-- A group in which some lane has not exited. -/
theorem Group.allExited_false {g : Group} {l : Nat} (h : l < 32) (hs : (g.lane l).st ≠ .exited) : g.allExited = false := by
  unfold Group.allExited Group.exitedLanes Group.lanesIn
  rw [beq_eq_false_iff_ne]
  intro e
  have := congrArg (fun m => inSet m l) e
  simp only [inSet_laneSet _ h, inSet_ones h, beq_iff_eq] at this
  exact hs this

end Sys2Proof.Machine
end

