-- ==== Sys2Proof/Laws/Costs.lean ====
section
/-! SUPPORT. What reading memory costs: a read of the LLC, a count on the NoC and a correction change the LLC, the meters, the NoC's
counters, the pool of free choices and the sectors marked correctable, and nothing else. -/

namespace Sys2Proof

open Sys2Proof.Machine

theorem CostsOnly.refl (s : State) : CostsOnly s s := rfl

theorem CostsOnly.trans {s t u : State} (h : CostsOnly s t) (k : CostsOnly t u) : CostsOnly s u := by
  unfold CostsOnly at *
  rw [k, h]

/-- Steps that each only cost do so together. -/
theorem CostsOnly.foldl {α : Type} (f : State → α → State) (hf : ∀ s x, CostsOnly s (f s x)) (l : List α) (s : State) :
    CostsOnly s (l.foldl f s) := by
  induction l generalizing s with
  | nil => exact .refl s
  | cons x r ih => exact (hf s x).trans (ih (f s x))

theorem CostsOnly.ite {s t u : State} {c : Prop} [Decidable c] (h : CostsOnly s t) (k : CostsOnly s u) :
    CostsOnly s (if c then t else u) := by
  split
  · exact h
  · exact k

/-! What an operation that only costs keeps. -/

theorem CostsOnly.mem {s t : State} (h : CostsOnly s t) : t.mem = s.mem := by rw [h]
theorem CostsOnly.hostMem {s t : State} (h : CostsOnly s t) : t.hostMem = s.hostMem := by rw [h]
theorem CostsOnly.peers {s t : State} (h : CostsOnly s t) : t.peers = s.peers := by rw [h]
theorem CostsOnly.cores {s t : State} (h : CostsOnly s t) : t.cores = s.cores := by rw [h]
theorem CostsOnly.groups {s t : State} (h : CostsOnly s t) : t.groups = s.groups := by rw [h]
theorem CostsOnly.teams {s t : State} (h : CostsOnly s t) : t.teams = s.teams := by rw [h]
theorem CostsOnly.ctxs {s t : State} (h : CostsOnly s t) : t.ctxs = s.ctxs := by rw [h]
theorem CostsOnly.turn {s t : State} (h : CostsOnly s t) : t.turn = s.turn := by rw [h]
theorem CostsOnly.tlb {s t : State} (h : CostsOnly s t) : t.tlb = s.tlb := by rw [h]
theorem CostsOnly.walks {s t : State} (h : CostsOnly s t) : t.walks = s.walks := by rw [h]

/-! The operations. -/

theorem CostsOnly.meter (s : State) (w j n : Nat) : CostsOnly s (s.meter w j n) := rfl
theorem CostsOnly.meterMem (s : State) (w pa n : Nat) : CostsOnly s (s.meterMem w pa n) := rfl
theorem CostsOnly.freeBelow (s : State) (n : Nat) : CostsOnly s (s.freeBelow n).2 := rfl
theorem CostsOnly.llc (s : State) (l : List LlcLine) : CostsOnly s { s with llc := l } := rfl
theorem CostsOnly.correct (s : State) (pa n : Nat) : CostsOnly s (s.correct pa n) := rfl
theorem CostsOnly.nocCount (s : State) (a b w n : Nat) : CostsOnly s (s.nocCount a b w n) := .ite rfl rfl
theorem CostsOnly.writeBack (s : State) (l : LlcLine) : CostsOnly s (s.writeBack l) := .ite rfl rfl
theorem CostsOnly.llcDrop (s : State) (l : LlcLine) : CostsOnly s (s.llcDrop l) := (CostsOnly.llc s _).trans (.writeBack _ l)

theorem CostsOnly.llcRoom (s : State) (w l : Nat) : CostsOnly s (s.llcRoom w l) := by
  unfold State.llcRoom
  refine .ite (.refl s) ?_
  dsimp only [State.freeBelow]
  split
  · exact (show CostsOnly s { s with tick := s.tick + 1 } from rfl).trans (.llcDrop _ _)
  · rfl

theorem CostsOnly.llcRead (s : State) (w h pa n : Nat) : CostsOnly s (s.llcRead w h pa n) := by
  unfold State.llcRead
  refine .ite (.refl s) ?_
  split
  · exact .ite (.refl s) (.ite (.meterMem s w pa n) ((CostsOnly.meterMem s w pa n).trans (.llc _ _)))
  · exact .ite (.meterMem s w pa n) (((CostsOnly.llcRoom s w _).trans (.meterMem _ w pa n)).trans (.llc _ _))

theorem CostsOnly.writeThrough (s : State) (w pa n : Nat) (rs : List (Nat × Nat)) : CostsOnly s (s.writeThrough w pa n rs) :=
  .ite (.meterMem s w pa n) ((CostsOnly.meterMem s w pa n).trans (.meterMem _ w pa n))

theorem CostsOnly.llcWrite (s : State) (w h pa n : Nat) (rs : List (Nat × Nat)) : CostsOnly s (s.llcWrite w h pa n rs) := by
  unfold State.llcWrite
  dsimp only
  split
  · exact .ite ((CostsOnly.writeThrough s w pa n rs).trans (.llc _ _)) ((CostsOnly.ite (.meterMem s w pa n) (.refl s)).trans (.llc _ _))
  · exact .ite (.writeThrough s w pa n rs)
      (((CostsOnly.llcRoom s w _).trans (.ite (.refl _) (.meterMem _ w pa n))).trans (.llc _ _))

theorem CostsOnly.readLocal (s : State) (w p h : Nat) (rs : List (Nat × Nat)) : CostsOnly s (s.readLocal w p h rs) :=
  .foldl _ (fun a _ => (CostsOnly.llcRead a _ _ _ _).trans (.nocCount _ _ _ _ _)) _ s

theorem CostsOnly.wroteLocal (s : State) (w p h : Nat) (rs : List (Nat × Nat)) : CostsOnly s (s.wroteLocal w p h rs) :=
  .foldl _ (fun a _ => (CostsOnly.llcWrite a _ _ _ _ _).trans (.nocCount _ _ _ _ _)) _ s

theorem CostsOnly.devRead (s : State) (w pa n : Nat) : CostsOnly s (s.devRead w pa n) :=
  (CostsOnly.readLocal s _ _ _ _).trans (.correct _ _ _)

theorem CostsOnly.readEntries (s : State) (w p : Nat) (es : List (Nat × Nat)) : CostsOnly s (s.readEntries w p es) :=
  .foldl _ (fun a _ => (CostsOnly.readLocal a _ _ _ _).trans (.correct _ _ _)) _ s

theorem CostsOnly.rotReads (s : State) (c : Context) (ks : List Nat) : CostsOnly s (s.rotReads c ks) := .readEntries s _ _ _

theorem CostsOnly.ringGet (s : State) (w pa n : Nat) : CostsOnly s (s.ringGet w pa n).1 := by
  unfold State.ringGet
  split
  · exact .devRead s w pa n
  · exact .refl s

end Sys2Proof
end

