-- ==== Sys2Proof/Laws/Issue.lean ====
section
/-! SUPPORT. Laws of issuing and finishing an instruction: what an issue stands for, when its checks pass, and what a finished
instruction leaves of the state, of its group and of each lane. -/

namespace Sys2Proof.Machine

open Sys2Proof.Bits

/-! ## What an issue stands for -/

/-- An issue is that of the run, group, team and context of the port whose turn it is. -/
theorem State.iss?_some {s : State} {i : Iss} (h : s.iss? = some i) :
    s.turn = some (i.core, i.port) ∧ ((s.core i.core).port i.port).run = some i.run ∧
    i.key = slotKey i.core i.port i.run.slot ∧ s.group? i.key = some i.g ∧ s.team? i.g.team = some i.t ∧
    s.ctx? i.t.ctx = some i.c ∧ i.pci = (if i.run.pfx.isSome then i.run.pc - 4 else i.run.pc) ∧ i.now = s.cycle.toNat := by
  unfold State.iss? at h
  split at h
  · cases h
  · next c p e =>
    split at h
    · cases h
    · next r hr =>
      split at h
      · cases h
      · next g hg =>
        split at h
        · cases h
        · next t ht =>
          split at h
          · cases h
          · next x hx =>
            cases h
            exact ⟨e, hr, rfl, hg, ht, hx, rfl, rfl⟩

theorem State.iss?_group {s : State} {i : Iss} (h : s.iss? = some i) : s.group? i.key = some i.g := (State.iss?_some h).2.2.2.1
theorem State.iss?_run {s : State} {i : Iss} (h : s.iss? = some i) : ((s.core i.core).port i.port).run = some i.run :=
  (State.iss?_some h).2.1
theorem State.iss?_team {s : State} {i : Iss} (h : s.iss? = some i) : s.team? i.g.team = some i.t := (State.iss?_some h).2.2.2.2.1

theorem State.issGroup_eq {s : State} {i : Iss} (h : s.iss? = some i) : s.issGroup i = i.g := by
  simp [State.issGroup, State.iss?_group h]

theorem State.group?_updGroup {s : State} {i : Iss} (f : Group → Group) {g : Group} (h : s.group? i.key = some g) :
    (s.updGroup i f).group? i.key = some (f g) := by
  unfold State.updGroup State.issGroup
  rw [h]
  exact State.group?_setGroup _ h

/-! ## The checks -/

/-- The checks of R29 pass when each of them does. -/
theorem firstCause_none {i : Iss} {h : Head} {ok : Bool} (hc : i.run.count < Config.runLimit) (hb : h.bad = false)
    (hn : (h.nw && !h.vdst) = false)
    (hp : ((h.priv == .priv && !privileged i.t i.g) || (h.priv == .service && !i.t.service)) = false)
    (hx : i.pfxRefused h.pfx = false) (ho : ok = true) (hq : h.badPair = false)
    (hl : ∀ n ∈ h.latches, n ≤ i.run.filled) : firstCause i h ok = none := by
  have h2 : (h.latches.any fun n => decide (i.run.filled < n)) = false := by
    simp only [List.any_eq_false, decide_eq_true_eq]
    intro n hn'
    have := hl n hn'
    omega
  unfold firstCause
  rw [if_neg (by omega), hb, hn, hp, hx, ho, hq, h2]
  simp

/-- An issue whose checks pass does what its body does, and finishes. -/
theorem issue_next {s : State} {i : Iss} {h : Head} {operands : Iss → Bool} {body : Iss → State → State × Eff}
    (hi : s.iss? = some i) (hc : firstCause i h (operands i) = none) :
    issue s h operands body = .next (finish (body i s).1 i h.len h.rb (body i s).2) := by
  unfold issue
  rw [hi]
  simp only [hc]

/-- An issue that meets a cause of R29 traps. -/
theorem issue_trap {s : State} {i : Iss} {h : Head} {operands : Iss → Bool} {body : Iss → State → State × Eff} {c : BitVec 8}
    (hi : s.iss? = some i) (hc : firstCause i h (operands i) = some c) :
    issue s h operands body = .next (decodeTrap s i h.len h.rb c) := by
  unfold issue
  rw [hi]
  simp only [hc]

/-- An issue that accesses memory, whose checks pass and that nothing holds back. -/
theorem issueAt_next {s : State} {i : Iss} {h : Head} {rel : Bool} {operands : Iss → Bool} {vas : Iss → List Nat}
    {body : Iss → State → State × Eff} (hi : s.iss? = some i) (hc : firstCause i h (operands i) = none)
    (hs : s.stalls i rel = false) (hw : s.walksWait i.c (vas i) = false) :
    issueAt s h rel operands vas body = .next (finish (body i s).1 i h.len h.rb (body i s).2) := by
  unfold issueAt
  rw [hi]
  simp only [hc, hs, hw, Bool.false_eq_true, if_false]

theorem issueAt_trap {s : State} {i : Iss} {h : Head} {rel : Bool} {operands : Iss → Bool} {vas : Iss → List Nat}
    {body : Iss → State → State × Eff} {c : BitVec 8} (hi : s.iss? = some i) (hc : firstCause i h (operands i) = some c) :
    issueAt s h rel operands vas body = .next (decodeTrap s i h.len h.rb c) := by
  unfold issueAt
  rw [hi]
  simp only [hc]

/-- An issue that an order holds back lets a cycle pass. -/
theorem issueAt_stall {s : State} {i : Iss} {h : Head} {rel : Bool} {operands : Iss → Bool} {vas : Iss → List Nat}
    {body : Iss → State → State × Eff} (hi : s.iss? = some i) (hc : firstCause i h (operands i) = none)
    (hs : s.stalls i rel = true) : issueAt s h rel operands vas body = .next (s.elapse 1) := by
  unfold issueAt
  rw [hi]
  simp only [hc, hs, if_true]

/-- One whose pages wait for a walker starts and queues the walks, and a cycle passes. -/
theorem issueAt_walks {s : State} {i : Iss} {h : Head} {rel : Bool} {operands : Iss → Bool} {vas : Iss → List Nat}
    {body : Iss → State → State × Eff} (hi : s.iss? = some i) (hc : firstCause i h (operands i) = none)
    (hs : s.stalls i rel = false) (hw : s.walksWait i.c (vas i) = true) :
    issueAt s h rel operands vas body = .next ((s.queueWalks i.c (vas i)).elapse 1) := by
  unfold issueAt
  rw [hi]
  simp only [hc, hs, hw, Bool.false_eq_true, if_false, if_true]

/-- The same for an issue that translates no address. -/
theorem issueMem_next {s : State} {i : Iss} {h : Head} {rel : Bool} {operands : Iss → Bool} {body : Iss → State → State × Eff}
    (hi : s.iss? = some i) (hc : firstCause i h (operands i) = none) (hs : s.stalls i rel = false) :
    issueMem s h rel operands body = .next (finish (body i s).1 i h.len h.rb (body i s).2) :=
  issueAt_next hi hc hs rfl

theorem issueMem_trap {s : State} {i : Iss} {h : Head} {rel : Bool} {operands : Iss → Bool} {body : Iss → State → State × Eff}
    {c : BitVec 8} (hi : s.iss? = some i) (hc : firstCause i h (operands i) = some c) :
    issueMem s h rel operands body = .next (decodeTrap s i h.len h.rb c) := issueAt_trap hi hc

theorem issueMem_stall {s : State} {i : Iss} {h : Head} {rel : Bool} {operands : Iss → Bool} {body : Iss → State → State × Eff}
    (hi : s.iss? = some i) (hc : firstCause i h (operands i) = none) (hs : s.stalls i rel = true) :
    issueMem s h rel operands body = .next (s.elapse 1) := issueAt_stall hi hc hs

/-! ## Finishing -/

/-- The group as a finished instruction leaves it. -/
def finished (s : State) (i : Iss) (len : Nat) (e : Eff) (g0 : Group) : Group :=
  advance i (i.run.pc + BitVec.ofNat 64 (4 * len)) e
    (parkLanes i e (takeFaults g0 i.t (s.teamWorld i.t) i.key i.pci i.now e.traps e.replays).1)

/-- What a finished instruction leaves of the state, while its group stays and none of its lanes exits. -/
theorem finish_eq {s : State} {i : Iss} {len : Nat} {rb : Bool} {e : Eff} {g0 : Group} (hg : s.group? i.key = some g0)
    (hx : e.ended = 0) (ha : (finished s i len e g0).allExited = false) :
    finish s i len rb e =
      (((s.setGroup i.key (finished s i len e g0)).addPosts
          (takeFaults g0 i.t (s.teamWorld i.t) i.key i.pci i.now e.traps e.replays).2).setPort i.core i.port
        { (s.core i.core).port i.port with
          run := nextRun i (i.run.pc + BitVec.ofNat 64 (4 * len)) rb e (finished s i len e g0) }) := by
  unfold finish
  rw [hg]
  simp only
  unfold finished at ha
  rw [ha, hx]
  rfl

theorem finish_group? {s : State} {i : Iss} {len : Nat} {rb : Bool} {e : Eff} {g0 : Group} (hg : s.group? i.key = some g0)
    (hx : e.ended = 0) (ha : (finished s i len e g0).allExited = false) :
    (finish s i len rb e).group? i.key = some (finished s i len e g0) := by
  rw [finish_eq hg hx ha]
  simp only [State.group?_setPort, State.group?_addPosts]
  exact State.group?_setGroup _ hg

/-- An effect with no trap, replay, park, exit or lane that has left. -/
structure Eff.Plain (e : Eff) : Prop where
  traps : e.traps = []
  replays : e.replays = []
  parks : e.parks = []
  exits : e.exits = 0
  left : e.left = 0

theorem laneSet_or_zero (m : LaneSet) : m ||| 0 = m := BitVec.or_zero
theorem laneSet_and_not_zero (m : LaneSet) : m &&& ~~~ 0 = m := BitVec.eq_of_getLsbD_eq fun l hl => by
  rw [BitVec.getLsbD_and, BitVec.getLsbD_not]; simp [hl]

theorem trapLanes_nil : trapLanes [] = 0 := by decide
theorem replayLanes_nil : replayLanes [] = 0 := by decide

theorem Eff.Plain.gone {e : Eff} (h : e.Plain) : e.gone = 0 := by
  simp [Eff.gone, h.traps, h.replays, trapLanes_nil, replayLanes_nil]

theorem Eff.Plain.ended {e : Eff} (h : e.Plain) : e.ended = 0 := by simp [Eff.ended, h.exits]

theorem Eff.Plain.done {e : Eff} (h : e.Plain) (i : Iss) : e.done i = i.sub := by
  have : e.parked = 0 := by simp [Eff.parked, h.parks]
  unfold Eff.done
  rw [h.gone, this, h.ended, h.left, laneSet_or_zero, laneSet_or_zero, laneSet_or_zero, laneSet_and_not_zero]

theorem Group.takeTraps_nil_lane (g : Group) (pci : BitVec 64) (now : Nat) {l : Nat} (h : l < 32) :
    (g.takeTraps pci now []).lane l = g.lane l := by
  unfold Group.takeTraps
  rw [Group.lane_mapLanes _ _ h]
  rfl

theorem Group.takeReplays_nil_lane (g : Group) (pci : BitVec 64) (now : Nat) {l : Nat} (h : l < 32) :
    (g.takeReplays pci now []).lane l = g.lane l := by
  unfold Group.takeReplays
  rw [Group.lane_mapLanes _ _ h]
  rfl

/-- Each lane after a plain effect: those of the sub-group stand at their target, every other as it was. -/
theorem finished_lane {s : State} {i : Iss} {len : Nat} {e : Eff} {g0 : Group} (h : e.Plain) {l : Nat} (hl : l < 32) :
    (finished s i len e g0).lane l =
      if inSet i.sub l then
        { g0.lane l with
          pc := e.target (i.run.pc + BitVec.ofNat 64 (4 * len)) l, skip := false, ret := false, kept := none, seen := 0,
          tregion := if e.region then i.run.pc + BitVec.ofNat 64 (4 * len) else (g0.lane l).tregion }
      else g0.lane l := by
  have hf : (takeFaults g0 i.t (s.teamWorld i.t) i.key i.pci i.now e.traps e.replays).1.lane l = g0.lane l := by
    simp only [takeFaults, h.traps, h.replays]
    cases i.t.service <;>
      simp only [if_true, if_false, Bool.false_eq_true, List.map_nil, List.append_nil, Group.takeReplays_nil_lane _ _ _ hl,
        Group.takeTraps_nil_lane _ _ _ hl]
  unfold finished advance parkLanes
  rw [h.ended, h.done, h.parks]
  simp only [List.foldl_nil, if_true]
  cases er : e.region
  · simp only [Bool.false_eq_true, if_false]
    rw [Group.lane_onLanes _ _ _ hl, hf]
  · simp only [if_true]
    rw [Group.lane_onLanes _ _ _ hl, Group.lane_onLanes _ _ _ hl, hf, laneSet_or_zero]
    cases inSet i.sub l <;> simp

/-! A plain effect leaves every field of the group but its lanes. -/

@[simp] theorem takeFaults_gid (g : Group) (t : Team) (w k : Nat) (pci : BitVec 64) (now : Nat) (ts : List LTrap) (rs : List LReplay) :
    (takeFaults g t w k pci now ts rs).1.gid = g.gid := by
  simp only [takeFaults, Group.takeReplays, Group.takeTraps, Group.mapLanes_gid]
@[simp] theorem takeFaults_team (g : Group) (t : Team) (w k : Nat) (pci : BitVec 64) (now : Nat) (ts : List LTrap) (rs : List LReplay) :
    (takeFaults g t w k pci now ts rs).1.team = g.team := by
  simp only [takeFaults, Group.takeReplays, Group.takeTraps, Group.mapLanes_team]
@[simp] theorem takeFaults_budget (g : Group) (t : Team) (w k : Nat) (pci : BitVec 64) (now : Nat) (ts : List LTrap) (rs : List LReplay) :
    (takeFaults g t w k pci now ts rs).1.budget = g.budget := by
  simp only [takeFaults, Group.takeReplays, Group.takeTraps, Group.mapLanes_budget]
@[simp] theorem takeFaults_budgetNext (g : Group) (t : Team) (w k : Nat) (pci : BitVec 64) (now : Nat) (ts : List LTrap) (rs : List LReplay) :
    (takeFaults g t w k pci now ts rs).1.budgetNext = g.budgetNext := by
  simp only [takeFaults, Group.takeReplays, Group.takeTraps, Group.mapLanes_budgetNext]
@[simp] theorem takeFaults_v (g : Group) (t : Team) (w k : Nat) (pci : BitVec 64) (now : Nat) (ts : List LTrap) (rs : List LReplay) :
    (takeFaults g t w k pci now ts rs).1.v = g.v := by
  simp only [takeFaults, Group.takeReplays, Group.takeTraps, Group.mapLanes_v]
@[simp] theorem takeFaults_g (g : Group) (t : Team) (w k : Nat) (pci : BitVec 64) (now : Nat) (ts : List LTrap) (rs : List LReplay) :
    (takeFaults g t w k pci now ts rs).1.g = g.g := by
  simp only [takeFaults, Group.takeReplays, Group.takeTraps, Group.mapLanes_g]
@[simp] theorem takeFaults_k (g : Group) (t : Team) (w k : Nat) (pci : BitVec 64) (now : Nat) (ts : List LTrap) (rs : List LReplay) :
    (takeFaults g t w k pci now ts rs).1.k = g.k := by
  simp only [takeFaults, Group.takeReplays, Group.takeTraps, Group.mapLanes_k]
@[simp] theorem takeFaults_j (g : Group) (t : Team) (w k : Nat) (pci : BitVec 64) (now : Nat) (ts : List LTrap) (rs : List LReplay) :
    (takeFaults g t w k pci now ts rs).1.j = g.j := by
  simp only [takeFaults, Group.takeReplays, Group.takeTraps, Group.mapLanes_j]
@[simp] theorem takeFaults_cv (g : Group) (t : Team) (w k : Nat) (pci : BitVec 64) (now : Nat) (ts : List LTrap) (rs : List LReplay) :
    (takeFaults g t w k pci now ts rs).1.cv = g.cv := by
  simp only [takeFaults, Group.takeReplays, Group.takeTraps, Group.mapLanes_cv]
@[simp] theorem takeFaults_fmode (g : Group) (t : Team) (w k : Nat) (pci : BitVec 64) (now : Nat) (ts : List LTrap) (rs : List LReplay) :
    (takeFaults g t w k pci now ts rs).1.fmode = g.fmode := by
  simp only [takeFaults, Group.takeReplays, Group.takeTraps, Group.mapLanes_fmode]
@[simp] theorem takeFaults_fmodeNext (g : Group) (t : Team) (w k : Nat) (pci : BitVec 64) (now : Nat) (ts : List LTrap) (rs : List LReplay) :
    (takeFaults g t w k pci now ts rs).1.fmodeNext = g.fmodeNext := by
  simp only [takeFaults, Group.takeReplays, Group.takeTraps, Group.mapLanes_fmodeNext]
@[simp] theorem takeFaults_fflags (g : Group) (t : Team) (w k : Nat) (pci : BitVec 64) (now : Nat) (ts : List LTrap) (rs : List LReplay) :
    (takeFaults g t w k pci now ts rs).1.fflags = g.fflags := by
  simp only [takeFaults, Group.takeReplays, Group.takeTraps, Group.mapLanes_fflags]
@[simp] theorem takeFaults_csrd (g : Group) (t : Team) (w k : Nat) (pci : BitVec 64) (now : Nat) (ts : List LTrap) (rs : List LReplay) :
    (takeFaults g t w k pci now ts rs).1.csrd = g.csrd := by
  simp only [takeFaults, Group.takeReplays, Group.takeTraps, Group.mapLanes_csrd]
@[simp] theorem takeFaults_tmask (g : Group) (t : Team) (w k : Nat) (pci : BitVec 64) (now : Nat) (ts : List LTrap) (rs : List LReplay) :
    (takeFaults g t w k pci now ts rs).1.tmask = g.tmask := by
  simp only [takeFaults, Group.takeReplays, Group.takeTraps, Group.mapLanes_tmask]
@[simp] theorem takeFaults_trapv (g : Group) (t : Team) (w k : Nat) (pci : BitVec 64) (now : Nat) (ts : List LTrap) (rs : List LReplay) :
    (takeFaults g t w k pci now ts rs).1.trapv = g.trapv := by
  simp only [takeFaults, Group.takeReplays, Group.takeTraps, Group.mapLanes_trapv]
@[simp] theorem takeFaults_mon (g : Group) (t : Team) (w k : Nat) (pci : BitVec 64) (now : Nat) (ts : List LTrap) (rs : List LReplay) :
    (takeFaults g t w k pci now ts rs).1.mon = g.mon := by
  simp only [takeFaults, Group.takeReplays, Group.takeTraps, Group.mapLanes_mon]
@[simp] theorem takeFaults_actSel (g : Group) (t : Team) (w k : Nat) (pci : BitVec 64) (now : Nat) (ts : List LTrap) (rs : List LReplay) :
    (takeFaults g t w k pci now ts rs).1.actSel = g.actSel := by
  simp only [takeFaults, Group.takeReplays, Group.takeTraps, Group.mapLanes_actSel]
@[simp] theorem takeFaults_plateErr (g : Group) (t : Team) (w k : Nat) (pci : BitVec 64) (now : Nat) (ts : List LTrap) (rs : List LReplay) :
    (takeFaults g t w k pci now ts rs).1.plateErr = g.plateErr := by
  simp only [takeFaults, Group.takeReplays, Group.takeTraps, Group.mapLanes_plateErr]
@[simp] theorem takeFaults_halted (g : Group) (t : Team) (w k : Nat) (pci : BitVec 64) (now : Nat) (ts : List LTrap) (rs : List LReplay) :
    (takeFaults g t w k pci now ts rs).1.halted = g.halted := by
  simp only [takeFaults, Group.takeReplays, Group.takeTraps, Group.mapLanes_halted]
@[simp] theorem takeFaults_haltReq (g : Group) (t : Team) (w k : Nat) (pci : BitVec 64) (now : Nat) (ts : List LTrap) (rs : List LReplay) :
    (takeFaults g t w k pci now ts rs).1.haltReq = g.haltReq := by
  simp only [takeFaults, Group.takeReplays, Group.takeTraps, Group.mapLanes_haltReq]
@[simp] theorem takeFaults_saveReq (g : Group) (t : Team) (w k : Nat) (pci : BitVec 64) (now : Nat) (ts : List LTrap) (rs : List LReplay) :
    (takeFaults g t w k pci now ts rs).1.saveReq = g.saveReq := by
  simp only [takeFaults, Group.takeReplays, Group.takeTraps, Group.mapLanes_saveReq]
@[simp] theorem takeFaults_errReq (g : Group) (t : Team) (w k : Nat) (pci : BitVec 64) (now : Nat) (ts : List LTrap) (rs : List LReplay) :
    (takeFaults g t w k pci now ts rs).1.errReq = g.errReq := by
  simp only [takeFaults, Group.takeReplays, Group.takeTraps, Group.mapLanes_errReq]
@[simp] theorem takeFaults_buf (g : Group) (t : Team) (w k : Nat) (pci : BitVec 64) (now : Nat) (ts : List LTrap) (rs : List LReplay) :
    (takeFaults g t w k pci now ts rs).1.buf = g.buf := by
  simp only [takeFaults, Group.takeReplays, Group.takeTraps, Group.mapLanes_buf]
@[simp] theorem takeFaults_awaits (g : Group) (t : Team) (w k : Nat) (pci : BitVec 64) (now : Nat) (ts : List LTrap) (rs : List LReplay) :
    (takeFaults g t w k pci now ts rs).1.awaits = g.awaits := by
  simp only [takeFaults, Group.takeReplays, Group.takeTraps, Group.mapLanes_awaits]
theorem finished_gid {s : State} {i : Iss} {len : Nat} {e : Eff} {g0 : Group} (h : e.Plain) :
    (finished s i len e g0).gid = g0.gid := by
  unfold finished advance parkLanes
  rw [h.ended, h.parks]
  simp only [if_true, List.foldl_nil]
  split <;> simp only [Group.onLanes_gid, takeFaults_gid]
theorem finished_team {s : State} {i : Iss} {len : Nat} {e : Eff} {g0 : Group} (h : e.Plain) :
    (finished s i len e g0).team = g0.team := by
  unfold finished advance parkLanes
  rw [h.ended, h.parks]
  simp only [if_true, List.foldl_nil]
  split <;> simp only [Group.onLanes_team, takeFaults_team]
theorem finished_budget {s : State} {i : Iss} {len : Nat} {e : Eff} {g0 : Group} (h : e.Plain) :
    (finished s i len e g0).budget = g0.budget := by
  unfold finished advance parkLanes
  rw [h.ended, h.parks]
  simp only [if_true, List.foldl_nil]
  split <;> simp only [Group.onLanes_budget, takeFaults_budget]
theorem finished_budgetNext {s : State} {i : Iss} {len : Nat} {e : Eff} {g0 : Group} (h : e.Plain) :
    (finished s i len e g0).budgetNext = g0.budgetNext := by
  unfold finished advance parkLanes
  rw [h.ended, h.parks]
  simp only [if_true, List.foldl_nil]
  split <;> simp only [Group.onLanes_budgetNext, takeFaults_budgetNext]
theorem finished_v {s : State} {i : Iss} {len : Nat} {e : Eff} {g0 : Group} (h : e.Plain) :
    (finished s i len e g0).v = g0.v := by
  unfold finished advance parkLanes
  rw [h.ended, h.parks]
  simp only [if_true, List.foldl_nil]
  split <;> simp only [Group.onLanes_v, takeFaults_v]
theorem finished_g {s : State} {i : Iss} {len : Nat} {e : Eff} {g0 : Group} (h : e.Plain) :
    (finished s i len e g0).g = g0.g := by
  unfold finished advance parkLanes
  rw [h.ended, h.parks]
  simp only [if_true, List.foldl_nil]
  split <;> simp only [Group.onLanes_g, takeFaults_g]
theorem finished_k {s : State} {i : Iss} {len : Nat} {e : Eff} {g0 : Group} (h : e.Plain) :
    (finished s i len e g0).k = g0.k := by
  unfold finished advance parkLanes
  rw [h.ended, h.parks]
  simp only [if_true, List.foldl_nil]
  split <;> simp only [Group.onLanes_k, takeFaults_k]
theorem finished_j {s : State} {i : Iss} {len : Nat} {e : Eff} {g0 : Group} (h : e.Plain) :
    (finished s i len e g0).j = g0.j := by
  unfold finished advance parkLanes
  rw [h.ended, h.parks]
  simp only [if_true, List.foldl_nil]
  split <;> simp only [Group.onLanes_j, takeFaults_j]
theorem finished_cv {s : State} {i : Iss} {len : Nat} {e : Eff} {g0 : Group} (h : e.Plain) :
    (finished s i len e g0).cv = g0.cv := by
  unfold finished advance parkLanes
  rw [h.ended, h.parks]
  simp only [if_true, List.foldl_nil]
  split <;> simp only [Group.onLanes_cv, takeFaults_cv]
theorem finished_fmode {s : State} {i : Iss} {len : Nat} {e : Eff} {g0 : Group} (h : e.Plain) :
    (finished s i len e g0).fmode = g0.fmode := by
  unfold finished advance parkLanes
  rw [h.ended, h.parks]
  simp only [if_true, List.foldl_nil]
  split <;> simp only [Group.onLanes_fmode, takeFaults_fmode]
theorem finished_fmodeNext {s : State} {i : Iss} {len : Nat} {e : Eff} {g0 : Group} (h : e.Plain) :
    (finished s i len e g0).fmodeNext = g0.fmodeNext := by
  unfold finished advance parkLanes
  rw [h.ended, h.parks]
  simp only [if_true, List.foldl_nil]
  split <;> simp only [Group.onLanes_fmodeNext, takeFaults_fmodeNext]
theorem finished_fflags {s : State} {i : Iss} {len : Nat} {e : Eff} {g0 : Group} (h : e.Plain) :
    (finished s i len e g0).fflags = g0.fflags := by
  unfold finished advance parkLanes
  rw [h.ended, h.parks]
  simp only [if_true, List.foldl_nil]
  split <;> simp only [Group.onLanes_fflags, takeFaults_fflags]
theorem finished_csrd {s : State} {i : Iss} {len : Nat} {e : Eff} {g0 : Group} (h : e.Plain) :
    (finished s i len e g0).csrd = g0.csrd := by
  unfold finished advance parkLanes
  rw [h.ended, h.parks]
  simp only [if_true, List.foldl_nil]
  split <;> simp only [Group.onLanes_csrd, takeFaults_csrd]
theorem finished_tmask {s : State} {i : Iss} {len : Nat} {e : Eff} {g0 : Group} (h : e.Plain) :
    (finished s i len e g0).tmask = g0.tmask := by
  unfold finished advance parkLanes
  rw [h.ended, h.parks]
  simp only [if_true, List.foldl_nil]
  split <;> simp only [Group.onLanes_tmask, takeFaults_tmask]
theorem finished_trapv {s : State} {i : Iss} {len : Nat} {e : Eff} {g0 : Group} (h : e.Plain) :
    (finished s i len e g0).trapv = g0.trapv := by
  unfold finished advance parkLanes
  rw [h.ended, h.parks]
  simp only [if_true, List.foldl_nil]
  split <;> simp only [Group.onLanes_trapv, takeFaults_trapv]
theorem finished_mon {s : State} {i : Iss} {len : Nat} {e : Eff} {g0 : Group} (h : e.Plain) :
    (finished s i len e g0).mon = g0.mon := by
  unfold finished advance parkLanes
  rw [h.ended, h.parks]
  simp only [if_true, List.foldl_nil]
  split <;> simp only [Group.onLanes_mon, takeFaults_mon]
theorem finished_actSel {s : State} {i : Iss} {len : Nat} {e : Eff} {g0 : Group} (h : e.Plain) :
    (finished s i len e g0).actSel = g0.actSel := by
  unfold finished advance parkLanes
  rw [h.ended, h.parks]
  simp only [if_true, List.foldl_nil]
  split <;> simp only [Group.onLanes_actSel, takeFaults_actSel]
theorem finished_plateErr {s : State} {i : Iss} {len : Nat} {e : Eff} {g0 : Group} (h : e.Plain) :
    (finished s i len e g0).plateErr = g0.plateErr := by
  unfold finished advance parkLanes
  rw [h.ended, h.parks]
  simp only [if_true, List.foldl_nil]
  split <;> simp only [Group.onLanes_plateErr, takeFaults_plateErr]
theorem finished_halted {s : State} {i : Iss} {len : Nat} {e : Eff} {g0 : Group} (h : e.Plain) :
    (finished s i len e g0).halted = g0.halted := by
  unfold finished advance parkLanes
  rw [h.ended, h.parks]
  simp only [if_true, List.foldl_nil]
  split <;> simp only [Group.onLanes_halted, takeFaults_halted]
theorem finished_haltReq {s : State} {i : Iss} {len : Nat} {e : Eff} {g0 : Group} (h : e.Plain) :
    (finished s i len e g0).haltReq = g0.haltReq := by
  unfold finished advance parkLanes
  rw [h.ended, h.parks]
  simp only [if_true, List.foldl_nil]
  split <;> simp only [Group.onLanes_haltReq, takeFaults_haltReq]
theorem finished_saveReq {s : State} {i : Iss} {len : Nat} {e : Eff} {g0 : Group} (h : e.Plain) :
    (finished s i len e g0).saveReq = g0.saveReq := by
  unfold finished advance parkLanes
  rw [h.ended, h.parks]
  simp only [if_true, List.foldl_nil]
  split <;> simp only [Group.onLanes_saveReq, takeFaults_saveReq]
theorem finished_errReq {s : State} {i : Iss} {len : Nat} {e : Eff} {g0 : Group} (h : e.Plain) :
    (finished s i len e g0).errReq = g0.errReq := by
  unfold finished advance parkLanes
  rw [h.ended, h.parks]
  simp only [if_true, List.foldl_nil]
  split <;> simp only [Group.onLanes_errReq, takeFaults_errReq]
theorem finished_buf {s : State} {i : Iss} {len : Nat} {e : Eff} {g0 : Group} (h : e.Plain) :
    (finished s i len e g0).buf = g0.buf := by
  unfold finished advance parkLanes
  rw [h.ended, h.parks]
  simp only [if_true, List.foldl_nil]
  split <;> simp only [Group.onLanes_buf, takeFaults_buf]
theorem finished_awaits {s : State} {i : Iss} {len : Nat} {e : Eff} {g0 : Group} (h : e.Plain) :
    (finished s i len e g0).awaits = g0.awaits := by
  unfold finished advance parkLanes
  rw [h.ended, h.parks]
  simp only [if_true, List.foldl_nil]
  split <;> simp only [Group.onLanes_awaits, takeFaults_awaits]

/-- A plain effect takes no posting. -/
theorem takeFaults_nil (g0 : Group) (t : Team) (w k : Nat) (pci : BitVec 64) (now : Nat) :
    (takeFaults g0 t w k pci now [] []).2 = [] := by
  unfold takeFaults
  cases t.service <;> simp [mkPosts]

/-- A finished plain effect: the state with its group and the port's run brought forward, and nothing else. -/
theorem finish_plain {s : State} {i : Iss} {len : Nat} {rb : Bool} {e : Eff} {g0 : Group} (hg : s.group? i.key = some g0)
    (h : e.Plain) (ha : ∃ l, l < 32 ∧ (g0.lane l).st ≠ .exited) :
    finish s i len rb e =
      ((s.setGroup i.key (finished s i len e g0)).addPosts []).setPort i.core i.port
        { (s.core i.core).port i.port with
          run := nextRun i (i.run.pc + BitVec.ofNat 64 (4 * len)) rb e (finished s i len e g0) } ∧
    (finished s i len e g0).allExited = false := by
  obtain ⟨l, hl, hs⟩ := ha
  have hx : (finished s i len e g0).allExited = false := by
    refine Group.allExited_false hl ?_
    rw [finished_lane h hl]
    split <;> simpa using hs
  refine ⟨?_, hx⟩
  rw [finish_eq hg h.ended hx, h.traps, h.replays, takeFaults_nil]

end Sys2Proof.Machine
end

