-- ==== Sys2Proof/Laws/Elem.lean ====
section
/-! SUPPORT. Laws of completed instructions: an instruction whose effect is plain completes, and what a vector result leaves
in each element. -/

namespace Sys2Proof

open Sys2Proof.Machine Sys2Proof.Bits

theorem Untouched.refl (s : State) (key : Nat) : Untouched s s key where
  bytes := fun _ _ => rfl
  cores := fun _ => ⟨rfl, rfl, rfl, rfl, rfl, rfl, rfl, rfl⟩
  groups := fun _ _ => rfl
  teams := rfl
  ctxs := rfl
  queues := rfl
  posts := rfl
  remotes := rfl
  convs := rfl
  cycle := rfl

theorem Untouched.trans {s t u : State} {key : Nat} (h : Untouched s t key) (h' : Untouched t u key) : Untouched s u key where
  bytes := fun x a => (h'.bytes x a).trans (h.bytes x a)
  cores := fun c => by
    obtain ⟨a1, a2, a3, a4, a5, a6, a7, a8⟩ := h.cores c
    obtain ⟨b1, b2, b3, b4, b5, b6, b7, b8⟩ := h'.cores c
    exact ⟨b1.trans a1, b2.trans a2, b3.trans a3, b4.trans a4, b5.trans a5, b6.trans a6, b7.trans a7, b8.trans a8⟩
  groups := fun k hk => (h'.groups k hk).trans (h.groups k hk)
  teams := h'.teams.trans h.teams
  ctxs := h'.ctxs.trans h.ctxs
  queues := h'.queues.trans h.queues
  posts := h'.posts.trans h.posts
  remotes := h'.remotes.trans h.remotes
  convs := h'.convs.trans h.convs
  cycle := h'.cycle.trans h.cycle

theorem Untouched.setGroup (s : State) (key : Nat) (g : Group) : Untouched s (s.setGroup key g) key where
  bytes := fun _ _ => rfl
  cores := fun _ => ⟨rfl, rfl, rfl, rfl, rfl, rfl, rfl, rfl⟩
  groups := fun _ hk => State.group?_setGroup_ne _ _ hk
  teams := rfl
  ctxs := rfl
  queues := rfl
  posts := rfl
  remotes := rfl
  convs := rfl
  cycle := rfl

theorem Untouched.meter (s : State) (key w j n : Nat) : Untouched s (s.meter w j n) key where
  bytes := fun _ _ => rfl
  cores := fun _ => ⟨rfl, rfl, rfl, rfl, rfl, rfl, rfl, rfl⟩
  groups := fun _ _ => rfl
  teams := rfl
  ctxs := rfl
  queues := rfl
  posts := rfl
  remotes := rfl
  convs := rfl
  cycle := rfl

theorem Untouched.setRun (s : State) (key c p : Nat) (r : Option Run) :
    Untouched s (s.setPort c p { (s.core c).port p with run := r }) key where
  bytes := fun _ _ => rfl
  cores := fun c' => by
    unfold State.setPort
    rw [State.core_setCore]
    split
    · next h => rw [h.1]; exact ⟨rfl, rfl, rfl, rfl, rfl, rfl, rfl, rfl⟩
    · exact ⟨rfl, rfl, rfl, rfl, rfl, rfl, rfl, rfl⟩
  groups := fun _ _ => rfl
  teams := rfl
  ctxs := rfl
  queues := rfl
  posts := rfl
  remotes := rfl
  convs := rfl
  cycle := rfl

theorem SpecialsKept.refl (g : Group) : SpecialsKept g g := ⟨rfl, rfl, rfl, rfl, rfl, rfl, rfl, rfl, rfl, rfl, rfl, rfl, rfl, rfl⟩

end Sys2Proof

namespace Sys2Proof.Machine

open Sys2Proof.Bits

/-- Registers of a group that `finished` hands on from the body of an instruction. -/
structure RegsOf (x y : Group) : Prop where
  v : x.v = y.v
  g : x.g = y.g
  k : x.k = y.k
  j : x.j = y.j
  fmode : x.fmode = y.fmode
  fmodeNext : x.fmodeNext = y.fmodeNext
  fflags : x.fflags = y.fflags
  awaits : x.awaits = y.awaits

theorem addPosts_nil (s : State) : s.addPosts [] = s := by
  unfold State.addPosts
  rw [List.append_nil]

/-- An instruction whose body leaves the lanes and the special registers of its group, touches nothing outside it, and goes
on plainly, completes. -/
theorem issue_completed {s s1 : State} {i : Iss} {h : Head} {operands : Iss → Bool} {body : Iss → State → State × Eff}
    {e : Eff} {g1 : Group} (hi : s.iss? = some i) (hc : firstCause i h (operands i) = none) (hb : body i s = (s1, e))
    (he : e.Plain) (hj : e.jumps = []) (hr : e.region = false) (hg : s1.group? i.key = some g1) (hl : g1.lanes = i.g.lanes)
    (hk : SpecialsKept i.g g1) (hu : Untouched s s1 i.key) (live : ∃ l, l < 32 ∧ (i.g.lane l).st ≠ .exited) :
    ∃ t g, issue s h operands body = .next t ∧ Completed s t i h.len g ∧ RegsOf g g1 ∧
      ((t.core i.core).port i.port).run =
        (if i.core < s1.cores.length ∧ i.port < (s1.core i.core).ports.length then
          nextRun i (i.run.pc + BitVec.ofNat 64 (4 * h.len)) h.rb e g else ((s1.core i.core).port i.port).run) := by
  have lane : ∀ l, g1.lane l = i.g.lane l := fun l => by unfold Group.lane; rw [hl]
  have live' : ∃ l, l < 32 ∧ (g1.lane l).st ≠ .exited := by
    obtain ⟨l, a, b⟩ := live
    exact ⟨l, a, by rw [lane]; exact b⟩
  obtain ⟨hf, hx⟩ := finish_plain (rb := h.rb) (len := h.len) hg he live'
  rw [issue_next hi hc, hb]
  simp only
  rw [hf, addPosts_nil]
  refine ⟨_, finished s1 i h.len e g1, rfl, ?_, ?_, ?_⟩
  · constructor
    · simp only [State.group?_setPort]
      exact State.group?_setGroup _ hg
    · intro l hl'
      rw [finished_lane he (inSet_lt hl'), if_pos hl']
      simp only [Eff.target, hj, List.find?_nil, Option.map_none, Option.getD_none, lane, and_self]
    · intro l hl'
      rw [finished_lane he hl', hr]
      split <;> simp [lane]
    · intro l hl' hn
      rw [finished_lane he hl', hn]
      simp [lane]
    · constructor
      · rw [finished_gid he, hk.gid]
      · rw [finished_team he, hk.team]
      · rw [finished_budget he, hk.budget]
      · rw [finished_budgetNext he, hk.next]
      · rw [finished_cv he, hk.cv]
      · rw [finished_tmask he, hk.tmask]
      · rw [finished_trapv he, hk.trapv]
      · rw [finished_mon he, hk.mon]
      · rw [finished_actSel he, hk.actSel]
      · rw [finished_plateErr he, hk.plate]
      · rw [finished_halted he, hk.halted]
      · rw [finished_haltReq he, hk.halt]
      · rw [finished_saveReq he, hk.save]
      · rw [finished_errReq he, hk.err]
    · exact (hu.trans (Untouched.setGroup _ _ _)).trans (Untouched.setRun (s1.setGroup i.key _) i.key i.core i.port _)
  · exact ⟨finished_v he, finished_g he, finished_k he, finished_j he, finished_fmode he, finished_fmodeNext he,
      finished_fflags he, finished_awaits he⟩
  · unfold State.setPort
    rw [State.core_setCore]
    simp only [State.setGroup_cores, true_and, State.core_setGroup]
    by_cases h1 : i.core < s1.cores.length
    · simp only [h1, if_true, true_and]
      simp only [Core.port, Core.setPort, List.getD_eq_getElem?_getD, List.getElem?_set]
      by_cases h2 : i.port < (s1.core i.core).ports.length <;> simp [h2]
    · simp [h1]

/-! ## Elements -/

theorem packNat_fld (w : Nat) (l : List Nat) (k : Nat) : packNat w l / 2 ^ (w * k) % 2 ^ w = l.getD k 0 % 2 ^ w := by
  induction l generalizing k with
  | nil => simp [packNat]
  | cons x r ih =>
    have pos : 0 < 2 ^ w := Nat.pos_of_ne_zero (by positivity)
    cases k with
    | zero => simp [packNat, Nat.add_mul_mod_self_left]
    | succ k =>
      have e : 2 ^ (w * (k + 1)) = 2 ^ w * 2 ^ (w * k) := by rw [← pow_add]; ring_nf
      rw [packNat, e, ← Nat.div_div_eq_div_mul]
      have : (x % 2 ^ w + 2 ^ w * packNat w r) / 2 ^ w = packNat w r := by
        rw [Nat.add_mul_div_left _ _ pos, Nat.div_eq_of_lt (Nat.mod_lt _ pos), Nat.zero_add]
      rw [this, ih]
      simp

theorem packNat_lt (w : Nat) (l : List Nat) : packNat w l < 2 ^ (w * l.length) := by
  induction l with
  | nil => simp [packNat]
  | cons x r ih =>
    have pos : 0 < 2 ^ w := Nat.pos_of_ne_zero (by positivity)
    have e : 2 ^ (w * (x :: r).length) = 2 ^ w * 2 ^ (w * r.length) := by
      rw [List.length_cons, ← pow_add]; ring_nf
    rw [packNat, e]
    have := Nat.mod_lt x pos
    nlinarith

/-- An element of a packed register. -/
theorem sube_pack (w k : Nat) (l : List Nat) (h : w * l.length ≤ 64) : sube w k (pack w l) = l.getD k 0 % 2 ^ w := by
  unfold sube pack fld
  rw [BitVec.toNat_ofNat, Nat.mod_eq_of_lt (lt_of_lt_of_le (packNat_lt w l) (Nat.pow_le_pow_right (by norm_num) h)),
    Nat.shiftRight_eq_div_pow, packNat_fld]

theorem tyW_mul_tyP (ty : Nat) : tyW ty * tyP ty = 64 := by
  unfold tyP tyW
  split <;> rfl

/-- The value of a vector result in each register, lane and element. -/
theorem vget_writeDst (g : Group) (e : Eff) (d r : Nat) (nw : Bool) (m : LaneSet) (res : Nat → BitVec 64) {l : Nat} (h : l < 32) :
    (writeDst g e d nw m res).1.vget r l = if r = d ∧ inSet (if nw then 0 else m) l = true then res l else g.vget r l := by
  unfold writeDst
  cases nw
  · simp only [Bool.false_eq_true, if_false]
    rw [Group.vget_vset _ _ _ _ _ h]
  · simp only [if_true, inSet_zero, Bool.false_eq_true, and_false, if_false]

theorem Group.vget_congr {g g' : Group} (h : g.v = g'.v) (r l : Nat) : g.vget r l = g'.vget r l := by
  unfold Group.vget; rw [h]

theorem writeDst_same (g : Group) (e : Eff) (d : Nat) (nw : Bool) (m : LaneSet) (res : Nat → BitVec 64) :
    { (writeDst g e d nw m res).1 with v := [] } = { g with v := [] } := by
  unfold writeDst
  cases nw <;> rfl

/-- A vector instruction (R42 `WriteDst`) completes: its destination takes the results in the active lanes, the flags
accumulate (R169), its latches shift (R145), and nothing else changes. -/
theorem vec_completed {s : State} {i : Iss} {h : Head} {operands : Iss → Bool} {d guard n : Nat} {nw : Bool}
    {f : Iss → LaneSet → List (BitVec 64) × Flags} (hi : s.iss? = some i) (hc : firstCause i h (operands i) = none)
    (live : ∃ l, l < 32 ∧ (i.g.lane l).st ≠ .exited) :
    ∃ t g, issue s h operands (vecResult d guard nw n f) = .next t ∧ Completed s t i h.len g ∧
      (∀ r l, l < 32 → g.vget r l =
        if r = d ∧ inSet (written i guard nw) l = true then (f i (i.act guard)).1.getD l 0 else i.g.vget r l) ∧
      g.fflags = (if i.modes.nf then i.g.fflags else i.g.fflags ||| (f i (i.act guard)).2) ∧
      g.g = i.g.g ∧ g.k = i.g.k ∧ g.j = i.g.j ∧ g.fmode = i.g.fmode ∧ g.fmodeNext = i.g.fmodeNext ∧ g.awaits = i.g.awaits := by
  have hg := State.iss?_group hi
  set w := writeDst i.g i.eff d nw (i.act guard) (fun l => (f i (i.act guard)).1.getD l 0) with hw
  have hs := writeDst_same i.g i.eff d nw (i.act guard) (fun l => (f i (i.act guard)).1.getD l 0)
  rw [← hw] at hs
  have hraise : ∀ (g : Group) (m : Modes) (x : Flags), { g.raise m x with fflags := 0, csrd := [] } = { g with fflags := 0, csrd := [] } := by
    intro g m x; unfold Group.raise; cases m.nf <;> rfl
  have hsame : { w.1.raise i.modes (f i (i.act guard)).2 with v := [], fflags := 0, csrd := [] } =
      { i.g with v := [], fflags := 0, csrd := [] } := by
    have a := congrArg (fun g : Group => { g with v := [] }) (hraise w.1 i.modes (f i (i.act guard)).2)
    have b := congrArg (fun g : Group => { g with fflags := 0, csrd := [] }) hs
    exact a.trans b
  have eff : w.2 = i.eff.shift (i.act guard) (fun l => (f i (i.act guard)).1.getD l 0) := rfl
  have hb : vecResult d guard nw n f i s =
      ((s.countOps i (i.act guard) n).setGroup i.key (w.1.raise i.modes (f i (i.act guard)).2), w.2) := rfl
  obtain ⟨t, g, h1, h2, h3, -⟩ := issue_completed (operands := operands) hi hc hb (g1 := w.1.raise i.modes (f i (i.act guard)).2)
    (by rw [eff]; exact ⟨rfl, rfl, rfl, rfl, rfl⟩) (by rw [eff]; rfl) (by rw [eff]; rfl)
    (State.group?_setGroup _ (by simpa [State.countOps] using hg)) (congrArg Group.lanes hsame :)
    ⟨(congrArg Group.gid hsame :), (congrArg Group.team hsame :), (congrArg Group.budget hsame :),
      (congrArg Group.budgetNext hsame :), (congrArg Group.cv hsame :), (congrArg Group.tmask hsame :),
      (congrArg Group.trapv hsame :), (congrArg Group.mon hsame :), (congrArg Group.actSel hsame :),
      (congrArg Group.plateErr hsame :), (congrArg Group.halted hsame :), (congrArg Group.haltReq hsame :),
      (congrArg Group.saveReq hsame :), (congrArg Group.errReq hsame :)⟩
    ((Untouched.meter s i.key _ _ _).trans (Untouched.setGroup _ _ _)) live
  have hv : (w.1.raise i.modes (f i (i.act guard)).2).v = w.1.v := by unfold Group.raise; cases i.modes.nf <;> rfl
  refine ⟨t, g, h1, h2, ?_, ?_, h3.g.trans (congrArg Group.g hsame :), h3.k.trans (congrArg Group.k hsame :),
    h3.j.trans (congrArg Group.j hsame :), h3.fmode.trans (congrArg Group.fmode hsame :),
    h3.fmodeNext.trans (congrArg Group.fmodeNext hsame :), h3.awaits.trans (congrArg Group.awaits hsame :)⟩
  · intro r l hl
    rw [Group.vget_congr (h3.v.trans hv), hw, vget_writeDst _ _ _ _ _ _ _ hl]
    rfl
  · have : w.1.fflags = i.g.fflags := (congrArg Group.fflags hs :)
    rw [h3.fflags]
    unfold Group.raise
    cases i.modes.nf <;> simp [this]

/-- The same, with the frame as `VecDone`. -/
theorem vec_done {s : State} {i : Iss} {h : Head} {operands : Iss → Bool} {d guard n : Nat} {nw : Bool}
    {f : Iss → LaneSet → List (BitVec 64) × Flags} (hi : s.iss? = some i) (hc : firstCause i h (operands i) = none)
    (live : ∃ l, l < 32 ∧ (i.g.lane l).st ≠ .exited) :
    ∃ t g, issue s h operands (vecResult d guard nw n f) = .next t ∧ VecDone s t i h.len g d guard nw ∧
      (∀ l, inSet (written i guard nw) l = true → g.vget d l = (f i (i.act guard)).1.getD l 0) ∧
      g.fflags = (if i.modes.nf then i.g.fflags else i.g.fflags ||| (f i (i.act guard)).2) := by
  obtain ⟨t, g, h1, h2, h3, h4, h5, h6, h7, h8, h9, h10⟩ := vec_completed (operands := operands) (d := d) (guard := guard)
    (n := n) (nw := nw) (f := f) hi hc live
  refine ⟨t, g, h1, ⟨h2, ?_, h5, h6, h7, h8, h9, h10⟩, ?_, h4⟩
  · intro r l hl hr
    rw [h3 r l hl, if_neg]
    rintro ⟨rfl, hm⟩
    rcases hr with hr | hr
    · exact hr rfl
    · rw [hr] at hm; cases hm
  · intro l hm
    rw [h3 d l (inSet_lt hm), if_pos ⟨rfl, hm⟩]

theorem eltwise_fst (i : Iss) (ty : Nat) (m : LaneSet) (l : List TySrc) (op : EltOp) {lane : Nat} (h : inSet m lane = true) :
    (eltwise i ty m l op).1.getD lane 0 = pack (tyW ty) ((List.range (tyP ty)).map fun k =>
      (op i.modes ty (lane + 32 * k) (elt i l 0 lane k) (elt i l 1 lane k) (elt i l 2 lane k)).1) := by
  have hl := inSet_lt h
  simp only [eltwise, lanes32, List.map_map, List.getD_eq_getElem?_getD, List.getElem?_map, List.getElem?_range hl,
    Option.map_some, Option.getD_some, Function.comp_apply, h, if_true]
  rfl

theorem mem_written {i : Iss} {guard : Nat} {nw : Bool} {l : Nat} (h : inSet (written i guard nw) l = true) :
    nw = false ∧ inSet (i.act guard) l = true := by
  unfold written at h
  cases nw
  · exact ⟨rfl, h⟩
  · simp only [if_true, inSet_zero] at h; cases h

/-- Every element of an element-by-element result. -/
theorem arith_done {s : State} {i : Iss} {h : Head} {d guard ty : Nat} {nw fma : Bool} {l : List TySrc} {op : EltOp}
    (hi : s.iss? = some i) (hc : firstCause i h (dvOk d i.g.budget && tySrcsOk i l) = none)
    (live : ∃ l, l < 32 ∧ (i.g.lane l).st ≠ .exited) :
    ∃ t g, arith s h d guard ty nw fma l op = .next t ∧ VecDone s t i h.len g d guard nw ∧
      (∀ lane k, inSet (written i guard nw) lane = true → k < tyP ty → sube (tyW ty) k (g.vget d lane) =
        (op i.modes ty (lane + 32 * k) (elt i l 0 lane k) (elt i l 1 lane k) (elt i l 2 lane k)).1 % 2 ^ tyW ty) ∧
      g.fflags = (if i.modes.nf then i.g.fflags else i.g.fflags ||| (eltwise i ty (i.act guard) l op).2) := by
  obtain ⟨t, g, h1, h2, h3, h4⟩ := vec_done (operands := fun i => dvOk d i.g.budget && tySrcsOk i l) (d := d) (guard := guard)
    (n := if fma then 2 * tyP ty else tyP ty) (nw := nw) (f := fun i m => eltwise i ty m l op) hi hc live
  refine ⟨t, g, h1, h2, ?_, h4⟩
  intro lane k hm hk
  rw [h3 lane hm, eltwise_fst i ty _ l op (mem_written hm).2, sube_pack]
  · simp [hk]
  · rw [List.length_map, List.length_range, tyW_mul_tyP]

/-- A union of flags holds a bit where some member does. -/
theorem orFlags_getLsbD (l : List Flags) (b : Nat) : (orFlags l).getLsbD b = l.any fun f => f.getLsbD b := by
  have gen : ∀ (l : List Flags) (a : Flags), (l.foldl (· ||| ·) a).getLsbD b = (a.getLsbD b || l.any fun f => f.getLsbD b) := by
    intro l
    induction l with
    | nil => intro a; simp
    | cons x r ih => intro a; simp [ih, Bool.or_assoc]
  unfold orFlags
  rw [gen]
  simp

/-- The flags of an element-by-element result: those of the elements of active lanes (R169). -/
theorem eltwise_snd (i : Iss) (ty : Nat) (m : LaneSet) (l : List TySrc) (op : EltOp) (b : Nat) :
    (eltwise i ty m l op).2.getLsbD b = true ↔ ∃ lane k, inSet m lane = true ∧ k < tyP ty ∧
      (op i.modes ty (lane + 32 * k) (elt i l 0 lane k) (elt i l 1 lane k) (elt i l 2 lane k)).2.getLsbD b = true := by
  simp only [eltwise, orFlags_getLsbD, List.any_flatMap, List.any_map, List.any_eq_true, lanes32, List.mem_range, Function.comp_apply]
  constructor
  · rintro ⟨lane, hl, h⟩
    by_cases hm : inSet m lane = true
    · simp only [hm, if_true, List.mem_map, List.mem_range] at h
      obtain ⟨x, ⟨k, hk, rfl⟩, hb⟩ := h
      exact ⟨lane, k, hm, hk, hb⟩
    · simp only [hm] at h; simp at h
  · rintro ⟨lane, k, hm, hk, hb⟩
    refine ⟨lane, inSet_lt hm, ?_⟩
    simp only [hm, if_true, List.mem_map, List.mem_range]
    exact ⟨_, ⟨k, hk, rfl⟩, hb⟩

/-! ## Issuing with the checks passed -/

theorem issues_check {s : State} {i : Iss} {k : PfxClass} {srcs : List Src} (h : Issues s i k srcs) {hd : Head} {ok : Bool}
    (hb : hd.bad = false) (hn : (hd.nw && !hd.vdst) = false) (hp : hd.priv = .user) (hx : hd.pfx = k) (hq : hd.badPair = false)
    (hl : hd.latches = srcs.flatMap Src.latchNo) (ho : ok = true) : firstCause i hd ok = none := by
  refine firstCause_none h.room hb hn (by rw [hp]; rfl) (by rw [hx]; exact h.pfx) ho hq ?_
  rw [hl]
  intro n hn
  obtain ⟨x, hx, hn⟩ := List.mem_flatMap.mp hn
  exact (h.src x hx).2 n hn

theorem issues_srcsOk {s : State} {i : Iss} {k : PfxClass} {srcs : List Src} (h : Issues s i k srcs) : srcsOk i srcs = true := by
  unfold srcsOk
  rw [List.all_eq_true]
  exact fun x hx => (h.src x hx).1

theorem issues_tySrcsOk {s : State} {i : Iss} {k : PfxClass} {srcs : List Src} (h : Issues s i k srcs) {ty : Nat}
    (hi : ∀ x ∈ srcs, x.isImm = true → immOk ty = true) : tySrcsOk i (srcs.map fun x => (x, ty)) = true := by
  unfold tySrcsOk
  rw [List.all_map, List.all_eq_true]
  intro x hx
  simp only [Function.comp_apply, (h.src x hx).1, Bool.true_and, Bool.or_eq_true, Bool.not_eq_true']
  cases e : x.isImm
  · exact Or.inl rfl
  · exact Or.inr (hi x hx e)

/-- A sub-element of a used source, and 0 for one that is not used. -/
theorem elt_map (i : Iss) (srcs : List Src) (ty n l k : Nat) : elt i (srcs.map fun x => (x, ty)) n l k = srcElem i srcs ty n l k := by
  unfold elt srcElem
  rw [List.getElem?_map, List.getD_eq_getElem?_getD]
  cases srcs[n]? with
  | some x => rfl
  | none =>
    simp only [Option.map_none, Option.getD_none, Iss.read]
    simp [sube, fld]

theorem headM_latches (f : FmtM) (v b : Bool) (k : PfxClass) (l : List Src) : (headM f v b k l).latches = l.flatMap Src.latchNo := rfl

end Sys2Proof.Machine
end

