-- ==== Sys2Proof/Laws/Links.lean ====
section
/-! SUPPORT. What a link's sending keeps: its retry buffer never holds more than 1,024 flits, and a link that has nothing waiting and no slot
to change sends nothing of its own; and the wait of a CSRD that is over. -/

namespace Sys2Proof.Machine

/-! A flit sent changes only the sending keys, the wire and, where it is sequenced, the buffer and the next SEQ. -/

theorem Link.turnSlot_retry (l : Link) : l.turnSlot.retry = l.retry := by unfold Link.turnSlot; split <;> rfl
theorem Link.emit_retry (l : Link) (id : Nat × Bool) (ty : Nat) (seq : BitVec 24) (p : List Byte) : (l.emit id ty seq p).retry = l.retry := by
  simp [Link.emit, Link.turnSlot_retry]
theorem Link.sequence_retry (l : Link) (id : Nat × Bool) (ks : Bool) (p : List Byte) :
    (l.sequence id ks p).retry = l.retry ++ [{ seq := l.txSeq, ks := ks, payload := p }] := by
  simp [Link.sequence]

theorem Link.sequence_bound {l : Link} (h : l.room = true) (id : Nat × Bool) (ks : Bool) (p : List Byte) :
    (l.sequence id ks p).retry.length ≤ retryLimit := by
  rw [Link.sequence_retry]
  simp only [Link.room, decide_eq_true_eq] at h
  simpa using h

theorem Link.settleSwitch_bound {l : Link} (h : l.retry.length ≤ retryLimit) (id : Nat × Bool) :
    (l.settleSwitch id).retry.length ≤ retryLimit := by
  unfold Link.settleSwitch
  split
  · rename_i hc
    simp only [Bool.and_eq_true] at hc
    refine Link.sequence_bound (l := { l.turnSlot with ksOwed := false }) ?_ id true []
    simpa [Link.room, Link.turnSlot_retry] using hc.2
  · rw [Link.turnSlot_retry]; exact h

/-- Payloads that leave keep the retry buffer within its limit (R297). -/
theorem Link.sendAll_bound (id : Nat × Bool) : ∀ (ps : List (List Byte)) (l : Link), l.retry.length ≤ retryLimit →
    (Link.sendAll id ps l).retry.length ≤ retryLimit
  | [], _, h => h
  | p :: r, l, h => by
    unfold Link.sendAll
    dsimp only
    split
    · exact Link.settleSwitch_bound h id
    · rename_i hc
      simp only [Bool.or_eq_true, Bool.not_eq_true', not_or, Bool.not_eq_false, Bool.not_eq_true] at hc
      exact Link.sendAll_bound id r _ (Link.sequence_bound hc.2 id false p)

theorem Link.pump_bound {l : Link} (h : l.retry.length ≤ retryLimit) (id : Nat × Bool) : (l.pump id).retry.length ≤ retryLimit :=
  Link.sendAll_bound id _ _ (Link.settleSwitch_bound (l := { l with sendq := [] }) h id)

theorem Link.sendData_bound {l : Link} (h : l.retry.length ≤ retryLimit) (id : Nat × Bool) (p : List Byte) :
    (l.sendData id p).retry.length ≤ retryLimit :=
  Link.pump_bound (l := { l with sendq := l.sendq ++ [p] }) h id

/-- A link with nothing that waits for room and no slot to change sends nothing of its own. -/
theorem Link.pump_of_settled {l : Link} (hq : l.sendq = []) (hk : l.ksOwed = false) (hs : l.spent = false) (id : Nat × Bool) : l.pump id = l := by
  have he : ({ l with sendq := [] } : Link) = l := by cases l; simp_all
  have ht : l.turnSlot = l := by unfold Link.turnSlot; rw [hs]; rfl
  unfold Link.pump Link.settleSwitch
  rw [hq, he, ht, hk]
  rfl

/-- No CSRD of FFLAGS waits: reading a register ends no wait (R169). -/
theorem State.readSettle_of_none {s : State} {i : Instr} (h : ∀ x, s.iss? = some x → x.g.csrd = []) : s.readSettle i = s := by
  unfold State.readSettle
  cases e : s.iss? with
  | none => rfl
  | some x => simp [h x e]

end Sys2Proof.Machine
end

