-- ==== Sys2Proof/Laws/Memory.lean ====
section
/-! SUPPORT. Laws of memory: every operation keeps the canonical form of every memory, what a write leaves, and that the machine
after reset has canonical memories. -/

namespace Sys2Proof.Machine

open Sys2Proof.Bits

/-- Every memory of a state is canonical: this device's, the host's, and those of the peers. -/
def MemoriesWf (s : State) : Prop :=
  Memory.wf s.mem = true ∧ Memory.wf s.hostMem = true ∧ ∀ p ∈ s.peers, Memory.wf p.mem = true

theorem reset_memoriesWf : MemoriesWf State.reset := by
  refine ⟨rfl, rfl, ?_⟩
  intro p hp
  cases hp

/-- Only the memories matter. -/
theorem MemoriesWf.of_eq {s t : State} (h : MemoriesWf s) (hm : t.mem = s.mem) (hh : t.hostMem = s.hostMem) (hp : t.peers = s.peers) :
    MemoriesWf t := by
  unfold MemoriesWf
  rw [hm, hh, hp]
  exact h

theorem State.bytesOf_wf {s : State} (h : MemoriesWf s) (space : Nat) : Memory.wf (s.bytesOf space) = true := by
  unfold State.bytesOf
  split
  · exact h.1
  · exact h.2.1
  · next n =>
    unfold State.peer?
    cases hf : s.peers.find? fun p => p.num == n with
    | none => simp [Memory.wf]
    | some p => exact h.2.2 p (List.mem_of_find?_eq_some hf)

theorem State.setBytes_wf {s : State} (h : MemoriesWf s) (space : Nat) (m : Memory) (hm : Memory.wf m = true) :
    MemoriesWf (s.setBytes space m) := by
  unfold State.setBytes
  split
  · exact ⟨hm, h.2.1, h.2.2⟩
  · exact ⟨h.1, hm, h.2.2⟩
  · refine ⟨h.1, h.2.1, ?_⟩
    intro p hp
    simp only [List.mem_map] at hp
    obtain ⟨q, hq, rfl⟩ := hp
    split
    · exact hm
    · exact h.2.2 q hq

/-- A response changes no memory: only what the links send and what is kept of it. -/
theorem State.respond_mem (s : State) (src world : Nat) (seq : BitVec 32) (data : List Byte) (cause : BitVec 8) :
    (s.respond src world seq data cause).mem = s.mem ∧ (s.respond src world seq data cause).hostMem = s.hostMem ∧
      (s.respond src world seq data cause).peers = s.peers := by
  unfold State.respond State.sendTo
  simp only
  split <;> exact ⟨rfl, rfl, rfl⟩

/-- The answers to peers' waits change no memory. -/
theorem State.answerMons_mem (s : State) (pa n : Nat) :
    (s.answerMons pa n).mem = s.mem ∧ (s.answerMons pa n).hostMem = s.hostMem ∧ (s.answerMons pa n).peers = s.peers := by
  have key : ∀ (l : List PeerMon) (a : State),
      let r := l.foldl (fun a m => match m.wait with
        | some (q, p, w) => a.respond m.src m.world q (a.readBytes spLocal p w) 0
        | none => a) a
      r.mem = a.mem ∧ r.hostMem = a.hostMem ∧ r.peers = a.peers := by
    intro l
    induction l with
    | nil => intro a; exact ⟨rfl, rfl, rfl⟩
    | cons m r ih =>
      intro a
      simp only [List.foldl_cons]
      cases m.wait with
      | none => exact ih a
      | some x =>
        have h := State.respond_mem a m.src m.world x.1 (a.readBytes spLocal x.2.1 x.2.2) 0
        have k := ih (a.respond m.src m.world x.1 (a.readBytes spLocal x.2.1 x.2.2) 0)
        exact ⟨k.1.trans h.1, k.2.1.trans h.2.1, k.2.2.trans h.2.2⟩
  unfold State.answerMons
  split
  · exact ⟨rfl, rfl, rfl⟩
  · exact key _ _

/-- A write's wakes change no memory. -/
theorem State.touch_mem (s : State) (space pa n : Nat) :
    (s.touch space pa n).mem = s.mem ∧ (s.touch space pa n).hostMem = s.hostMem ∧ (s.touch space pa n).peers = s.peers := by
  have h : ∀ (c : Prop) [Decidable c] (x y : State), x.mem = y.mem ∧ x.hostMem = y.hostMem ∧ x.peers = y.peers →
      (if c then x else y).mem = y.mem ∧ (if c then x else y).hostMem = y.hostMem ∧ (if c then x else y).peers = y.peers := by
    intro c _ x y e
    split
    · exact e
    · exact ⟨rfl, rfl, rfl⟩
  unfold State.touch State.mapGroups
  simp only
  have h0 := h (space = spLocal ∧ s.pubs ≠ [])
    { s with pubs := s.pubs.filter fun p => !(decide (p.1 * 64 < pa + n) && decide (pa < p.1 * 64 + 8)) } s ⟨rfl, rfl, rfl⟩
  have h1 := h (space = spLocal) _ _ (State.answerMons_mem (if space = spLocal ∧ s.pubs ≠ [] then
    { s with pubs := s.pubs.filter fun p => !(decide (p.1 * 64 < pa + n) && decide (pa < p.1 * 64 + 8)) } else s) pa n)
  exact ⟨h1.1.trans h0.1, h1.2.1.trans h0.2.1, h1.2.2.trans h0.2.2⟩

theorem State.touch_wf {s : State} (h : MemoriesWf s) (space pa n : Nat) : MemoriesWf (s.touch space pa n) :=
  h.of_eq (s.touch_mem space pa n).1 (s.touch_mem space pa n).2.1 (s.touch_mem space pa n).2.2

theorem setCleared_wf (m : Memory) (h : Memory.wf m = true) (pa : Nat) (b : Bool) : Memory.wf (setCleared m pa b) = true :=
  sparseWf_sset m _ _ h

theorem potWrite_wf (m : Memory) (h : Memory.wf m = true) (pa e : Nat) : Memory.wf (potWrite m pa e) = true :=
  sparseWf_sput m _ _ h

theorem State.fillPage_wf {s : State} (h : MemoriesWf s) (space pa : Nat) : MemoriesWf (s.fillPage space pa) := by
  have hb := State.setBytes_wf h space (setCleared (sclear (s.bytesOf space) (pa / 65536 * 65536) 65536) pa false)
    (setCleared_wf _ (sparseWf_sclear _ _ _ (State.bytesOf_wf h space)) _ _)
  unfold State.fillPage
  by_cases hc : (decide (space ≠ spHost) && clearedBit (s.bytesOf space) pa) = true
  · by_cases hl : space = spLocal
    · subst hl
      simp only [hc, if_true]
      exact hb.of_eq rfl rfl rfl
    · simp only [hc, if_true, hl, if_false]
      exact hb
  · simp only [hc]
    exact h

theorem State.ite_wf (c : Prop) [Decidable c] {s t : State} (h : MemoriesWf s) (h' : MemoriesWf t) : MemoriesWf (if c then s else t) := by
  split
  · exact h
  · exact h'

theorem State.poke_wf {s : State} (h : MemoriesWf s) (space pa : Nat) (bs : List Byte) : MemoriesWf (s.poke space pa bs) := by
  have hf := State.fillPage_wf h space pa
  have key : ∀ t : State, MemoriesWf t →
      MemoriesWf ((t.setBytes space (sput (t.bytesOf space) pa bs)).touch space pa bs.length) := fun t ht =>
    State.touch_wf (State.setBytes_wf ht space _ (sparseWf_sput _ _ _ (State.bytesOf_wf ht space))) _ _ _
  unfold State.poke
  exact key _ (State.ite_wf _ (State.fillPage_wf hf _ _) hf)

/-- A fold of steps that each keep the memories canonical keeps them so. -/
theorem foldl_wf {α : Type} (f : State → α → State) (hf : ∀ s x, MemoriesWf s → MemoriesWf (f s x)) (l : List α) (s : State)
    (h : MemoriesWf s) : MemoriesWf (l.foldl f s) := by
  induction l generalizing s with
  | nil => exact h
  | cons x r ih => exact ih (f s x) (hf s x h)

theorem State.storeLocal_wf {s : State} (h : MemoriesWf s) (cs : List (Nat × List Byte)) : MemoriesWf (s.storeLocal cs).1 := by
  unfold State.storeLocal
  split
  · exact MemoriesWf.of_eq (foldl_wf _ (fun a c ha => State.poke_wf ha _ _ _) cs s h) rfl rfl rfl
  · refine MemoriesWf.of_eq (s := _) (foldl_wf _ (fun a c ha => ?_) _ _ (foldl_wf _ (fun a c ha => State.fillPage_wf ha _ _) _ _ h)) rfl rfl rfl
    refine foldl_wf _ (fun b i hb => ?_) _ _ ha
    exact State.ite_wf _ (State.poke_wf hb _ _ _) hb

theorem State.writeBytes_wf {s : State} (h : MemoriesWf s) (space pa : Nat) (bs : List Byte) :
    MemoriesWf (s.writeBytes space pa bs) := State.ite_wf _ (State.storeLocal_wf h _) (State.poke_wf h _ _ _)

/-- A write of the device's own, with what it costs, keeps the memories canonical. -/
theorem State.devWrite_wf {s : State} (h : MemoriesWf s) (world pa : Nat) (bs : List Byte) : MemoriesWf (s.devWrite world pa bs) :=
  have k := CostsOnly.wroteLocal s world s.nocPort 0 [(pa, bs.length)]
  State.writeBytes_wf (h.of_eq k.mem k.hostMem k.peers) _ _ _

theorem State.ringPut_wf {s : State} (h : MemoriesWf s) (world pa : Nat) (bs : List Byte) : MemoriesWf (s.ringPut world pa bs) :=
  State.ite_wf _ (State.devWrite_wf h _ _ _) h

theorem State.writeNat_wf {s : State} (h : MemoriesWf s) (space pa n x : Nat) : MemoriesWf (s.writeNat space pa n x) :=
  State.writeBytes_wf h space pa _

/-- A write of bytes that meets no cleared page puts them at their address and changes no other byte of local memory. -/
theorem State.poke_local (s : State) (pa : Nat) (bs : List Byte) (h1 : clearedBit s.mem pa = false)
    (h2 : clearedBit s.mem (pa + inPage pa bs.length) = false) : (s.poke spLocal pa bs).mem = sput s.mem pa bs := by
  have f1 : s.fillPage 0 pa = s := by simp [State.fillPage, State.bytesOf, h1]
  have f2 : s.fillPage 0 (pa + inPage pa bs.length) = s := by simp [State.fillPage, State.bytesOf, h2]
  unfold State.poke
  simp only [f1, f2, ite_self]
  rw [(State.touch_mem _ _ _ _).1]
  rfl

/-- So does a write through the error correction where no sector and no line is in error (R92, R93). -/
theorem State.writeBytes_local (s : State) (pa : Nat) (bs : List Byte) (h1 : clearedBit s.mem pa = false)
    (h2 : clearedBit s.mem (pa + inPage pa bs.length) = false) (he : s.eccBad = []) (ht : s.tagBad = []) :
    (s.writeBytes spLocal pa bs).mem = sput s.mem pa bs := by
  unfold State.writeBytes State.storeLocal
  simp only [he, ht, and_self, if_true, List.foldl_cons, List.foldl_nil]
  exact State.poke_local s pa bs h1 h2

/-! ## The L1 is no part of memory -/

/-- A core's L1 lines leave without a change of any space. -/
theorem State.bytesOf_l1Age (s : State) (core : Nat) (locs : List (Nat × Nat)) (space : Nat) :
    (s.l1Age core locs).bytesOf space = s.bytesOf space := by
  induction locs generalizing s with
  | nil => rfl
  | cons x r ih =>
    show (List.foldl _ (if _ then s.l1Drop core (locKey x.1 x.2) else s) r).bytesOf space = s.bytesOf space
    split
    · exact ih (s.l1Drop core (locKey x.1 x.2))
    · exact ih s

/-- A load of scope .dev or wider reads the bytes of its space, whatever lines the L1 has lost. -/
theorem State.loadBytes_l1Settle (s : State) (core : Nat) (ls : List LaneLoc) {scope : Nat} (h : 2 ≤ scope) (space pa n : Nat) :
    (s.l1Settle core ls).loadBytes core scope space pa n = s.readBytes space pa n := by
  unfold State.loadBytes
  rw [if_neg (by omega)]
  unfold State.readBytes State.l1Settle
  rw [State.bytesOf_l1Age]

end Sys2Proof.Machine
end

