-- ==== Sys2Proof/Tests/Lab.lean ====
section
/-! SUPPORT. Small concrete states for the tests and the witnesses: one group of one team of one context of world 1 on
core 0, port 0, with page tables that map plain addresses and window addresses onto local memory. -/

namespace Sys2Proof.Tests

open Sys2Proof Sys2Proof.Machine Sys2Proof.Bits

set_option Elab.async false

/-! ## Operands -/

/-- A source field: v_n, g_n, an immediate, %zero, %lane. -/
def v (n : Nat) : BitVec 10 := BitVec.ofNat 10 n
def g (n : Nat) : BitVec 10 := BitVec.ofNat 10 (512 + n)
def imm (x : Int) : BitVec 10 := BitVec.ofNat 10 (640 + (x % 128).toNat)
def zero : BitVec 10 := 784
def lane : BitVec 10 := 785

/-- Operands of format M: destination, A, B, C and TY, under guard k0. -/
def fm (d : Nat) (a b c : BitVec 10) (ty : Nat) : FmtM :=
  { rb := false, nw := false, d := BitVec.ofNat _ d, a := a, g := 0, b := b, c := c, ty := BitVec.ofNat _ ty }

/-- Operands of format W at scope .dev, not ordered. -/
def fw (d : Nat) (a b c : BitVec 10) (ty aux : Nat) (off : Int) : FmtW :=
  { m := fm d a b c ty, scope := 2, ord := 0, promo := false, hint := 0, aux := BitVec.ofNat _ aux, imm := BitVec.ofInt _ off }

def lastM (f : FmtM) : FmtM := { f with rb := true }
def lastW (f : FmtW) : FmtW := { f with m := { f.m with rb := true } }
def ordW (f : FmtW) (scope ord : Nat) : FmtW := { f with scope := BitVec.ofNat _ scope, ord := BitVec.ofNat _ ord }

/-- The same under guard k1. -/
def gM (f : FmtM) : FmtM := { f with g := 1 }
def gW (f : FmtW) : FmtW := { f with m := gM f.m }

/-! ## Memory -/

/-- A leaf for user code, data and stores in local memory at PA 0, with a ROT index. -/
def leaf (rot : Nat) : Nat := 0x1F + 0xFF * 2 ^ 56 + rot * 2 ^ 64 + 2 ^ 84

/-- A ROT entry of the lab: objects 7, 8 and 9 of realm 5, LIVE, every right. -/
def rot (idx kind base size : Nat) : RotEnt :=
  { idx := idx, obj := 7 + idx, hold := 1, realm := 5, rights := 15, kind := kind, policy := 0, st := 1, base := base, size := size }

/-- The window address at an offset in the lab's code object, its conversation object and its graph. -/
def codeAt (off : Nat) : Nat := Config.windowBase + off
def convAt (off : Nat) : Nat := Config.windowBase + 2 ^ 29 + off
def dataAt (off : Nat) : Nat := Config.windowBase + 2 ^ 30 + off

/-- Page 1 holds the tables: three levels for the plain span and three for the window, whose leaves all lead to PA 0. Page
2 is world 1's; page 3, the ROT and the rings, is its SYSTEM page. -/
def labMem : Memory :=
  [(0x10000, toBytes 16 0x12001), (0x12000, toBytes 16 0x14001), (0x14000, toBytes 16 (leaf 0)),
   (0x16000, toBytes 16 0x18001), (0x18000, toBytes 16 0x1A001), (0x1A000, toBytes 16 (leaf 0)), (0x1A010, toBytes 16 (leaf 1)),
   (0x1A020, toBytes 16 (leaf 2)),
   (0x30000, (rot 0 1 (codeAt 0) 0x100000).bytes), (0x30020, (rot 1 2 (convAt 0x20000) 0x4640).bytes),
   (0x30040, (rot 2 3 (dataAt 0x20000) 0x10000).bytes),
   (Config.potBase + 4, toBytes 4 0x10200), (Config.potBase + 8, toBytes 4 0x10100),
   (Config.potBase + 12, toBytes 4 0x10200)].flatMap fun x => scells x.1 x.2

/-! ## States -/

def labCtx : Context :=
  { fetchCtx with proot := 0x10000, wroot := 0x16000, rotBase := 0x30000, rotLog2 := 4,
                  realms := [{ realm := 5, log2n := 4, valid := true, dirBase := 0x30400 }] }

/-- A group with 48 blocks whose 32 lanes are READY at `fetchPc`, and these uniform registers. -/
def labGroup (u : List (Nat × BitVec 64)) : Group := { fetchGroup [] with g := u }

/-- Core 0 while port 0 issues the first instruction of a run. -/
def labCore : Core := { Core.fresh with ports := { Port.fresh with run := some fetchRun } :: List.replicate 3 Port.fresh, world := some 1 }

/-- The device while that group issues. -/
def labOf (x : Group) (t : Team) (c : Context) (k : Core) : State :=
  { State.reset with mem := labMem, turn := some (0, 0), groups := [(0, x)], teams := [t], ctxs := [c],
                     cores := k :: List.replicate 191 Core.fresh }

/-- The lab with uniform registers. -/
def lab (u : List (Nat × BitVec 64)) : State := labOf (labGroup u) fetchTeam labCtx labCore

/-- The lab with another group, team, context or core. -/
def labG (x : Group) : State := labOf x fetchTeam labCtx labCore
def labT (u : List (Nat × BitVec 64)) (t : Team) : State := labOf (labGroup u) t labCtx labCore
def labC (u : List (Nat × BitVec 64)) (c : Context) : State := labOf (labGroup u) fetchTeam c labCore
def labK (u : List (Nat × BitVec 64)) (k : Core) : State := labOf (labGroup u) fetchTeam labCtx k

/-- The issue of such a state. -/
def issOf (s : State) : Iss :=
  match s.iss? with
  | some i => i
  | none => { core := 0, port := 0, key := 0, g := fetchGroup [], t := fetchTeam, c := labCtx, run := fetchRun, pci := fetchPc, now := 0 }

/-- Whether a state issues with its checks passed. -/
def issuesB (s : State) (k : PfxClass) (srcs : List Src) : Bool :=
  match s.iss? with
  | none => false
  | some i =>
    decide (i.run.count < Config.runLimit) && !i.pfxRefused k &&
    (srcs.all fun x => x.ok i.g.budget && x.latchNo.all fun n => decide (n ≤ i.run.filled)) &&
    lanes32.any fun l => (i.g.lane l).st != .exited

theorem issues_of {s : State} {k : PfxClass} {srcs : List Src} (h : issuesB s k srcs = true) : Issues s (issOf s) k srcs := by
  unfold issuesB at h
  cases e : s.iss? with
  | none => simp [e] at h
  | some i =>
    rw [e] at h
    have hi : issOf s = i := by simp [issOf, e]
    rw [hi]
    simp only [Bool.and_eq_true, decide_eq_true_eq, Bool.not_eq_true', List.all_eq_true, List.any_eq_true, bne_iff_ne] at h
    obtain ⟨⟨⟨h1, h2⟩, h3⟩, l, hl, h4⟩ := h
    refine ⟨e, h1, h2, fun x hx => h3 x hx, l, ?_, h4⟩
    · simpa [lanes32] using hl

/-- A property of the lanes of a set holds when it holds of those among the 32. -/
theorem lanes_of {m : LaneSet} {P : Nat → Prop} (h : ∀ l, l < 32 → inSet m l = true → P l) : ∀ l, inSet m l = true → P l :=
  fun l hl => h l (inSet_lt hl) hl

end Sys2Proof.Tests
end

