-- ==== Sys2Proof/Tests/Slice0.lean ====
section
/-! SUPPORT. Tests: words of the listings of the manual decoded, ill-formed terms refused, and single steps whose results are
calculated by hand from the manual's rules. The witnesses of the statements stand beside this file. -/

namespace Sys2Proof.Tests

open Sys2Proof Sys2Proof.Machine Sys2Proof.Bits

set_option Elab.async false

/-! ## Decoding: words of the listings (the docstring names the chapter and the source line) -/

/-- 04, LD.N64.dev.rlx v5, [v4 + 8]. -/
theorem test_decode_ld : decode [0xA400A020#32, 0x00000007#32, 0x40000008#32] =
    .ok (.ld { m := { rb := true, nw := false, d := 5, a := 0x4, g := 0, b := 0x0, c := 0x0, ty := 7 }, scope := 2, ord := 0, promo := false, hint := 0, aux := 0, imm := 0x8 }, []) := by decide +kernel

/-- 04, AINC.N64.dev.ar v2, [g4 + 0], g5. -/
theorem test_decode_ainc : decode [0x84405020#32, 0x81400097#32, 0x58000000#32] =
    .ok (.ainc { m := { rb := false, nw := false, d := 2, a := 0x204, g := 0, b := 0x205, c := 0x0, ty := 7 }, scope := 2, ord := 3, promo := false, hint := 0, aux := 0, imm := 0x0 }, []) := by decide +kernel

/-- 04, MWAIT.N32.dev.acq g6, [g4 + 64], 0. -/
theorem test_decode_mwait : decode [0xA480D020#32, 0xA0000026#32, 0x48000040#32] =
    .ok (.mwait { m := { rb := true, nw := false, d := 6, a := 0x204, g := 0, b := 0x280, c := 0x0, ty := 6 }, scope := 2, ord := 1, promo := false, hint := 0, aux := 0, imm := 0x40 }, []) := by decide +kernel

/-- 05, CBEXP [0x100], 4096. -/
theorem test_decode_cbexp : decode [0x85001480#32, 0xC4000030#32, 0x00001000#32] =
    .ok (.cbexp { m := { rb := false, nw := false, d := 0, a := 0x290, g := 0, b := 0x310, c := 0x0, ty := 0 }, scope := 0, ord := 0, promo := false, hint := 0, aux := 0, imm := 0x1000 }, []) := by decide +kernel

/-- 05, KICK k2, g9. -/
theorem test_decode_kick : decode [0xA5005048#32, 0x00000000#32, 0x00000000#32] =
    .ok (.kick { m := { rb := true, nw := false, d := 2, a := 0x209, g := 0, b := 0x0, c := 0x0, ty := 0 }, scope := 0, ord := 0, promo := false, hint := 0, aux := 0, imm := 0x0 }, []) := by decide +kernel

/-- 05, CBWAIT [0x100]. -/
theorem test_decode_cbwait : decode [0x85001480#32, 0x00000050#32, 0x00000000#32] =
    .ok (.cbwait { m := { rb := false, nw := false, d := 0, a := 0x290, g := 0, b := 0x0, c := 0x0, ty := 0 }, scope := 0, ord := 0, promo := false, hint := 0, aux := 0, imm := 0x0 }, []) := by decide +kernel

/-- 06, GROW 48. -/
theorem test_decode_grow : decode [0x66C01580#32, 0x00000000#32] =
    .ok (.grow { rb := true, nw := false, d := 0, a := 0x2B0, g := 0, b := 0x0, c := 0x0, ty := 0 }, []) := by decide +kernel

/-- 06, SHRK 32. -/
theorem test_decode_shrk : decode [0x66C01500#32, 0x00000010#32] =
    .ok (.shrk { rb := true, nw := false, d := 0, a := 0x2A0, g := 0, b := 0x0, c := 0x0, ty := 0 }, []) := by decide +kernel

/-- 06, STS.N64 [g9 + 0], g5. -/
theorem test_decode_sts : decode [0x84001048#32, 0x81400037#32, 0x00000000#32] =
    .ok (.sts { m := { rb := false, nw := false, d := 0, a := 0x209, g := 0, b := 0x205, c := 0x0, ty := 7 }, scope := 0, ord := 0, promo := false, hint := 0, aux := 0, imm := 0x0 }, []) := by decide +kernel

/-- 06, LDS.N64 v1, [v7 + 0x1000]. -/
theorem test_decode_lds : decode [0xA4002038#32, 0x00000027#32, 0x00001000#32] =
    .ok (.lds { m := { rb := true, nw := false, d := 1, a := 0x7, g := 0, b := 0x0, c := 0x0, ty := 7 }, scope := 0, ord := 0, promo := false, hint := 0, aux := 0, imm := 0x1000 }, []) := by decide +kernel

/-- 07, MODE 5. -/
theorem test_decode_mode : decode [0x66C01428#32, 0x00000040#32] =
    .ok (.mode { rb := true, nw := false, d := 0, a := 0x285, g := 0, b := 0x0, c := 0x0, ty := 0 }, []) := by decide +kernel

/-- 07, MODER g3. -/
theorem test_decode_moder : decode [0x46C06000#32, 0x00000050#32] =
    .ok (.moder { rb := false, nw := false, d := 3, a := 0x0, g := 0, b := 0x0, c := 0x0, ty := 0 }, []) := by decide +kernel

/-- 08, ATLOAD 0, g4. -/
theorem test_decode_atload : decode [0x66C01400#32, 0x81000020#32] =
    .ok (.atload { rb := true, nw := false, d := 0, a := 0x280, g := 0, b := 0x204, c := 0x0, ty := 0 }, []) := by decide +kernel

/-- 08, FACT.F32 v6, v5. -/
theorem test_decode_fact : decode [0x6280C028#32, 0x000000AA#32] =
    .ok (.fact { rb := true, nw := false, d := 6, a := 0x5, g := 0, b := 0x0, c := 0x0, ty := 10 }, []) := by decide +kernel

/-- 08, XBFLY.S32 L1, v1, 16. -/
theorem test_decode_xbfly : decode [0x53000008#32, 0xA4000032#32] =
    .ok (.xbfly { rb := false, nw := true, d := 0, a := 0x1, g := 0, b := 0x290, c := 0x0, ty := 2 }, []) := by decide +kernel

/-- 08, XSCAN.F32 v4, v8. -/
theorem test_decode_xscan : decode [0x63008040#32, 0x0028007A#32] =
    .ok (.xscan { rb := true, nw := false, d := 4, a := 0x8, g := 0, b := 0x0, c := 0x280, ty := 10 }, []) := by decide +kernel

/-- 09, MCLR g8. -/
theorem test_decode_mclr : decode [0x85400000#32, 0x82000030#32, 0x00000000#32] =
    .ok (.mclr { m := { rb := false, nw := false, d := 0, a := 0x0, g := 0, b := 0x208, c := 0x0, ty := 0 }, scope := 0, ord := 0, promo := false, hint := 0, aux := 0, imm := 0x0 }, []) := by decide +kernel

/-- 09, ENGR.GQ4 g4. -/
theorem test_decode_engr : decode [0x85401020#32, 0x0000000E#32, 0x00000000#32] =
    .ok (.engr { m := { rb := false, nw := false, d := 0, a := 0x204, g := 0, b := 0x0, c := 0x0, ty := 14 }, scope := 0, ord := 0, promo := false, hint := 0, aux := 0, imm := 0x0 }, []) := by decide +kernel

/-- 09, MLOOP.b8 g4, g5, g6. -/
theorem test_decode_mloop : decode [0x85401020#32, 0x81606010#32, 0x00200000#32] =
    .ok (.mloop { m := { rb := false, nw := false, d := 0, a := 0x204, g := 0, b := 0x205, c := 0x206, ty := 0 }, scope := 0, ord := 0, promo := false, hint := 0, aux := 2, imm := 0x0 }, []) := by decide +kernel

/-- 09, MDRAIN.F32 g7, g8, 24. -/
theorem test_decode_mdrain : decode [0x85401038#32, 0x8229802A#32, 0x00000000#32] =
    .ok (.mdrain { m := { rb := false, nw := false, d := 0, a := 0x207, g := 0, b := 0x208, c := 0x298, ty := 10 }, scope := 0, ord := 0, promo := false, hint := 0, aux := 0, imm := 0x0 }, []) := by decide +kernel

/-- 09, MSTAT.wait g9. -/
theorem test_decode_mstat : decode [0x85412000#32, 0x00000040#32, 0x00100000#32] =
    .ok (.mstat { m := { rb := false, nw := false, d := 9, a := 0x0, g := 0, b := 0x0, c := 0x0, ty := 0 }, scope := 0, ord := 0, promo := false, hint := 0, aux := 1, imm := 0x0 }, []) := by decide +kernel

/-- 10, SRCH k3, g12. -/
theorem test_decode_srch : decode [0xA5807060#32, 0x00000000#32, 0x00000000#32] =
    .ok (.srch { m := { rb := true, nw := false, d := 3, a := 0x20C, g := 0, b := 0x0, c := 0x0, ty := 0 }, scope := 0, ord := 0, promo := false, hint := 0, aux := 0, imm := 0x0 }, []) := by decide +kernel

/-- 10, SCANCEL g5, g6. -/
theorem test_decode_scancel : decode [0x8580B030#32, 0x00000010#32, 0x00000000#32] =
    .ok (.scancel { m := { rb := false, nw := false, d := 5, a := 0x206, g := 0, b := 0x0, c := 0x0, ty := 0 }, scope := 0, ord := 0, promo := false, hint := 0, aux := 0, imm := 0x0 }, []) := by decide +kernel

/-- 11, FENCE.sys. -/
theorem test_decode_fence : decode [0xA4800000#32, 0x00000000#32, 0x98000000#32] =
    .ok (.fence { m := { rb := true, nw := false, d := 0, a := 0x0, g := 0, b := 0x0, c := 0x0, ty := 0 }, scope := 4, ord := 3, promo := false, hint := 0, aux := 0, imm := 0x0 }, []) := by decide +kernel

/-- 11, LD.N32.dev.acq.promo v1, [g5 + 0]. -/
theorem test_decode_ld_promo : decode [0x84003028#32, 0x00000006#32, 0x4C000000#32] =
    .ok (.ld { m := { rb := false, nw := false, d := 1, a := 0x205, g := 0, b := 0x0, c := 0x0, ty := 6 }, scope := 2, ord := 1, promo := true, hint := 0, aux := 0, imm := 0x0 }, []) := by decide +kernel

/-- 12, NWRI k2, g12. -/
theorem test_decode_nwri : decode [0xA5C05060#32, 0x00000000#32, 0x00000000#32] =
    .ok (.nwri { m := { rb := true, nw := false, d := 2, a := 0x20C, g := 0, b := 0x0, c := 0x0, ty := 0 }, scope := 0, ord := 0, promo := false, hint := 0, aux := 0, imm := 0x0 }, []) := by decide +kernel

/-- 12, NPOLL.acq.wait g7, 3. -/
theorem test_decode_npoll : decode [0xA5C0F418#32, 0x00000010#32, 0x08100000#32] =
    .ok (.npoll { m := { rb := true, nw := false, d := 7, a := 0x283, g := 0, b := 0x0, c := 0x0, ty := 0 }, scope := 0, ord := 1, promo := false, hint := 0, aux := 1, imm := 0x0 }, []) := by decide +kernel

/-- 12, FERRQ g5, g6. -/
theorem test_decode_ferrq : decode [0x85C0B030#32, 0x00000020#32, 0x00000000#32] =
    .ok (.ferrq { m := { rb := false, nw := false, d := 5, a := 0x206, g := 0, b := 0x0, c := 0x0, ty := 0 }, scope := 0, ord := 0, promo := false, hint := 0, aux := 0, imm := 0x0 }, []) := by decide +kernel

/-- 13, CJOIN cv0, g1, 0. -/
theorem test_decode_cjoin : decode [0x86001008#32, 0xA0000000#32, 0x00000000#32] =
    .ok (.cjoin { m := { rb := false, nw := false, d := 0, a := 0x201, g := 0, b := 0x280, c := 0x0, ty := 0 }, scope := 0, ord := 0, promo := false, hint := 0, aux := 0, imm := 0x0 }, []) := by decide +kernel

/-- 13, CSEND cv0, 3, g8, 2. -/
theorem test_decode_csend : decode [0xA6001040#32, 0xA0E82010#32, 0x00000000#32] =
    .ok (.csend { m := { rb := true, nw := false, d := 0, a := 0x208, g := 0, b := 0x283, c := 0x282, ty := 0 }, scope := 0, ord := 0, promo := false, hint := 0, aux := 0, imm := 0x0 }, []) := by decide +kernel

/-- 13, CSTATE.self g3. -/
theorem test_decode_cstate : decode [0x86006000#32, 0x00000080#32, 0x00100000#32] =
    .ok (.cstateSelf { m := { rb := false, nw := false, d := 3, a := 0x0, g := 0, b := 0x0, c := 0x0, ty := 0 }, scope := 0, ord := 0, promo := false, hint := 0, aux := 1, imm := 0x0 }, []) := by decide +kernel

/-- 14, TBAR.team. -/
theorem test_decode_tbar : decode [0x84800000#32, 0x00000030#32, 0x38000000#32] =
    .ok (.tbar { m := { rb := false, nw := false, d := 0, a := 0x0, g := 0, b := 0x0, c := 0x0, ty := 0 }, scope := 1, ord := 3, promo := false, hint := 0, aux := 0, imm := 0x0 }, []) := by decide +kernel

/-- 14, RBAR.dev. -/
theorem test_decode_rbar : decode [0x84800000#32, 0x00000040#32, 0x58000000#32] =
    .ok (.rbar { m := { rb := false, nw := false, d := 0, a := 0x0, g := 0, b := 0x0, c := 0x0, ty := 0 }, scope := 2, ord := 3, promo := false, hint := 0, aux := 0, imm := 0x0 }, []) := by decide +kernel

/-- 15, CSRD v4, TCAUSE. -/
theorem test_decode_csrd : decode [0x87008000#32, 0x00000020#32, 0x00000010#32] =
    .ok (.csrd { m := { rb := false, nw := false, d := 4, a := 0x0, g := 0, b := 0x0, c := 0x0, ty := 0 }, scope := 0, ord := 0, promo := false, hint := 0, aux := 0, imm := 0x10 }, []) := by decide +kernel

/-- 15, CSWR TPC, v9. -/
theorem test_decode_cswr : decode [0x87000000#32, 0x02400030#32, 0x00000011#32] =
    .ok (.cswr { m := { rb := false, nw := false, d := 0, a := 0x0, g := 0, b := 0x9, c := 0x0, ty := 0 }, scope := 0, ord := 0, promo := false, hint := 0, aux := 0, imm := 0x11 }, []) := by decide +kernel

/-- 15, TSTATE.wr 9, g4. -/
theorem test_decode_tstate : decode [0x87000000#32, 0x81000080#32, 0x00100009#32] =
    .ok (.tstateWr { m := { rb := false, nw := false, d := 0, a := 0x0, g := 0, b := 0x204, c := 0x0, ty := 0 }, scope := 0, ord := 0, promo := false, hint := 0, aux := 1, imm := 0x9 }, []) := by decide +kernel

/-- 15, TRET.save. -/
theorem test_decode_tret : decode [0xA7000000#32, 0x00000010#32, 0x00300000#32] =
    .ok (.tretSave { m := { rb := true, nw := false, d := 0, a := 0x0, g := 0, b := 0x0, c := 0x0, ty := 0 }, scope := 0, ord := 0, promo := false, hint := 0, aux := 3, imm := 0x0 }, []) := by decide +kernel

/-- 15, TLBINV.page g8, g9. -/
theorem test_decode_tlbinv : decode [0xA7001040#32, 0x00209040#32, 0x00000000#32] =
    .ok (.tlbinvPage { m := { rb := true, nw := false, d := 0, a := 0x208, g := 0, b := 0x0, c := 0x209, ty := 0 }, scope := 0, ord := 0, promo := false, hint := 0, aux := 0, imm := 0x0 }, []) := by decide +kernel

/-- 15, LRESUME.replay g4, g5, g6, g7. -/
theorem test_decode_lresume : decode [0x87009028#32, 0x81A07090#32, 0x00000000#32] =
    .ok (.lresumeReplay { m := { rb := false, nw := false, d := 4, a := 0x205, g := 0, b := 0x206, c := 0x207, ty := 0 }, scope := 0, ord := 0, promo := false, hint := 0, aux := 0, imm := 0x0 }, []) := by decide +kernel

/-- 15, ECALL g2, 7. -/
theorem test_decode_ecall : decode [0xA7001010#32, 0x000000A0#32, 0x00000007#32] =
    .ok (.ecall { m := { rb := true, nw := false, d := 0, a := 0x202, g := 0, b := 0x0, c := 0x0, ty := 0 }, scope := 0, ord := 0, promo := false, hint := 0, aux := 0, imm := 0x7 }, []) := by decide +kernel

/-- 18, LDP.dev.rlx v10, [g0 + 16]. -/
theorem test_decode_ldp : decode [0xA4C15000#32, 0x00000000#32, 0x40000010#32] =
    .ok (.ldp { m := { rb := true, nw := false, d := 10, a := 0x200, g := 0, b := 0x0, c := 0x0, ty := 0 }, scope := 2, ord := 0, promo := false, hint := 0, aux := 0, imm := 0x10 }, []) := by decide +kernel

/-- 18, PADD v5, v4, 6. -/
theorem test_decode_padd : decode [0x84C0A020#32, 0xC4000020#32, 0x00000006#32] =
    .ok (.padd { m := { rb := false, nw := false, d := 5, a := 0x4, g := 0, b := 0x310, c := 0x0, ty := 0 }, scope := 0, ord := 0, promo := false, hint := 0, aux := 0, imm := 0x6 }, []) := by decide +kernel

/-- VCMP.LT.S32 k1, v0, %zero. -/
theorem test_decode_vcmp : decode [0x42002000#32, 0xC4282132#32] =
    .ok (.vcmp { rb := false, nw := false, d := 1, a := 0x0, g := 0, b := 0x310, c := 0x282, ty := 2 }, []) := by decide +kernel

/-- GCMP.EQ.N64 g10, %role, 1. -/
theorem test_decode_gcmp : decode [0x434158A0#32, 0xA06800A7#32] =
    .ok (.gcmp { rb := false, nw := false, d := 10, a := 0x314, g := 0, b := 0x281, c := 0x280, ty := 7 }, []) := by decide +kernel

/-- KSET k1, 1. -/
theorem test_decode_kset : decode [0x43803408#32, 0x00000000#32] =
    .ok (.kset { rb := false, nw := false, d := 1, a := 0x281, g := 0, b := 0x0, c := 0x0, ty := 0 }, []) := by decide +kernel

/-- JWAIT j1. -/
theorem test_decode_jwait : decode [0x46802000#32, 0x00000010#32] =
    .ok (.jwait { rb := false, nw := false, d := 1, a := 0x0, g := 0, b := 0x0, c := 0x0, ty := 0 }, []) := by decide +kernel

/-- CVTB.F16.b8.dith v6, v3. -/
theorem test_decode_cvtb : decode [0x42C0C018#32, 0xA0800028#32] =
    .ok (.cvtb { rb := false, nw := false, d := 6, a := 0x3, g := 0, b := 0x282, c := 0x0, ty := 8 }, []) := by decide +kernel

/-- BRC.z g23, 0x138 at 0x144. -/
theorem test_decode_brc : decode [0xA64010B8#32, 0x00000010#32, 0x001FFFFD#32] =
    .ok (.brc { m := { rb := true, nw := false, d := 0, a := 0x217, g := 0, b := 0x0, c := 0x0, ty := 0 }, scope := 0, ord := 0, promo := false, hint := 0, aux := 1, imm := 0xFFFFD }, []) := by decide +kernel

/-- ?k2 EXIT. -/
theorem test_decode_exit : decode [0xA6400002#32, 0x00000050#32, 0x00000000#32] =
    .ok (.exit { m := { rb := true, nw := false, d := 0, a := 0x0, g := 2, b := 0x0, c := 0x0, ty := 0 }, scope := 0, ord := 0, promo := false, hint := 0, aux := 0, imm := 0x0 }, []) := by decide +kernel

/-- Chapter 06: VTOG g1, v4, 0 encodes as these words. -/
theorem test_decode_vtog : decode [0x43402020#32, 0xA00000C0#32] =
    .ok (.vtog { rb := false, nw := false, d := 1, a := 4, g := 0, b := 0x280, c := 0, ty := 0 }, []) := by decide +kernel

/-- A word of the reserved major 0x07, and minor 23 of major 0x08 (R28), decode to the reserved instruction. -/
theorem test_decode_reserved : (decode [0x41C00000#32, 0#32]).toOption.map (·.1) = some (.reservedMajor 0x41C00000 [0]) ∧
    (decode [0x42000000#32, 0x00000170#32]).toOption.map (·.1) = some (.reservedMajor 0x42000000 [0x00000170]) := by decide +kernel

/-- A first word whose following words are missing is refused. -/
theorem test_decode_short : (decode [0x42000000#32]).toOption = none := by decide +kernel

/-! ## Well-formedness: a term that each check refuses -/

def plainFlit : Flit := { ks := false, icl := 0, seq := 0, ty := 1, payload := [], dest := 0, auth := true }

theorem test_wf_refuses_vdithSet : Instr.wf (.vdithSet { fm 0 zero 0 0 0 with b := 0x281 }) = false := by decide +kernel
theorem test_wf_refuses_vdithAdv : Instr.wf (.vdithAdv (fm 0 zero 0x280 0 0)) = false := by decide +kernel
theorem test_wf_refuses_cstate : Instr.wf (.cstate (fw 0 zero zero zero 0 1 0)) = false := by decide +kernel
theorem test_wf_refuses_cstateSelf : Instr.wf (.cstateSelf (fw 0 zero zero zero 0 0 0)) = false := by decide +kernel
theorem test_wf_refuses_tretRetry : Instr.wf (.tretRetry (fw 0 zero zero zero 0 1 0)) = false := by decide +kernel
theorem test_wf_refuses_tretSkip : Instr.wf (.tretSkip (fw 0 zero zero zero 0 2 0)) = false := by decide +kernel
theorem test_wf_refuses_tretExit : Instr.wf (.tretExit (fw 0 zero zero zero 0 3 0)) = false := by decide +kernel
theorem test_wf_refuses_tretSave : Instr.wf (.tretSave (fw 0 zero zero zero 0 4 0)) = false := by decide +kernel
theorem test_wf_refuses_tlbinvPage : Instr.wf (.tlbinvPage (fw 0 zero zero zero 0 1 0)) = false := by decide +kernel
theorem test_wf_refuses_tlbinvAsid : Instr.wf (.tlbinvAsid (fw 0 zero zero zero 0 2 0)) = false := by decide +kernel
theorem test_wf_refuses_tlbinvAll : Instr.wf (.tlbinvAll (fw 0 zero zero zero 0 3 0)) = false := by decide +kernel
theorem test_wf_refuses_tstateRd : Instr.wf (.tstateRd (fw 0 zero zero zero 0 1 0)) = false := by decide +kernel
theorem test_wf_refuses_tstateWr : Instr.wf (.tstateWr (fw 0 zero zero zero 0 2 0)) = false := by decide +kernel
theorem test_wf_refuses_lresumeReplay : Instr.wf (.lresumeReplay (fw 0 zero zero zero 0 1 0)) = false := by decide +kernel
theorem test_wf_refuses_lresumeRetry : Instr.wf (.lresumeRetry (fw 0 zero zero zero 0 2 0)) = false := by decide +kernel
theorem test_wf_refuses_lresumeSkip : Instr.wf (.lresumeSkip (fw 0 zero zero zero 0 3 0)) = false := by decide +kernel
theorem test_wf_refuses_lresumeKill : Instr.wf (.lresumeKill (fw 0 zero zero zero 0 4 0)) = false := by decide +kernel
theorem test_wf_refuses_lresumeRun : Instr.wf (.lresumeRun (fw 0 zero zero zero 0 5 0)) = false := by decide +kernel
theorem test_wf_refuses_reservedMajor_legal : Instr.wf (.reservedMajor 0x01300000 []) = false := by decide +kernel
theorem test_wf_refuses_reservedMajor_length : Instr.wf (.reservedMajor 0x01C00000 [0]) = false := by decide +kernel
theorem test_wf_refuses_reservedMajor_short : Instr.wf (.reservedMajor (0x07 <<< 22 ||| 1 <<< 30) []) = false := by decide +kernel

/-! ### Units that the device does not have -/

theorem test_wf_refuses_core : ∀ i ∈ (
    [.barrelTurn 192 0, .ringSlotRead 192, .copy 192, .copy3d 192, .fill 192, .spawnPacket 192, .pieceArrival 192 0 0 0,
      .engraveStart 192, .engraveComplete 192, .bankSwap 192, .mloopStep 192 none, .mdrainExecute 192, .mclrExecute 192,
      .atloadComplete 192 0, .searchPortForward 192, .netPacket 192, .runFetch 192 0 0] : List Instr), i.wf = false := by decide +kernel
theorem test_wf_refuses_port : ∀ i ∈ (
    [.barrelTurn 0 4, .runFetch 0 4 0, .probeTimer 0 4 0 0] : List Instr), i.wf = false := by decide +kernel
theorem test_wf_refuses_slot : ∀ i ∈ (
    [.runFetch 0 0 16, .resultArrival 0 0 16 0, .yieldCountExpiry 0 0 16, .fenceComplete 0 0 16, .tlbinvComplete 0 0 16,
      .potsetComplete 0 0 16, .mwaitTimeout 0 0 16, .scancelAnswer 0 0 0 16] : List Instr), i.wf = false := by decide +kernel
theorem test_wf_refuses_queue : ∀ i ∈ (
    [.recordAccept 64, .sharedQueueSlotRead 64, .queueAging 64, .spawnPortRecord 64 0 []] : List Instr), i.wf = false := by decide +kernel
theorem test_wf_refuses_dog : ∀ i ∈ (
    [.searchArrival 8, .searchAccept 8, .neighbourListReply 8 0, .distanceRequest 8 0, .distanceAnswer 8 0, .scancelMarkArrival 8,
      .scancelAnswer 8 0 0 0] : List Instr), i.wf = false := by decide +kernel
theorem test_wf_refuses_lane_bank_tier : ∀ i ∈ (
    [.probeTimer 0 0 0 32, .atloadComplete 0 2, .scrubTick 2, .scrubLine 2] : List Instr), i.wf = false := by decide +kernel
theorem test_wf_refuses_world : ∀ i ∈ (
    [.incomingFabricRequest 0 16 0 (.load 0 1 false none), .lockInterfaceRequest 16 0, .tdispInterfaceRequest 16 .startInterface] : List Instr), i.wf = false := by decide +kernel
theorem test_wf_refuses_peer : ∀ i ∈ (
    [.linkDown 16 false, .linkUp 16, .data 16 plainFlit, .ack 16 plainFlit, .nak 16 plainFlit, .keyswitch 16 plainFlit, .idle 16 plainFlit, .rekeySwitch 16,
      .linkAuthFailureLimit 16] : List Instr), i.wf = false := by decide +kernel
theorem test_wf_refuses_connection_and_net_port : ∀ i ∈ (
    [.netAck { conn := 4096, port := 0, addr := 0, auth := true } 0 false, .netNak { conn := 4096, port := 0, addr := 0, auth := true } 0 0,
      .rnr { conn := 4096, port := 0, addr := 0, auth := true } 0, .rnrRetryTimer 4096, .netSilenceTimeout 4096, .netPortDown 8] : List Instr), i.wf = false := by decide +kernel

/-! ## The first instruction after reset -/

/-- The words of VADD.S32 v1, v2, v3 under k1, laid out as the opcode table numbers bits, and a step that runs them. -/
theorem test_table_word : decodeTableWord 64 0x00C0000242002011 =
    some (.vadd { rb := false, nw := false, d := 1, a := 2, g := 1, b := 3, c := 0, ty := 2 }) := by decide +kernel

/-- The lane's PC after one step of an instruction placed at reset: past a NOP of one word, and past a VMOV of two. -/
def pcAfter (nbits w : Nat) : Nat :=
  match step (State.reset.withFetchWord nbits w) with
  | .next t => ((t.group? 0).map fun g => ((((t.core 0).port 0).run.map (·.pc)).getD (g.lane 31).pc).toNat).getD 0
  | _ => 0
theorem test_step_nop : pcAfter 32 0x01300000 = 0x1004 ∧ pcAfter 32 0x21300000 = 0x1004 := by decide +kernel
theorem test_step_vmov : pcAfter 64 0xA000015042002280 = 0x1008 := by decide +kernel

/-! ## One instruction on lane 0's values -/

/-- A group with these values in lane 0 of vector registers, which rise. -/
def withV (l : List (Nat × Nat)) : Group := { labGroup [] with v := l.map fun x => (32 * x.1, BitVec.ofNat 64 x.2) }
/-- The device and the group after the instruction. -/
def after (s : State) (i : Instr) : State :=
  match exec i s with
  | .next t => t
  | _ => s
def grp (t : State) : Group := (t.group? 0).getD (fetchGroup [])
def lane0 (l : List (Nat × Nat)) (i : Instr) : Nat := ((grp (after (labG (withV l)) i)).vget 5 0).toNat
/-- The same under a prefix that sets SAT. -/
def satLane0 (l : List (Nat × Nat)) (i : Instr) : Nat :=
  let run := { fetchRun with pfx := some { rb := false, nw := false, rnd := 0, sat := true, sub := 0, nf := false, rsv := 0 } }
  let k := { labCore with ports := { Port.fresh with run := some run } :: List.replicate 3 Port.fresh }
  ((grp (after (labOf (withV l) fetchTeam labCtx k) i)).vget 5 0).toNat

/-- The borderline cases that chapter 08 lists under Fit. -/
theorem test_vabs : lane0 [(2, 0x80)] (.vabs (fm 5 (v 2) zero zero 0)) = 0x80 := by decide +kernel
theorem test_vneg : lane0 [(2, 5)] (.vneg (fm 5 (v 2) zero zero 5)) = 65531 := by decide +kernel
theorem test_vshl : lane0 [(2, 0x40000000)] (.vshl (fm 5 (v 2) (imm 1) zero 2)) = 0x80000000 := by decide +kernel
theorem test_vmad : lane0 [(2, 16), (3, 1)] (.vmad (fm 5 (v 2) (v 2) (v 3) 4)) = 1 := by decide +kernel
theorem test_vabs_sat : satLane0 [(2, 0x80)] (.vabs (fm 5 (v 2) zero zero 0)) = 0x7F := by decide +kernel
theorem test_vneg_sat : satLane0 [(2, 5)] (.vneg (fm 5 (v 2) zero zero 5)) = 0 := by decide +kernel
theorem test_vshl_sat : satLane0 [(2, 0x40000000)] (.vshl (fm 5 (v 2) (imm 1) zero 2)) = 0x7FFFFFFF := by decide +kernel
theorem test_vmad_sat : satLane0 [(2, 16), (3, 1)] (.vmad (fm 5 (v 2) (v 2) (v 3) 4)) = 255 := by decide +kernel
/-- VSHF.S16 with B (3, 2, 1, 0) reverses; with (4, 0, 5, 1) it interleaves the low halves of C and A. -/
theorem test_vshf_reverse : lane0 [(2, 0x4444333322221111), (3, 0x0000000100020003)] (.vshf (fm 5 (v 2) (v 3) zero 1)) = 0x1111222233334444 := by
  decide +kernel
theorem test_vshf_interleave : lane0 [(2, 0x4444333322221111), (3, 0x0001000500000004), (4, 0x8888777766665555)]
    (.vshf (fm 5 (v 2) (v 3) (v 4) 1)) = 0x2222666611115555 := by decide +kernel

/-- Table 8.3. -/
theorem test_vsub_wraps : lane0 [] (.vsub (fm 5 zero (imm 1) zero 7)) = 2 ^ 64 - 1 := by decide +kernel
theorem test_vmulh : lane0 [(2, 0x8000)] (.vmulh (fm 5 (v 2) (v 2) zero 1)) = 0x4000 := by decide +kernel
theorem test_vsar_copies : lane0 [(2, 0x8000)] (.vsar (fm 5 (v 2) (imm 4) zero 5)) = 0xF800 := by decide +kernel
theorem test_vrot : lane0 [(2, 0x81)] (.vrot (fm 5 (v 2) (imm 1) zero 0)) = 0x03 := by decide +kernel
theorem test_vclz : lane0 [(2, 0x0001000000000100)] (.vclz (fm 5 (v 2) zero zero 1)) = 0x000F001000100007 := by decide +kernel
theorem test_vmin_signed : lane0 [(2, 0xFF), (3, 1)] (.vmin (fm 5 (v 2) (v 3) zero 0)) = 0xFF := by decide +kernel
theorem test_vmin_unsigned : lane0 [(2, 0xFF), (3, 1)] (.vmin (fm 5 (v 2) (v 3) zero 4)) = 0x01 := by decide +kernel

/-- Floating point: 1 + 1 = 2 in F16; a tie of F32 goes to even; 1 × −2 in BF16; 1 ÷ 3 and √4 in F32. -/
theorem test_fadd : lane0 [(2, 0x3C00)] (.fadd (fm 5 (v 2) (v 2) zero 8)) = 0x4000 := by decide +kernel
theorem test_fadd_tie : lane0 [(2, 0x3F800000), (3, 0x33800000)] (.fadd (fm 5 (v 2) (v 3) zero 10)) = 0x3F800000 := by decide +kernel
theorem test_fmul : lane0 [(2, 0x3F80), (3, 0xC000)] (.fmul (fm 5 (v 2) (v 3) zero 9)) = 0xC000 := by decide +kernel
theorem test_fdiv : lane0 [(2, 0x3F800000), (3, 0x40400000)] (.fdiv (fm 5 (v 2) (v 3) zero 10)) % 2 ^ 32 = 0x3EAAAAAB := by decide +kernel
theorem test_fsqrt : lane0 [(2, 0x40800000)] (.fsqrt (fm 5 (v 2) zero zero 10)) = 0x40000000 := by decide +kernel

/-- XRED ADD of %lane: 0 + 1 + … + 31 = 496 (R209). -/
theorem test_xred : lane0 [] (.xred (fm 5 lane zero (imm 0) 2)) = 496 := by decide +kernel

/-! ## Uniform registers, masks, branches, memory -/

def uni (u : List (Nat × BitVec 64)) (i : Instr) : Group := grp (after (lab u) i)
theorem test_gadd_wraps : (uni [(1, 0xFFFFFFFFFFFFFFFF)] (.gadd (fm 5 (g 1) (imm 2) zero 3))).gget 5 = 1 := by decide +kernel
theorem test_gsub : (uni [(1, 3)] (.gsub (fm 5 (g 1) (imm 5) zero 3))).gget 5 = 0xFFFFFFFFFFFFFFFE := by decide +kernel
theorem test_gsar : (uni [(1, 0x8000000000000000)] (.gsar (fm 5 (g 1) (imm 63) zero 3))).gget 5 = 0xFFFFFFFFFFFFFFFF := by decide +kernel

/-- BR with OFF −1 on k0, the end of the run: the lanes stand 4 bytes back. -/
theorem test_br : ((uni [] (.br { rb := true, nw := false, k := 0, off := 0x3FFFF })).lane 31).pc = 0xFFC := by decide +kernel

/-- Under a guard of lane 0 alone, eight bytes at 0x2FFF8, the last of their page: LD makes the least significant byte the first, ST writes them, AADD.N64 adds one
and leaves the old value in v5 (R98, R104). -/
def gMem : Group := { labGroup [(1, 0x2FFF8), (2, 0x0102030405060708)] with k := [(1, 1)] }
def sMem : State := { labG gMem with mem := scells 0x2FFF8 [1, 2, 3, 4, 5, 6, 7, 0xFF] ++ labMem }
theorem test_ld : (loadReg 7 8 0 [(0, sMem.loadBytes 0 2 0 0x2FFF8 8)] 0).toNat = 0xFF07060504030201 := by decide +kernel
theorem test_st : (after sMem (.st (gW (fw 0 (g 1) (g 2) zero 7 0 0)))).readBytes 0 0x2FFF8 8 = [8, 7, 6, 5, 4, 3, 2, 1] := by decide +kernel
def gLane0 : Group := { labGroup [(1, 0x2FFF8)] with k := [(1, 1)] }
def sAtom : State := { labG gLane0 with mem := scells 0x2FFF8 [0xFF, 0xFF] ++ labMem }
theorem test_aadd : (after sAtom (.aadd (gW (fw 5 (g 1) (imm 1) zero 7 0 0)))).readBytes 0 0x2FFF8 4 = [0, 0, 1, 0] ∧
    ((grp (after sAtom (.aadd (gW (fw 5 (g 1) (imm 1) zero 7 0 0))))).vget 5 0).toNat = 0xFFFF := by decide +kernel

end Sys2Proof.Tests
end

