-- ==== Sys2Proof/Tests/WitnessVector.lean ====
section
/-! SUPPORT. Witnesses that the hypotheses of the statements about encodings, vector and uniform instructions and flow can
be met: one concrete state and operands for each clause, at boundary values. -/

namespace Sys2Proof.Tests

open Sys2Proof Sys2Proof.Machine Sys2Proof.Bits

set_option Elab.async false

def s0 : State := lab [(1, 0x20000), (2, 63), (63, 64)]
abbrev i0 : Iss := issOf s0

theorem issues_all {α : Type} {l : List α} {s : State} {k : α → PfxClass} {srcs : α → List Src}
    (h : (l.all fun x => issuesB s (k x) (srcs x)) = true) : ∀ x ∈ l, Issues s (issOf s) (k x) (srcs x) :=
  fun x hx => issues_of (List.all_eq_true.mp h x hx)

/-! ## Encoding and the step -/

def saves : FmtW := lastW (fw 0 zero zero zero 0 3 0)

theorem witness_DecodeOfEncode : (Instr.tretSave saves).wf = true ∧ (encode (.tretSave saves)).isSome = true := by decide +kernel

theorem witness_EncodeOfDecode : (decode [0xA400A020#32, 0x00000007#32, 0x40000008#32, 0#32]).toOption.isSome = true := by
  decide +kernel

/-- A state whose port issues the NOP it has fetched. -/
def nopWord : Word := 0x01300000
def fetched : State := { labG (fetchGroup [nopWord]) with agenda := [.issue 0 0] }

theorem witness_StepRunsDecoded_issue : fetched.agenda = .issue 0 0 :: [] ∧ ((fetched.core 0).port 0).run = some fetchRun ∧
    fetchRun.count < Config.runLimit ∧ fetched.group? (slotKey 0 0 fetchRun.slot) = some (fetchGroup [nopWord]) ∧
    (fetchGroup [nopWord]).wordsAt fetchRun.start fetchRun.pc = some ([nopWord], none) ∧ (decode [nopWord]).toOption.isSome = true ∧
    (fetchGroup [nopWord]).csrd = [] := by
  decide +kernel

theorem witness_StepRunsDecoded_event : { s0 with agenda := [.event (.linkUp 15)] }.agenda = .event (.linkUp 15) :: [] ∧
    { s0 with agenda := [.issue 191 3] }.agenda = .issue 191 3 :: [] ∧ ((s0.core 191).port 3).run = none := by decide +kernel

/-! ## Vector unit -/

def f7 : FmtM := fm 383 (v 0) (v 383) (imm (-64)) 7
def fB : FmtM := fm 0 (v 0) (g 63) lane 15

/-- Every row under N64 with SAT where it is accepted, and a logical row under B64. -/
theorem witness_IntegerMinors :
    (∀ x ∈ intMinors f7, Issues s0 i0 (vintPfx x.sat f7.ty.toNat) (srcsM f7 x.n)) ∧
    (∀ x ∈ (intMinors fB).filter (·.logic), Issues s0 i0 (vintPfx x.sat fB.ty.toNat) (srcsM fB x.n)) ∧
    dvOk f7.d.toNat i0.g.budget = true ∧ dvOk fB.d.toNat i0.g.budget = true ∧ tyInt f7.ty.toNat = true ∧ fB.ty.toNat = 15 :=
  ⟨issues_all (by decide +kernel), issues_all (by decide +kernel), by decide +kernel⟩

theorem witness_MovesWithinLanes :
    Issues s0 i0 (vintPfx false f7.ty.toNat) [src10 f7.a] ∧ Issues s0 i0 .zero (srcsM f7 3) ∧
    ImmFit f7.ty.toNat [src10 f7.a] ∧ dvOk f7.d.toNat i0.g.budget = true ∧ tyInt f7.ty.toNat = true :=
  ⟨issues_of (by decide +kernel), issues_of (by decide +kernel), by simp [ImmFit, f7, fm, v, src10, Src.isImm], by decide +kernel⟩

def fX : FmtM := fm 383 (v 383) (g 63) (v 0) 0

theorem witness_CrossLaneMoves :
    (∀ x ∈ crossMoves i0 fX, Issues s0 i0 .none x.srcs) ∧ Issues s0 i0 .none (srcsM fX 3) ∧
    (∀ x ∈ crossMoves i0 fX, ∀ b, x.uni = some b → b.uniform = true) ∧ dvOk fX.d.toNat i0.g.budget = true ∧ fX.ty ≠ 14 ∧
    (∀ n, n ≤ 3 → ∀ y ∈ srcsM fX n, y.isImm = false) :=
  ⟨issues_all (by decide +kernel), issues_of (by decide +kernel), by decide +kernel⟩

theorem witness_IntegerSums :
    Issues s0 i0 .none (srcsM (fm 383 (v 383) zero (imm 8) 7) 1) ∧ Issues s0 i0 .none (srcsM (fm 383 (v 383) zero (imm 13) 7) 1) ∧
    dvOk 383 i0.g.budget = true ∧ src10 (imm 0) = .imm 0 0 ∧ src10 (imm 8) = .imm 8 8 ∧
    (src10 (imm 5)).isImm = true ∧ redOk (src10 (imm 5)).raw 7 = true ∧ (src10 (imm 5)).raw < 8 ∧
    redOk (src10 (imm 13)).raw 7 = true ∧ (src10 (imm 13)).raw < 16 ∧ (src10 (v 383)).isImm = false :=
  ⟨issues_of (by decide +kernel), issues_of (by decide +kernel), by decide +kernel⟩

/-- The highest mask-form and the highest vector-form condition codes. -/
theorem witness_Compares :
    Issues s0 i0 .zero (srcsM (fm 7 (v 0) (v 1) (imm 61) 0) 2) ∧ Issues s0 i0 .zero (srcsM (fm 383 (v 0) (v 1) (imm 69) 0) 2) ∧
    Issues s0 i0 .float (srcsM (fm 7 (v 0) (v 1) (imm 31) 8) 2) ∧ Issues s0 i0 .float (srcsM (fm 383 (v 0) (v 1) (imm 71) 8) 2) ∧
    src10 (imm 61) = .imm 61 61 ∧ src10 (imm 69) = .imm (-59) 69 ∧ src10 (imm 31) = .imm 31 31 ∧ src10 (imm 71) = .imm (-57) 71 ∧
    61 / 8 < tyP 0 ∧ 31 / 8 < tyP 8 ∧ dvOk 383 i0.g.budget = true :=
  ⟨issues_of (by decide +kernel), issues_of (by decide +kernel), issues_of (by decide +kernel), issues_of (by decide +kernel),
    by decide +kernel⟩

theorem witness_LaneVotes :
    Issues s0 i0 .none (srcsM (fm 7 (v 383) zero (imm 7) 0) 1) ∧ Issues s0 i0 .none (srcsM (fw 7 (v 383) (g 63) zero 15 0 0).m 2) ∧
    src10 (imm 7) = .imm 7 7 ∧ 7 < tyP 0 ∧ tyInt 0 = true :=
  ⟨issues_of (by decide +kernel), issues_of (by decide +kernel), by decide +kernel⟩

def f11 : FmtM := fm 383 (v 0) (v 1) (v 383) 11

theorem witness_FloatArithmetic : (∀ x ∈ floatExact f11, Issues s0 i0 .float (srcsM f11 x.2.1)) ∧
    dvOk f11.d.toNat i0.g.budget = true ∧ tyF4 f11.ty.toNat = true :=
  ⟨issues_all (by decide +kernel), by decide +kernel⟩

/-- v0 holds a quiet and a signalling NaN, an infinity and 1; v1 a NaN, 1, a NaN and 2. -/
def sNan : State :=
  labG { fetchGroup [] with v := [(0, 0x7FF8000000000000), (1, 0x7FF0000000000001), (2, 0x7FF0000000000000), (3, 0x3FF0000000000000),
                                  (32, 0x7FF8000000000000), (33, 0x3FF0000000000000), (34, 0x7FF8000000000000), (35, 0x4000000000000000)] }
abbrev iNan : Iss := issOf sNan

theorem witness_FloatSelections :
    Issues sNan iNan .float (srcsM (fm 383 (v 0) zero zero 13) 1) ∧ Issues sNan iNan .float (srcsM f11 2) ∧
    Issues sNan iNan .float (srcsM f11 1) ∧ tyFloat 13 = true ∧ tyF4 11 = true ∧ dvOk 383 iNan.g.budget = true ∧
    (fval 11 (fin iNan.modes 11 (srcElem iNan (srcsM f11 2) 11 0 0 0))).isNan = true ∧
    (fval 11 (fin iNan.modes 11 (srcElem iNan (srcsM f11 2) 11 1 0 0))).isNan = true ∧
    (fval 11 (fin iNan.modes 11 (srcElem iNan (srcsM f11 2) 11 0 1 0))).isSnan = true ∧
    (fval 11 (fin iNan.modes 11 (srcElem iNan (srcsM f11 2) 11 1 1 0))).isNan = false ∧
    (fval 11 (fin iNan.modes 11 (srcElem iNan (srcsM f11 2) 11 0 2 0))).isNan = false ∧
    fkey 11 (fin iNan.modes 11 (srcElem iNan (srcsM f11 2) 11 0 3 0)) ≤ fkey 11 (fin iNan.modes 11 (srcElem iNan (srcsM f11 2) 11 1 3 0)) ∧
    fread iNan.modes 11 (srcElem iNan (srcsM f11 1) 11 0 2 0) = .inf false :=
  ⟨issues_of (by decide +kernel), issues_of (by decide +kernel), issues_of (by decide +kernel), by decide +kernel⟩

theorem witness_SpecialFunctions :
    (∀ x ∈ specialFunctions (fm 383 (v 0) (v 1) zero 10), Issues s0 i0 .float (srcsM (fm 383 (v 0) (v 1) zero 10) x.2.1)) ∧
    (∀ x ∈ (specialFunctions f11).filter (fun x => !x.2.2.1), Issues s0 i0 .float (srcsM f11 x.2.1)) ∧
    dvOk 383 i0.g.budget = true :=
  ⟨issues_all (by decide +kernel), issues_all (by decide +kernel), by decide +kernel⟩

/-! ## Short forms, pairs, tables, conversions -/

def fS : FmtS := { rb := false, nw := false, d := 63, a := 63, b := 95 }

theorem witness_ShortForms : (∀ x ∈ shortForms fS, Issues s0 i0 x.pfx (srcsS fS x.n)) ∧ Issues s0 i0 .none (srcsS fS 1) ∧
    dvOk fS.d.toNat i0.g.budget = true ∧ src7 fS.b = .imm (-1) 15 :=
  ⟨issues_all (by decide +kernel), issues_of (by decide +kernel), by decide +kernel⟩

def pairOf (d : Nat) : FmtD :=
  { rb := false, nw := false, x := { op := 0, d := 63, a := 2, b := 3, t := false }, y := { op := 34, d := BitVec.ofNat _ d, a := 5, b := 80, t := true } }

theorem witness_PairedIssue :
    Issues s0 i0 .none ((slotSrcs (pairOf 4).x ++ slotSrcs (pairOf 4).y).map Prod.fst) ∧
    Issues s0 i0 .none ((slotSrcs (pairOf 63).x ++ slotSrcs (pairOf 63).y).map Prod.fst) ∧
    slotReserved 0 = false ∧ slotReserved 34 = false ∧ (slotOp 0).isSome = true ∧ (slotOp 34).isSome = true ∧
    badPair (pairOf 4) = false ∧ badPair (pairOf 63) = true ∧ dvOk 63 i0.g.budget = true :=
  ⟨issues_of (by decide +kernel), issues_of (by decide +kernel), by decide +kernel⟩

/-- A READY bank: X0 = 0, cells of width 1, constants below and above. -/
def tabBytes : Sparse 8 := scells 0 ([0, 0, 0, 0, 0, 3, 0, 0] ++ toBytes 4 0x3F800000 ++ toBytes 4 0x40000000)
def labTab : Core := { labCore with bank0 := { ActBank.fresh with st := .ready, bytes := tabBytes } }
def sTab : State := labOf { labGroup [] with actSel := some 0 } fetchTeam labCtx labTab
def f10 : FmtM := fm 383 (v 383) zero zero 10

theorem witness_ActivationTables :
    Issues sTab (issOf sTab) .float (srcsM f10 1) ∧ Issues s0 i0 .float (srcsM f10 1) ∧ dvOk 383 (issOf sTab).g.budget = true ∧
    (sTab.core 0).readyBank (issOf sTab).g.actSel = some tabBytes ∧ (s0.core 0).readyBank i0.g.actSel = none ∧
    (fadd false (.fin true 1 0) (fval 10 (tabWord tabBytes 0)).neg).1 = .fin true (2 ^ 149) (-149) ∧
    (fadd false (.fin false 1024 0) (fval 10 (tabWord tabBytes 0)).neg).1 = .fin false (1024 * 2 ^ 149) (-149) ∧ 1024 ≤ 1024 * 2 ^ 149 / 2 ^ 149 ∧
    (fadd false (.fin false 1023 0) (fval 10 (tabWord tabBytes 0)).neg).1 = .fin false (1023 * 2 ^ 149) (-149) ∧
    (sget tabBytes 5).getLsbD 0 = true ∧ (sget tabBytes 5).getLsbD 1 = true ∧
    (fval 10 (tabWord tabBytes 8)).isNan = false ∧ (fval 10 (tabWord tabBytes 12)).isNan = false :=
  ⟨issues_of (by decide +kernel), issues_of (by decide +kernel), by decide +kernel⟩

/-- CVT from S64 into the last part of S8 and from the last part of S8 to F64; CVTQ, CVTB, DQ and VHAD at their last codes. -/
theorem witness_Conversions :
    Issues s0 i0 .conv [src10 (v 0), src10 (v 383)] ∧ Issues s0 i0 .conv [src10 (v 0)] ∧ Issues s0 i0 .float [src10 (v 0), src10 (v 1)] ∧
    Issues s0 i0 .float [src10 (v 0)] ∧ dvOk 383 i0.g.budget = true ∧
    (src10 (imm 115) = .imm (-13) 115 ∧ 115 / 16 < max (tyW 3) (tyW 0) / min (tyW 3) (tyW 0) ∧ tyW 0 < tyW 3) ∧
    (src10 (imm 112) = .imm (-16) 112 ∧ 112 / 16 < max (tyW 0) (tyW 11) / min (tyW 0) (tyW 11) ∧ tyW 0 ≤ tyW 11) ∧
    (src10 (imm 56) = .imm 56 56 ∧ 56 / 16 < tyW (56 % 16) / 4) ∧ (src10 (imm 3) = .imm 3 3 ∧ dvOk (382 + 1) i0.g.budget = true) ∧
    (3 % 8 < 16 / (64 / tyW 8) ∧ src10 (imm 32) = .imm 32 32 ∧ 32 / 8 ≤ 4 ∧ 32 % 8 < 4 / (64 / tyW 8)) ∧ src10 (imm 1) = .imm 1 1 :=
  ⟨issues_of (by decide +kernel), issues_of (by decide +kernel), issues_of (by decide +kernel), issues_of (by decide +kernel),
    by decide +kernel⟩

/-! ## Uniform and mask registers, latches, modes, branches -/

def fU : FmtM := fm 63 (g 63) (imm (-64)) (imm 5) 3

theorem witness_UniformAndMaskRegisters :
    Issues s0 i0 .none [] ∧ Issues s0 i0 .none (srcsM (fm 63 (v 383) (g 63) zero 15) 1) ∧
    (∀ x ∈ groupMinors fU, ∀ y ∈ srcsM fU x.2.1, y.uniform = true) ∧ src10 fU.c = .imm 5 5 ∧ fU.d.toNat < 64 ∧
    (∀ x ∈ maskMinors i0 (fm 7 7 7 zero 0), (7 : BitVec 10).toNat < 8) ∧ (src10 (g 63)).uniform = true :=
  ⟨issues_of (by decide +kernel), issues_of (by decide +kernel), by decide +kernel⟩

theorem witness_WholeRegisterWrites : Issues s0 i0 .none [] ∧ Issues s0 i0 .none (srcsM (fw 383 (v 383) (g 63) zero 0 0 (-524288)).m 2) ∧
    dvOk 383 i0.g.budget = true ∧ (src10 (g 63)).uniform = true :=
  ⟨issues_of (by decide +kernel), issues_of (by decide +kernel), by decide +kernel⟩

/-- The run of lanes 0 to 30; lane 31 is READY elsewhere. -/
def sRun : State :=
  labK [] { labCore with ports := { Port.fresh with run := some { fetchRun with sub := 0x7FFFFFFF, count := 22, filled := 4 } } :: List.replicate 3 Port.fresh }

theorem witness_LatchesShift :
    (∀ x ∈ intMinors f7, Issues sRun (issOf sRun) (vintPfx x.sat f7.ty.toNat) (srcsM f7 x.n)) ∧ dvOk 383 (issOf sRun).g.budget = true ∧
    f7.rb = false ∧ (issOf sRun).run.sub ≠ 0 ∧
    (∀ l, l < 32 → inSet (issOf sRun).sub l = false → ((issOf sRun).g.lane l).st = .ready →
      ((issOf sRun).g.lane l).pc ≠ (issOf sRun).run.pc + 8) :=
  ⟨issues_all (by decide +kernel), by decide +kernel⟩

theorem witness_ModesAndRegions :
    (sRun.iss? = some (issOf sRun) ∧ (issOf sRun).run.count + 1 < Config.runLimit ∧ (issOf sRun).run.pfx = none ∧
      ∀ l, l < 32 → inSet (issOf sRun).sub l = false → ((issOf sRun).g.lane l).st = .ready →
        ((issOf sRun).g.lane l).pc ≠ (issOf sRun).run.pc + 4) ∧
    Issues s0 i0 .none [] ∧ Issues s0 i0 .float [] ∧ fmodeOk (i0.uni (src10 (imm 13))).toNat = true ∧
    src10 (imm 0) = .imm 0 0 ∧ (src10 (g 63)).uniform = true ∧
    (i0.uni (src10 (imm 2))).toNat = 2 ∧ (i0.uni (src10 (imm 1))).toNat < 3 ∧ ((s0.core i0.core).actBank 1).st ≠ .loading :=
  ⟨by decide +kernel, issues_of (by decide +kernel), issues_of (by decide +kernel), by decide +kernel⟩

/-- Bank 1 loads. -/
def labLoading : Core := { labCore with bank1 := { ActBank.fresh with st := .loading } }
def sLoading : State := labK [] labLoading

theorem witness_ModesAndRegions_select : Issues sLoading (issOf sLoading) .none [] ∧ (src10 (imm 1)).uniform = true ∧
    ((issOf sLoading).uni (src10 (imm 1))).toNat = 1 ∧ ((sLoading.core (issOf sLoading).core).actBank 1).st = .loading :=
  ⟨issues_of (by decide +kernel), by decide +kernel⟩

/-- g1 is a multiple of 4 and g2 is not. -/
theorem witness_Branches : Issues s0 i0 .none [] ∧ Issues s0 i0 .none (srcsM (lastW (fw 383 (g 1) zero zero 0 1 4)).m 1) ∧
    Issues s0 i0 .none (srcsM (lastW (fw 0 (g 2) zero zero 0 0 0)).m 1) ∧ (src10 (g 1)).address = true ∧ dvOk 383 i0.g.budget = true ∧
    (∀ l, l < 32 → (i0.read (src10 (g 1)) l 15 + 0).toNat % 4 = 0) ∧ inSet (i0.act 0) 31 = true ∧
    (i0.read (src10 (g 2)) 31 15 + 0).toNat % 4 ≠ 0 :=
  ⟨issues_of (by decide +kernel), issues_of (by decide +kernel), issues_of (by decide +kernel), by decide +kernel⟩

end Sys2Proof.Tests
end

