-- ==== Sys2Proof/Tests/WitnessMemory.lean ====
section
/-! SUPPORT. Witnesses for the statements about leaving lanes, budgets, memory, fences, monitors, names and barriers. -/

namespace Sys2Proof.Tests

open Sys2Proof Sys2Proof.Machine Sys2Proof.Bits

set_option Elab.async false

/-! ## Leaving, budgets, spawning -/

/-- k1 names lanes 0 to 15, and every lane is enrolled in j7. -/
def sHalf : State := labG { fetchGroup [] with k := [(1, 0xFFFF)], j := [(7, 0xFFFFFFFF)] }

theorem witness_LanesLeave :
    Issues s0 i0 .none [] ∧ Issues sHalf (issOf sHalf) .none [] ∧
    (∀ l, l < 32 → inSet (i0.act 0) l = true ∨ (i0.g.lane l).st = .exited) ∧
    (∃ l, l < 32 ∧ inSet ((issOf sHalf).act 1) l = false ∧ ((issOf sHalf).g.lane l).st ≠ .exited) ∧
    i0.g.jget 7 &&& ~~~ i0.act 0 = 0 ∧ (issOf sHalf).g.jget 7 &&& ~~~ (issOf sHalf).act 1 ≠ 0 ∧
    (∀ d, d < 8 → cvBound (i0.g.cvget d) = false) ∧ s0.leaving i0.key i0.g = false :=
  ⟨issues_of (by decide +kernel), issues_of (by decide +kernel), by decide +kernel⟩

/-- Nobody waits at a barrier in a state of one group whose lanes are all READY. -/
theorem noBarrierWait_of {s : State} {x : Group} (hs : s.groups = [(0, x)]) (h : ∀ l, l < 32 → (x.lane l).st = .ready) : NoBarrierWait s := by
  intro k g hg l w hl hw
  unfold State.group? at hg
  rw [hs] at hg
  simp only [findGroup] at hg
  split at hg
  · cases hg; rw [h l hl] at hw; cases hw
  · cases hg

theorem witness_LanesLeave_barriers : NoBarrierWait sHalf := noBarrierWait_of rfl (by decide +kernel)

/-- A group that holds one block on a port with `pool` free blocks. -/
def sOne (pool : Nat) (q : List GrowWait) : State :=
  labOf { fetchGroup [] with budget := 1 } fetchTeam labCtx
    { labCore with ports := { Port.fresh with run := some fetchRun, pool := pool, waitq := q } :: List.replicate 3 Port.fresh }

/-- A spawn record for one team of one group of 48 blocks, 4 KiB of scratchpad. -/
def recBytes : List Byte := List.replicate 16 0 ++ [1, 0, 1, 0, 1, 0, 3, 1, 1, 48] ++ List.replicate 38 0
def recOff : Nat := 523200
def sSpawn (n : Nat) : State :=
  { labOf (labGroup [(1, BitVec.ofNat 64 recOff)]) fetchTeam labCtx { labCore with spad := scells recOff recBytes } with
    queues := { LaunchQueue.fresh with ctx := some 0, recs := List.replicate n { bytes := recBytes, pc := 0, who := none, peer := 0 } } ::
      List.replicate 63 LaunchQueue.fresh }

theorem witness_GroupChanges_budgets :
    Issues s0 i0 .none [] ∧ (i0.uni (src10 (imm 48))).toNat = i0.g.curBudget ∧ (src10 (imm 48)).uniform = true ∧
    (Issues (sOne 47 []) (issOf (sOne 47 [])) .none [] ∧ (issOf (sOne 47 [])).g.curBudget < 48 ∧ (((sOne 47 []).core 0).port 0).waitq = [] ∧
      48 - (issOf (sOne 47 [])).g.curBudget ≤ (((sOne 47 []).core 0).port 0).pool) ∧
    (Issues (sOne 46 []) (issOf (sOne 46 [])) .none [] ∧
      (((sOne 46 []).core 0).port 0).pool < 48 - (issOf (sOne 46 [])).g.curBudget) ∧
    ((i0.uni (src10 (imm 1))).toNat = 1 ∧ 1 < i0.g.curBudget ∧ ((s0.core 0).port 0).waitq = []) :=
  ⟨issues_of (by decide +kernel), by decide +kernel, by decide +kernel,
    ⟨issues_of (by decide +kernel), by decide +kernel, by decide +kernel, by decide +kernel⟩,
    ⟨issues_of (by decide +kernel), by decide +kernel⟩, by decide +kernel⟩

theorem witness_GroupChanges_spawn : ∀ n ∈ [63, 64], Issues (sSpawn n) (issOf (sSpawn n)) .none [] ∧
    (sSpawn n).stalls (issOf (sSpawn n)) true = false ∧ (src10 (g 1)).isG = true ∧
    ((issOf (sSpawn n)).uni (src10 (g 1))).toNat = recOff ∧ recOff % 64 = 0 ∧ recOff + 64 = (issOf (sSpawn n)).t.ringStart ∧
    absent ((sSpawn n).core 0) recOff 64 = false ∧ recBad (teamPacket (sSpawn n) (issOf (sSpawn n)).t recOff) = false ∧
    (sSpawn n).queueBound (issOf (sSpawn n)).c.lq (issOf (sSpawn n)).c.num = true ∧
    ((sSpawn n).lqueue (issOf (sSpawn n)).c.lq).full = decide (n = 64) := by
  intro n hn
  refine ⟨issues_of ?_, ?_⟩ <;> revert n hn <;> decide +kernel

theorem witness_GroupChanges_yield : Issues s0 i0 .none [] ∧ (i0.uni (src10 (imm 63))).toNat = 63 ∧ (i0.uni (src10 (g 63))).toNat = 64 ∧
    (src10 (g 63)).uniform = true ∧ (s0.group? (slotKey 0 0 0)).isSome = true :=
  ⟨issues_of (by decide +kernel), by decide +kernel⟩

/-! ## Memory -/

/-- Every lane of an access through g1 lands at the location it was mapped to. -/
def at1 (_ : Nat) : Loc := { space := 0, pa := 0x20000, nc := false }

/-- What a lane's check gives where it passes. -/
def passed (x : LaneLoc) : Chk := { Chk.none with ok := [x], req := [x], walk := [x.va] }

theorem passes_of {c : Chk} {x : LaneLoc} (h : c = passed x) : Passes c x := by subst h; exact ⟨rfl, rfl, rfl, rfl⟩

theorem allPass_of {s : State} {i : Iss} {acc : Acc} {code align n : Nat} {m : LaneSet} {va : Nat → Nat} {loc : Nat → Loc}
    (h : ∀ l, l < 32 → inSet m l = true → s.checkLane i acc code align n l (va l) = passed { lane := l, va := va l, loc := loc l }) :
    AllPass s i acc code align n m va loc := lanes_of fun l h1 h2 => passes_of (h l h1 h2)

/-- No page of some addresses waits for a walker. -/
theorem walked_of {s : State} {i : Iss} {vas : List Nat} (h : s.walksWait i.c vas = false) : Walked s i vas := h

/-- Lanes 0 and 31 are active under k1. -/
def s1 : State := labG { labGroup [(1, 0x20000), (2, 63)] with k := [(1, 0x80000001)] }
abbrev i1 : Iss := issOf s1

/-- Four N64 elements at g1, which is aligned, and at g2, which is not. -/
def fL (a : Nat) : FmtW := gW (fw 380 (g a) (v 380) zero 7 2 0)

/-- g3 leads to a page that is not there. -/
def sGone : State := labG { labGroup [(3, 0x20000000)] with k := [(1, 0x80000001)] }

/-- A lane of a load, of a store, meets an absent page. -/
theorem witness_Replays :
    Issues sGone (issOf sGone) .none (srcsM (fL 3).m 1) ∧ Issues sGone (issOf sGone) .none (srcsM (fL 3).m 2) ∧
    Walked sGone (issOf sGone) (eas (fL 3) (4 * 8) (issOf sGone)) ∧
    inSet ((issOf sGone).act 1) 31 = true ∧ ea (issOf sGone) (fL 3) 31 % (4 * 8) = 0 ∧ replayable cPageNotPresent = true ∧
    (∀ a ∈ [Acc.read, .write], sGone.resolve6 (issOf sGone).c (issOf sGone).priv a (ea (issOf sGone) (fL 3) 31) (4 * 8) =
      .error cPageNotPresent) ∧
    sGone.stalls (issOf sGone) false = false ∧ (src10 (g 3)).address = true ∧
    storeSrcOk (issOf sGone) (src10 (fL 3).m.b) 7 4 = true :=
  ⟨issues_of (by decide +kernel), issues_of (by decide +kernel), walked_of (by decide +kernel), by decide +kernel⟩

theorem witness_Loads :
    Issues s1 i1 .none (srcsM (fL 1).m 1) ∧ AllPass s1 i1 .read 0 (4 * 8) (4 * 8) (i1.act 1) (ea i1 (fL 1)) at1 ∧
    Walked s1 i1 (eas (fL 1) (4 * 8) i1) ∧ s1.remotes = [] ∧
    memBad (fL 1) = false ∧ wScopeBad (fL 1) = false ∧ wRel (fL 1) = false ∧ memCount (fL 1).aux = 4 ∧ memW 7 = 8 ∧
    vRangeOk 380 4 i1.g.budget = true ∧ (src10 (g 1)).address = true ∧ s1.stalls i1 false = false ∧
    inSet (i1.act 1) 31 = true ∧ ea i1 (fL 2) 31 % (4 * 8) ≠ 0 :=
  ⟨issues_of (by decide +kernel), allPass_of (by decide +kernel), walked_of (by decide +kernel), by decide +kernel⟩

/-- Core 1 was the last to release the line at g1, and has no store that a peer has not acknowledged. -/
def sPromo : State := { s1 with release := [(locKey 0 0x20000 / 128, 2)] }
def fLp : FmtW := { fL 1 with promo := true }

theorem witness_Loads_promotion : fLp.promo = true ∧ NoPromotion sPromo (issOf sPromo) fLp.promo ((issOf sPromo).act 1) at1 ∧
    sPromo.promoTo (sPromo.fabNum.getD 0) (issOf sPromo).core 0 0x20000 = some 1 ∧ NoPromotion s1 i1 true (i1.act 1) at1 := by
  have a : sPromo.promoTo (sPromo.fabNum.getD 0) (issOf sPromo).core 0 0x20000 = some 1 := by decide +kernel
  have b : s1.promoTo (s1.fabNum.getD 0) i1.core 0 0x20000 = none := by decide +kernel
  refine ⟨rfl, fun _ l _ tgt h => Or.inl ?_, a, fun _ l _ tgt h => ?_⟩
  · cases a.symm.trans h; decide +kernel
  · cases b.symm.trans h

theorem witness_Stores :
    Issues s1 i1 .none (srcsM (fL 1).m 2) ∧ AllPass s1 i1 .write 1 (4 * 8) (4 * 8) (i1.act 1) (ea i1 (fL 1)) at1 ∧
    (∀ l, inSet (i1.act 1) l = true → (at1 l).space = 0 ∨ ((at1 l).space = 1 ∧ s1.unreachable = false)) ∧
    Walked s1 i1 (eas (fL 1) (4 * 8) i1) ∧
    memBad (fL 1) = false ∧ (fL 1).scope.toNat < 5 ∧ wAcq (fL 1) = false ∧ storeSrcOk i1 (src10 (v 380)) 7 4 = true ∧
    s1.stalls i1 (wRelWide (fL 1)) = false ∧ s1.eccBad = [] ∧ s1.tagBad = [] ∧ ea i1 (fL 2) 31 % (4 * 8) ≠ 0 :=
  ⟨issues_of (by decide +kernel), allPass_of (by decide +kernel), fun _ _ => Or.inl rfl, walked_of (by decide +kernel), by decide +kernel⟩

/-- The last 32 bytes of the allocation; in the second state a drain holds their chunk. -/
def sLast (w : List Writer) : State := labOf (labGroup [(1, 0x7FFE0)]) fetchTeam labCtx { labCore with writers := w }
def fLs : FmtW := ordW (fL 1) 1 0

theorem witness_ScratchpadAccess : ∀ w ∈ [[], [({ place := 0, chunks := [1023] } : Writer)]],
    Issues (sLast w) (issOf (sLast w)) .none (srcsM fLs.m 1) ∧ Issues (sLast w) (issOf (sLast w)) .none (srcsM fLs.m 2) ∧
    memBad fLs = false ∧ fLs.scope.toNat < 2 ∧ wRel fLs = false ∧ wAcq fLs = false ∧ (sLast w).stalls (issOf (sLast w)) false = false ∧
    vRangeOk 380 4 (issOf (sLast w)).g.budget = true ∧ storeSrcOk (issOf (sLast w)) (src10 (v 380)) 7 4 = true ∧
    (∀ l, l < 32 → ea (issOf (sLast w)) fLs l % (4 * 8) = 0 ∧ ea (issOf (sLast w)) fLs l + 4 * 8 = (issOf (sLast w)).t.size) ∧
    absent ((sLast w).core 0) ((issOf (sLast w)).t.base + ea (issOf (sLast w)) fLs 0) (4 * 8) = decide (w ≠ []) := by
  intro w hw
  refine ⟨issues_of ?_, issues_of ?_, ?_⟩ <;> revert w hw <;> decide +kernel

def fA (ty : Nat) : FmtW := gW (fw 383 (g 1) (v 383) (v 0) ty 0 0)

theorem witness_Atomics :
    (∀ x ∈ atomics (fA 7), Issues s1 i1 .none (srcsM (fA 7).m (if x.2.2.2 then 3 else 2))) ∧
    (∀ x ∈ atomics (fA 11), Issues s1 i1 .none (srcsM (fA 11).m (if x.2.2.2 then 3 else 2))) ∧
    AllPass s1 i1 .atomic 3 (memW 7) (memW 7) (i1.act 1) (ea i1 (fA 7)) at1 ∧
    AllPass s1 i1 .atomic 3 (memW 11) (memW 11) (i1.act 1) (ea i1 (fA 11)) at1 ∧
    (∀ x ∈ atomics (fA 7), 7 ∈ x.2.1 ∨ 11 ∈ x.2.1) ∧ wScopeBad (fA 7) = false ∧ dvOk 383 i1.g.budget = true ∧
    s1.stalls i1 (wRelWide (fA 7)) = false ∧ Walked s1 i1 (eas (fA 7) (memW 7) i1) :=
  ⟨issues_all (by decide +kernel), issues_all (by decide +kernel), allPass_of (by decide +kernel), allPass_of (by decide +kernel),
    by decide +kernel, by decide +kernel, by decide +kernel, by decide +kernel, walked_of (by decide +kernel)⟩

/-! ## Fences, monitors, team barriers -/

def sFence : State := labG { labGroup [(1, 0x20000)] with awaits := [{ reg := .fence 4, lanes := 0x80000000 }, { reg := .v 383, lanes := 1 }] }

theorem witness_FencesAndLines :
    Issues s1 i1 .none [] ∧ Issues s1 i1 .none (srcsM (fL 1).m 1) ∧ Issues sFence (issOf sFence) .none (srcsM (fL 1).m 1) ∧
    Walked s1 i1 (eas (fL 1) (memCount (fL 1).aux * memW 7) i1) ∧ Walked s1 i1 (eas (ordW (fL 1) 4 0) 1 i1) ∧
    ({ reg := .fence 4, lanes := 0x80000000 } : Await) ∈ (issOf sFence).g.awaits ∧ (0x80000000 : LaneSet) &&& (issOf sFence).sub ≠ 0 ∧
    (ordW (fL 1) 4 3).ord = 3 ∧ (ordW (fL 1) 4 3).scope.toNat < 5 ∧ sFence.stalls (issOf sFence) false = true ∧
    (fL 1).hint ≠ 3 ∧ (ordW (fL 1) 4 0).scope = 4 ∧ wAcq (ordW (fL 1) 4 0) = false ∧
    (∀ l, l < 32 → inSet (i1.act 1) l = true → s1.resolve6 i1.c i1.priv .read (ea i1 (ordW (fL 1) 4 0) l) 1 = .ok (at1 l)) ∧
    (issOf sFence).g.awaits = [] ++ { reg := .fence 4, lanes := 0x80000000 } :: [{ reg := .v 383, lanes := 1 }] ∧
    (issOf sFence).g.awaits = [{ reg := .fence 4, lanes := 0x80000000 }] ++ { reg := .v 383, lanes := 1 } :: [] ∧ sFence.remotes = [] :=
  ⟨issues_of (by decide +kernel), issues_of (by decide +kernel), issues_of (by decide +kernel), walked_of (by decide +kernel),
    walked_of (by decide +kernel), by decide +kernel⟩

/-- Lanes that return from a parked MWAIT, and a group parked at one whose time is over. -/
def sRet : State := labG { labGroup [(1, 0x20000)] with lanes := List.replicate 32 { Lane.fresh with pc := fetchPc, ret := true } }
def sWait : State :=
  { labG { labGroup [] with mon := { Monitor.off with armed := true, deadline := 5 },
                            lanes := List.replicate 32 { Lane.fresh with pc := fetchPc, st := .parked .monitor } } with cycle := 5 }
def fMw (b : BitVec 10) : FmtW := fw 63 (g 1) b zero 7 15 0

theorem witness_Monitors :
    Issues s0 i0 .none [] ∧ Issues sRet (issOf sRet) .none [] ∧
    lowestLane i0 = 0 ∧ lowestLane (issOf sRet) = 0 ∧
    (∀ w ∈ [1, 8], Passes (s0.checkLane i0 .read 0 w w 0 (ea i0 (fMw zero) 0)) { lane := 0, va := 0x20000, loc := at1 0 }) ∧
    Passes (sRet.checkLane (issOf sRet) .read 0 8 8 0 (ea (issOf sRet) (fMw zero) 0)) { lane := 0, va := 0x20000, loc := at1 0 } ∧
    Walked s0 i0 [ea i0 (fMw zero) 0] ∧ Walked sRet (issOf sRet) [ea (issOf sRet) (fMw zero) 0] ∧
    (src10 (g 1)).isG = true ∧ s0.stalls i0 false = false ∧ (fMw zero).scope.toNat = 2 ∧ wRel (fMw zero) = false ∧
    (src10 zero).uniform = true ∧ s0.readNat 0 0x20000 8 = (i0.uni (src10 zero)).toNat % 2 ^ 64 ∧
    s0.readNat 0 0x20000 8 ≠ (i0.uni (src10 (imm 1))).toNat % 2 ^ 64 ∧
    (∀ l, l < 32 → (i0.g.lane l).ret = false) ∧ (∀ l, l < 32 → ((issOf sRet).g.lane l).ret = true) ∧ (issOf sRet).run.sub ≠ 0 ∧
    i0.g.mon.armed = false ∧ s0.monitorsFull 0 0x20000 = false ∧
    (issOf sWait).g.mon.deadline ≠ 0 ∧ (issOf sWait).g.mon.deadline ≤ sWait.cycle.toNat ∧
    (∃ l, l < 32 ∧ ((issOf sWait).g.lane l).st = .parked .monitor) :=
  ⟨issues_of (by decide +kernel), issues_of (by decide +kernel), by decide +kernel, by decide +kernel,
    fun w hw => passes_of (by revert w hw; decide +kernel), passes_of (by decide +kernel), walked_of (by decide +kernel), walked_of (by decide +kernel), by decide +kernel⟩

/-- A second group of the team that stands READY, or parked at the barrier. -/
def sTwo (st : LaneState) : State :=
  let s := labT [] { fetchTeam with groups := [(0, 0), (1, 16)], ngroups := 2 }
  { s with groups := s.groups ++ [(16, { fetchGroup [] with gid := 0x100000000000000, lanes := List.replicate 32 { Lane.fresh with st := st } })] }
def fT (scope : Nat) : FmtW := ordW (fw 0 zero zero zero 0 0 0) scope 3

theorem witness_TeamBarriers : ∀ w ∈ [LaneState.ready, .parked (.tbar 1), .parked (.rbar 4)],
    Issues (sTwo w) (issOf (sTwo w)) .none [] ∧ (fT 4).ord = 3 ∧ (fT 1).scope.toNat = 1 ∧ (fT 4).scope.toNat < 5 ∧
    (sTwo w).stalls (issOf (sTwo w)) true = false ∧ (issOf (sTwo w)).t.savedGrp = [] ∧ (issOf (sTwo w)).key ∈ (issOf (sTwo w)).t.groups.map Prod.snd ∧
    (∀ l, l < 32 → inSet (issOf (sTwo w)).sub l = true) ∧
    (∀ g, (sTwo w).group? 16 = some g → (arrivedAt Wait.isTbar g = decide (w = .parked (.tbar 1))) ∧
      (arrivedAt Wait.isRbar g = decide (w = .parked (.rbar 4)))) := by
  intro w hw
  simp only [List.mem_cons, List.mem_nil_iff, or_false] at hw
  rcases hw with rfl | rfl | rfl
  all_goals refine ⟨issues_of (by decide +kernel), by decide, by decide, by decide, by decide +kernel, by decide +kernel, by decide +kernel,
    by decide +kernel, fun g hg => ?_⟩
  all_goals (cases hg; decide +kernel)

/-- The last lanes outstanding of the team exit; the others wait at its barrier. -/
def sLeave : State :=
  let s := labT [] { fetchTeam with groups := [(0, 0), (1, 16)], ngroups := 2 }
  let at_ (k : Nat) : Lane := { Lane.fresh with pc := fetchPc, st := if k < 16 then .ready else .parked (.tbar 1) }
  let core := { labCore with ports := { Port.fresh with run := some { fetchRun with sub := 0xFFFF } } :: List.replicate 3 Port.fresh }
  { s with groups := [(0, { fetchGroup [] with lanes := (List.range 32).map at_ }),
                      (16, { fetchGroup [] with gid := 0x100000000000000, lanes := List.replicate 32 (at_ 16) })],
           cores := core :: List.replicate 191 Core.fresh }
def fEx : FmtW := lastW (fw 0 zero zero zero 0 0 0)

theorem witness_TeamBarriers_exit :
    Issues sLeave (issOf sLeave) .none [] ∧ fEx.m.rb = true ∧ fEx.m.nw = false ∧ (issOf sLeave).t.savedGrp = [] ∧
    (issOf sLeave).key ∈ (issOf sLeave).t.groups.map Prod.snd ∧ (issOf sLeave).act 0 ≠ 0 ∧
    (∀ l, l < 32 → inSet ((issOf sLeave).act 0) l = false → ((issOf sLeave).g.lane l).st = .parked (.tbar 1)) ∧
    inSet ((issOf sLeave).act 0) 31 = false ∧ (∀ g, sLeave.group? 16 = some g → arrivedAt Wait.isTbar g = true) := by
  refine ⟨issues_of (by decide +kernel), by decide, by decide, by decide +kernel, by decide +kernel, by decide +kernel,
    by decide +kernel, by decide +kernel, fun g hg => ?_⟩
  cases hg; decide +kernel

/-! ## Names -/

theorem resident_plain (s : State) (ctx n : Nat) (h : n < 2 ^ 64) : Resident s ctx n (BitVec.ofNat 64 n) := by
  intro u _ _ _
  refine ⟨u, ?_, rfl⟩
  have hb : bit n 127 = false := by
    unfold bit; exact Nat.testBit_lt_two_pow (Nat.lt_of_lt_of_le h (Nat.pow_le_pow_right (by omega) (by omega)))
  have hf : fld n 64 63 = 0 := by
    unfold fld; rw [Nat.shiftRight_eq_div_pow, Nat.div_eq_of_lt h]; rfl
  simp [State.swizzle, hb, hf]

/-- The name of the last place of the lab's code object. -/
def codeName : Nat := 2 ^ 127 + 1 * 2 ^ 124 + 5 * 2 ^ 108 + 7 * 2 ^ 44 + 0x100000

def sName : State := labG { labGroup [(1, 0x20000), (3, BitVec.ofNat 64 (codeAt 0xFFFFF)), (4, BitVec.ofNat 64 (2 ^ 64 - 1))] with k := [(1, 0x80000000)] }
def fN (a : Nat) : FmtW := gW (fw 382 (g a) zero zero 0 0 0)

theorem witness_Pointers :
    Issues sName (issOf sName) .none (srcsM (fN 1).m 1) ∧ Issues sName (issOf sName) .none (srcsM (fN 3).m 2) ∧
    AllPass sName (issOf sName) .read 0 16 16 ((issOf sName).act 1) (ea (issOf sName) (fN 1)) at1 ∧
    AllPass (sName.fillTlbs (issOf sName).c (windowVas (issOf sName) (src10 zero) ((issOf sName).act 1))) (issOf sName) .write 1 16 16
      ((issOf sName).act 1) (ea (issOf sName) (fN 1)) at1 ∧
    Walked sName (issOf sName) (eas (fN 1) 16 (issOf sName)) ∧
    (∀ l, inSet ((issOf sName).act 1) l = true → Resident sName 0 (ofBytes
      ((sName.l1Settle 0 ((lanesOf ((issOf sName).act 1)).map fun j => { lane := j, va := ea (issOf sName) (fN 1) j, loc := at1 j })).loadBytes
        0 2 0 0x20000 16)) 0) ∧
    (∀ l, inSet ((issOf sName).act 1) l = true →
      Resident sName 0 (((issOf sName).read (src10 (g 4)) l 15).toNat + 2 ^ 64 * ((issOf sName).read (src10 zero) l 15).toNat) (BitVec.ofNat 64 (2 ^ 64 - 1))) ∧
    (wScopeBad (fN 1) = false ∧ wRel (fN 1) = false ∧ wAcq (fN 1) = false ∧ dvOk 382 (issOf sName).g.budget = true ∧
      vRangeOk 382 2 (issOf sName).g.budget = true ∧ (src10 (g 1)).address = true ∧ sName.stalls (issOf sName) false = false) ∧
    (∀ x ∈ [zero, g 3], let u := sName.fillTlbs (issOf sName).c (windowVas (issOf sName) (src10 x) ((issOf sName).act 1))
      u.unswizzle (issOf sName).c 0 = .ok 0 ∧ u.unswizzle (issOf sName).c (codeAt 0xFFFFF) = .ok (codeName - 1) ∧
      u.rangeOf (issOf sName).c (codeAt 0xFFFFF) = .ok (some (rot 0 1 (codeAt 0) 0x100000))) ∧ inWindow (codeAt 0xFFFFF) = true ∧
    ((issOf sName).read (src10 (g 3)) 31 15).toNat = codeAt 0xFFFFF ∧ inWindow (2 ^ 64 - 1) = false := by
  refine ⟨issues_of (by decide +kernel), issues_of (by decide +kernel), allPass_of (by decide +kernel), allPass_of (by decide +kernel),
    walked_of (by decide +kernel), fun l _ => ?_, lanes_of fun l h1 h2 => ?_, by decide +kernel⟩
  · have : ofBytes
        ((sName.l1Settle 0 ((lanesOf ((issOf sName).act 1)).map fun j => { lane := j, va := ea (issOf sName) (fN 1) j, loc := at1 j })).loadBytes
          0 2 0 0x20000 16) = 0 := by
      rw [State.loadBytes_l1Settle _ _ _ (by decide)]; decide +kernel
    rw [this]; exact resident_plain _ _ 0 (by decide)
  · have : ((issOf sName).read (src10 (g 4)) l 15).toNat + 2 ^ 64 * ((issOf sName).read (src10 zero) l 15).toNat = 2 ^ 64 - 1 := by
      revert l; decide +kernel
    rw [this]; exact resident_plain _ _ _ (by decide)

/-- A resident object's name swizzles whatever else the state holds. -/
theorem witness_Resident : Resident sName 0 codeName (BitVec.ofNat 64 (codeAt 0x100000)) := by
  intro u hm hc hf
  have h1 : u.ctx? 0 = some labCtx := by unfold State.ctx?; rw [hc]; decide +kernel
  have h2 : rotScan u.mem labCtx (rotProbes labCtx 5 7) = rotScan sName.mem labCtx (rotProbes labCtx 5 7) := by rw [hm]
  have h3 : (match rotScan sName.mem labCtx (rotProbes labCtx 5 7) with
    | .error _ => false
    | .ok es => (es.find? fun e => e.st != 0 && e.realm == 5 && e.obj == 7) == some (rot 0 1 (codeAt 0) 0x100000)) = true := by decide +kernel
  unfold State.swizzle
  rw [if_neg (by decide +kernel)]
  have hr : fld codeName 108 16 = 5 := by decide +kernel
  have ho : fld codeName 44 64 = 7 := by decide +kernel
  simp only [hr, ho]
  rw [if_neg (by decide +kernel), h1]
  have hb : labCtx.binding 5 = some { realm := 5, log2n := 4, valid := true, dirBase := 0x30400 } := by decide +kernel
  simp only [hb]
  have hk : CostsOnly u (u.rotReads labCtx (rotProbes labCtx 5 7)) := .rotReads ..
  rw [hk.mem, h2]
  cases e : rotScan sName.mem labCtx (rotProbes labCtx 5 7) with
  | error c => rw [e] at h3; cases h3
  | ok es =>
    rw [e] at h3
    simp only [beq_iff_eq] at h3
    simp only [h3]
    exact ⟨_, congrArg (Prod.mk _) (by decide +kernel), hk⟩

def fH : FmtW := gW (fw 0 (g 3) zero zero 0 0 0)
def held0 : RotEnt := rot 0 1 (codeAt 0) 0x100000
/-- The state in which the holds are counted. -/
def sHold : State := sName.fillTlbs (issOf sName).c (windowVas (issOf sName) (src10 fH.m.a) ((issOf sName).act fH.m.g.toNat))
def sHeld (n : Nat) : State := sHold.devWrite (issOf sName).c.world ((issOf sName).c.rotBase + 32 * held0.idx + 12) (toBytes 2 n)

theorem witness_HoldCounts : Issues sName (issOf sName) .none (srcsM fH.m 1) ∧ sName.stalls (issOf sName) false = false ∧
    HoldsCounted (issOf sName) true (fun l => (issOf sName).read (src10 fH.m.a) l 15) (lanesOf ((issOf sName).act fH.m.g.toNat)) sHold (sHeld (held0.hold + 1)) ∧
    HoldsCounted (issOf sName) false (fun l => (issOf sName).read (src10 fH.m.a) l 15) (lanesOf ((issOf sName).act fH.m.g.toNat)) sHold (sHeld (held0.hold - 1)) := by
  have h : lanesOf ((issOf sName).act fH.m.g.toNat) = [31] := by decide +kernel
  rw [h]
  exact ⟨issues_of (by decide +kernel), by decide +kernel,
    ⟨by decide +kernel, held0, by decide +kernel, by decide +kernel, (if_pos rfl).symm⟩,
    ⟨by decide +kernel, held0, by decide +kernel, by decide +kernel, ((if_neg (by decide)).trans (if_neg (by decide))).symm⟩⟩

/-! ## Barriers and ring slots -/

/-- A barrier at offset 0x100 of the scratchpad. -/
def bar0 : Bar := { pend := 0, armed := false, phase := false, error := false, overrun := false, rsvLo := 0, cause := 0, chunks := 64, tile := 0, rsvHi := 0 }
def sBar (b : Bar) (w : List Writer) : State :=
  labOf (labGroup [(1, 0x100), (2, 0x20000), (3, 1022), (4, 0x7FFFFFFF), (5, BitVec.ofNat 64 (2 ^ 63))]) fetchTeam labCtx
    { labCore with spad := scells 0x100 (toBytes 16 b.bits), writers := w }
def fB1 (b c : BitVec 10) (aux : Nat) (x : Int) : FmtW := fw 63 (g 1) b c 0 aux x
def locB : BarLoc := .spad 0 0x100

theorem witness_ChunkBarriers_updates :
    Issues (sBar bar0 []) (issOf (sBar bar0 [])) .none [] ∧ barOk (src10 (g 1)) false = true ∧
    BarrierAt (sBar bar0 []) (issOf (sBar bar0 [])) (fB1 zero (g 3) 0 0) locB ∧ (sBar bar0 []).stalls (issOf (sBar bar0 [])) false = false ∧
    (sBar bar0 []).barGet locB = bar0 ∧
    (0 + 512 * ((issOf (sBar bar0 [])).uni (src10 (g 3))).toNat = (issOf (sBar bar0 [])).t.ringStart ∧
      ((issOf (sBar bar0 [])).uni (src10 (g 3))).toNat ≤ 1024) ∧
    ((issOf (sBar bar0 [])).uni (src10 (g 4)) + (0 : BitVec 20).signExtend 64).toInt = 0x7FFFFFFF ∧
    ((issOf (sBar bar0 [])).uni (src10 zero) + (1 : BitVec 20).signExtend 64).toInt = 1 ∧
    (src10 (g 4)).uniform = true ∧ wRel (fB1 zero zero 0 0) = false :=
  ⟨issues_of (by decide +kernel), by decide +kernel, by unfold BarrierAt; rw [if_neg (by decide +kernel)]; decide +kernel, by decide +kernel⟩

/-- The same with DEV, at device address g2. -/
theorem witness_ChunkBarriers_dev : let f := fw 63 (g 2) zero zero 0 8 0
    BarrierAt (sBar bar0 []) (issOf (sBar bar0 [])) f (.dev 0 0x20000) ∧
    Walked (sBar bar0 []) (issOf (sBar bar0 [])) [barAddr (issOf (sBar bar0 [])) (src10 f.m.a)] ∧
    barOk (src10 (g 2)) (devOf f) = true ∧ devOf f = true ∧ (sBar bar0 []).eccBad = [] ∧ (sBar bar0 []).tagBad = [] := by
  refine ⟨?_, walked_of (by decide +kernel), by decide +kernel⟩
  unfold BarrierAt
  rw [if_pos (by decide +kernel)]
  exact ⟨at1 0, rfl, passes_of (by decide +kernel)⟩

theorem witness_ChunkBarriers_waits :
    (∀ x ∈ [({ bar0 with armed := true, pend := 1 }, ([] : List Writer)), ({ bar0 with phase := true }, [{ place := 0, chunks := [63] }]),
            ({ bar0 with error := true }, []), ({ bar0 with overrun := true }, [])],
      Issues (sBar x.1 x.2) (issOf (sBar x.1 x.2)) .none [] ∧
      ((sBar x.1 x.2).barGet locB = x.1 ∧ ((issOf (sBar x.1 x.2)).uni (src10 (g 1))).toNat = 0x100 ∧
        (sBar x.1 x.2).stalls (issOf (sBar x.1 x.2)) false = false ∧
        (∀ l, l < 32 → ((issOf (sBar x.1 x.2)).g.lane l).seen = 0) ∧
        (((issOf (sBar x.1 x.2)).uni (src10 (g 5))).toNat.testBit 63 = true ∧
          0 + ((issOf (sBar x.1 x.2)).uni (src10 (g 5))).toNat.log2 < x.1.chunks ∧
          absent ((sBar x.1 x.2).core 0) (0 + 0 + 512 * (0 + 63)) 1 = decide (x.2 ≠ [])))) ∧
    (imm 1).toNat = 641 ∧ (issOf (sBar bar0 [])).uni (src10 (imm 1)) = 1 := by
  refine ⟨fun x hx => ⟨issues_of ?_, ?_⟩, by decide +kernel⟩ <;> revert x hx <;> decide +kernel

/-- A team of one role whose ring is as given; the ring starts at 523,264. -/
def sRing (r : List RingSlot) (off : Nat) : State := labT [(1, BitVec.ofNat 64 off)] { fetchTeam with ring := r, record := recBytes }
def slot7 : Nat := 523712
def subm : RingSlot := .submitted 0 { team := some 0, ctx := 0, world := 1, gid := 0, pc := 0, port := 0, slot := 0, peer := 0 }

def ringHeld : List RingSlot := List.replicate 7 subm ++ [.held 0]

/-- The slot held is the last; a general slot is FREE; only the reserve is; none is. -/
theorem witness_RingSlots :
    (∀ r ∈ [ringHeld, List.replicate 6 subm ++ [.free, .free], List.replicate 7 subm ++ [.free], List.replicate 8 subm],
      Issues (sRing r slot7) (issOf (sRing r slot7)) .none [] ∧ (issOf (sRing r slot7)).t.ring.length = 8) ∧
    (let i := issOf (sRing (ringHeld) slot7)
     gidGroup i.g.gid = 0 ∧ 8 - i.t.roles = 7 ∧ 8 - i.t.roles + gidRole i.g.gid = 7 ∧ (i.uni (src10 (g 1))).toNat = i.t.ringStart + 64 * 7 ∧
     (sRing (ringHeld) slot7).stalls i true = false) ∧
    (issOf (sRing (ringHeld) (slot7 - 64))).uni (src10 (g 1)) ≠ BitVec.ofNat 64 slot7 ∧ (src10 (g 1)).isG = true ∧
    (List.replicate 6 subm ++ [RingSlot.free, .free]).getD 6 subm = .free ∧
    (∀ j, j < 7 → (List.replicate 7 subm ++ [RingSlot.free]).getD j .free ≠ .free) ∧ subm ≠ .free ∧ subm ≠ .held 0 := by
  refine ⟨fun r hr => ⟨issues_of ?_, ?_⟩, by decide +kernel⟩ <;> revert r hr <;> decide +kernel

end Sys2Proof.Tests
end

