-- ==== Sys2Proof/Tests/WitnessUnits.lean ====
section
/-! SUPPORT. Witnesses for the statements about submissions, conversations, traps, control registers, translation, halting
and turns. -/

namespace Sys2Proof.Tests

open Sys2Proof Sys2Proof.Machine Sys2Proof.Bits

set_option Elab.async false

/-- A state with these bytes before what its local memory lists. -/
def withMem (s : State) (cells : List (Nat × List Byte)) : State := { s with mem := (cells.flatMap fun x => scells x.1 x.2) ++ s.mem }

/-! ## Submissions -/

def org0 : Origin := { team := some 0, ctx := 0, world := 1, gid := 0, pc := fetchPc, port := 0, slot := 0, peer := 0 }
def clr : PlateOp := { kind := .mclr 0 1, org := org0, place := 0, stage := .waiting, step := 0 }

/-- A sequencer with `n` entries, in front of a group with these operands. -/
def sP (n : Nat) (e : Option PlateErr) : State :=
  labOf { labGroup [(1, 456704), (2, BitVec.ofNat 64 (521216 + 523232 * 2 ^ 20)), (4, 1), (5, 0x4000), (6, 0x13F)] with plateErr := e }
    fetchTeam labCtx { labCore with plate := { Plate.fresh with seq := List.replicate n clr } }
def fE : FmtW := fw 0 (g 1) zero zero 0 0 0
def fMl : FmtW := fw 0 (g 2) zero (g 4) 0 3 0
def fD : FmtW := fw 0 zero (g 5) (imm 63) 10 13 0
def fC : FmtW := fw 0 zero (g 6) zero 0 0 0
def plateErr0 : PlateErr := { cause := cPlateUncorrectable, pc := fetchPc, step := 0 }

/-- The last places that the operands of ENGR, MLOOP, MDRAIN and MCLR may name, with a queue that has one entry free, one
that is full, and a pending error. -/
theorem witness_PlateSubmissions_operands :
    (∃ x ∈ plateForms (issOf (sP 15 none)) fE, x.1 = .engr fE ∧ x.2.1) ∧ (∃ x ∈ plateForms (issOf (sP 15 none)) fMl, x.1 = .mloop fMl ∧ x.2.1) ∧
    (∃ x ∈ plateForms (issOf (sP 15 none)) fD, x.1 = .mdrain fD ∧ x.2.1) ∧ (∃ x ∈ plateForms (issOf (sP 15 none)) fC, x.1 = .mclr fC ∧ x.2.1) := by
  refine ⟨⟨_, .head _, rfl, ?_⟩, ⟨_, .tail _ (.head _), rfl, ?_⟩, ⟨_, .tail _ (.tail _ (.head _)), rfl, ?_⟩,
    ⟨_, .tail _ (.tail _ (.tail _ (.head _))), rfl, ?_⟩⟩
  all_goals (repeat' apply And.intro) <;> decide +kernel

theorem witness_PlateSubmissions_queue : ∀ x ∈ [(15, none), (16, none), (0, some plateErr0)],
    Issues (sP x.1 x.2) (issOf (sP x.1 x.2)) .none [] ∧ (sP x.1 x.2).stalls (issOf (sP x.1 x.2)) false = false ∧
    (issOf (sP x.1 x.2)).g.plateErr = x.2 ∧ ((sP x.1 x.2).core 0).plate.seq.length = x.1 ∧ ((sP x.1 x.2).core 0).plate.waiters = [] ∧
    (∀ l, l < 32 → ((issOf (sP x.1 x.2)).g.lane l).ret = false) ∧ (fw 63 zero zero zero 0 3 0).aux.toNat < 4 := by
  refine fun x hx => ⟨issues_of ?_, ?_⟩ <;> revert x hx <;> decide +kernel

def pkt0 : Packet := { bytes := List.replicate 64 0, org := org0, queue := none, place := 0, stall := none, cancel := false }
def sPort (n : Nat) : State :=
  labOf (labGroup [(1, BitVec.ofNat 64 recOff)]) fetchTeam labCtx { labCore with search := List.replicate n pkt0, net := List.replicate n pkt0 }

theorem witness_PortSubmissions : ∀ n ∈ [7, 8], Issues (sPort n) (issOf (sPort n)) .none [] ∧ (src10 (g 1)).isG = true ∧
    ((issOf (sPort n)).uni (src10 (g 1))).toNat % 64 = 0 ∧ ((issOf (sPort n)).uni (src10 (g 1))).toNat + 64 = (issOf (sPort n)).t.ringStart ∧
    (sPort n).stalls (issOf (sPort n)) true = false ∧ ((sPort n).core 0).search.length = n ∧ ((sPort n).core 0).net.length = n := by
  refine fun n hn => ⟨issues_of ?_, ?_⟩ <;> revert n hn <;> decide +kernel

/-- A notify ring 15 and an error queue, each with `w` in its write index and its first entry. -/
def ringCtx : Context := { labCtx with rings := [(15, { desc := 0x38000, n := 4 })], errq := some { desc := 0x3A000, n := 4 } }
def sRings (w : Nat) : State :=
  withMem (labC [(1, BitVec.ofNat 64 523232)] ringCtx) [(0x3A000, toBytes 8 w), (0x39000, toBytes 8 (w * 2 ^ 63))]

theorem witness_NotifyAndErrorQueues : (∀ w ∈ [0, 1], Issues (sRings w) (issOf (sRings w)) .none [] ∧
      (sRings w).stalls (issOf (sRings w)) false = false ∧ (sRings w).ctx? (issOf (sRings w)).t.ctx = some ringCtx ∧
      ringCtx.rings.find? (fun r => r.1 == ((issOf (sRings w)).uni (src10 (imm 15))).toNat) = some (15, { desc := 0x38000, n := 4 }) ∧
      ((sRings w).readNat spLocal 0x39000 8).testBit 63 = decide (w = 1) ∧ (sRings w).readNat spLocal (0x38000 + 128) 8 = 0 ∧
      (0x38080 % 8 = 0 ∧ isMemPa 0x38080 = true ∧ isCarve 0x38080 = false ∧ clearedBit (sRings w).mem 0x38080 = false ∧
        clearedBit (sRings w).mem 0x39000 = false ∧ clearedBit (sRings w).mem 0x3A080 = false) ∧
      ((sRings w).readNat spLocal 0x3A000 8 + 2 ^ 64 - (sRings w).readNat spLocal (0x3A000 + 128) 8) % 2 ^ 64 = w ∧
      ((issOf (sRings w)).uni (src10 (g 1))).toNat + 32 = (issOf (sRings w)).t.ringStart ∧
      ((issOf (sRings w)).uni (src10 (g 1))).toNat % 32 = 0) ∧
    src10 (imm 15) = .imm 15 15 ∧ (fw 63 (imm 15) zero zero 0 1 0).aux.toNat < 2 ∧ s0.ctx? i0.t.ctx = some labCtx ∧ labCtx.errq = none := by
  refine ⟨fun w hw => ⟨issues_of ?_, ?_⟩, by decide +kernel⟩ <;> revert w hw <;> decide +kernel

/-- World 1's SYSTEM page that holds the rings has been given to world 2. -/
def sRingsLost : State := withMem (sRings 1) [(Config.potBase + 12, toBytes 4 0x20200)]

theorem witness_NotifyAndErrorQueues_checks : Issues sRingsLost (issOf sRingsLost) .none [] ∧
    (∀ a ∈ [0x38000, 0x38080, 0x39000, 0x3A000, 0x3A080, 0x3B000],
      walkerPass (sRings 1).mem ((sRings 1).issWorld (issOf (sRings 1))) a false = none) ∧
    walkerPass sRingsLost.mem (sRingsLost.issWorld (issOf sRingsLost)) 0x38000 false = some cOwnership ∧
    (∀ a ∈ [(0x3F000, none), (0x3F080, none), (0x40000, some cOwnership)],
      walkerPass (sRings 1).mem ((sRings 1).issWorld (issOf (sRings 1))) a.1 false = a.2) :=
  ⟨issues_of (by decide +kernel), by decide +kernel⟩

/-- An image at the end of the allocation, and a bank 1 that a group waits on. -/
def sImage : State := labG (labGroup [(1, 516080)])
def sBank : State :=
  labOf { fetchGroup [] with lanes := List.replicate 32 { Lane.fresh with st := .parked (.bank 1) } } fetchTeam labCtx
    { labCore with bank1 := { ActBank.fresh with st := .loading, loader := some (0, 0, 0xFFFFFFFF), off := 516080 } }
/-- A group whose lanes wait at an ATSEL of a bank whose loader has left. -/
def sSelect : State :=
  labOf { fetchGroup [] with actSel := some 1, lanes := List.replicate 32 { Lane.fresh with st := .parked (.select 1) } } fetchTeam labCtx
    { labCore with bank1 := { ActBank.fresh with st := .loading } }

theorem witness_ActivationLoads : Issues sImage (issOf sImage) .none [] ∧ sImage.stalls (issOf sImage) false = false ∧
    (src10 (imm 1)).uniform = true ∧ ((issOf sImage).uni (src10 (imm 1))).toNat = 1 ∧ ((issOf sImage).uni (src10 (g 1))).toNat % 16 = 0 ∧
    ((issOf sImage).uni (src10 (g 1))).toNat + 8208 = (issOf sImage).t.size ∧ absent (sImage.core 0) (0 + 516080) 8208 = false ∧
    imageOk (spadRead (sImage.core 0) (0 + 516080) 16) = true ∧ ((sImage.core 0).actBank 1).st ≠ .loading ∧ sImage.bankCount 0 1 = 0 ∧
    (0 < sBank.cores.length ∧ ((sBank.core 0).actBank 1).st = .loading ∧ ((sBank.core 0).actBank 1).loader = some (0, 0, 0xFFFFFFFF) ∧
      (sBank.group? (slotKey 0 0 0)).isSome = true ∧ ((issOf sBank).g.lane 31).st = .parked (.bank 1)) ∧
    (((sSelect.core 0).actBank 1).st = .loading ∧ ((sSelect.core 0).actBank 1).loader = none ∧ (sSelect.group? 0).isSome = true ∧
      keyCore 0 = 0 ∧ ((issOf sSelect).g.lane 31).st = .parked (.select 1)) :=
  ⟨issues_of (by decide +kernel), by decide +kernel⟩

/-! ## Conversations -/

/-- g1 is the last address of the object; cv7 is bound to role 15 of it. -/
def sConv : State :=
  labG { labGroup [(1, BitVec.ofNat 64 (convAt (0x20000 + 0x463F)))] with cv := [(7, cvMake 15 (convAt 0x20000) 0xFFFF)] }
def iConv : Iss := issOf sConv

theorem objectAt_lab {a : Nat} (h1 : inWindow a = true) (h2 : sConv.rangeOf iConv.c a = .ok (some (rot 1 2 (convAt 0x20000) 0x4640))) :
    ObjectAt sConv iConv a (convAt 0x20000) (at1 0) :=
  ⟨h1, _, h2, by decide, by decide, by decide, rfl, passes_of (by decide +kernel)⟩

/-- CJOIN in cv0, which is free; the rest in cv7, CSEND with six payload registers up to g63. -/
theorem witness_ConversationIssue :
    Issues sConv (issOf sConv) .none [] ∧ ObjectAt sConv iConv (iConv.uni (src10 (g 1))).toNat (convAt 0x20000) (at1 0) ∧
    ObjectAt sConv iConv (cvBase (iConv.g.cvget 7)) (convAt 0x20000) (at1 0) ∧ sConv.stalls iConv true = false ∧ sConv.stalls iConv false = false ∧
    cvBound (iConv.g.cvget 0) = false ∧ cvBound (iConv.g.cvget 7) = true ∧ (iConv.uni (src10 (imm 15))).toNat = 15 ∧
    (iConv.uni (src10 (imm 63))).toNat = 63 ∧ (iConv.uni (src10 (imm 6))).toNat = 6 ∧ (src10 (g 58)).gnum + 6 = 64 ∧
    (src10 (g 57)).gnum = 57 ∧ (src10 (imm 63)).uniform = true ∧ (src10 (g 1)).isG = true :=
  ⟨issues_of (by decide +kernel), objectAt_lab (by decide +kernel) (by decide +kernel), objectAt_lab (by decide +kernel) (by decide +kernel),
    by decide +kernel⟩

/-- What a conversation object holds: its roles, role 15's RSTATE, the messages in role 0's and role 15's mailboxes, the status word,
the one transition, and the target of role 15's delegation. -/
structure Obj where
  roles  : Nat := 16
  rstate : Nat := 1
  msgs   : Nat := 7
  status : Nat := 2 ^ 10
  trans  : Nat := 15 * 2 ^ 52 + 63 * 2 ^ 42 + 6 * 2 ^ 39 + 2 ^ 36
  tid    : Nat := 0

/-- Its bytes: one state, 64 kinds; role 15's EPOCH is 0xFFFF. -/
def Obj.cells (x : Obj) : List (Nat × List Byte) :=
  [(0x20000, toBytes 2 1), (0x20002, [BitVec.ofNat 8 x.roles, 64]), (0x20004, toBytes 2 1), (0x20008, toBytes 8 x.status),
   (0x20000 + roleOff 0 + 20, [BitVec.ofNat 8 x.msgs]), (0x20000 + roleOff 15 + 8, toBytes 8 x.tid),
   (0x20000 + roleOff 15 + 16, toBytes 2 0xFFFF), (0x20000 + roleOff 15 + 18, [BitVec.ofNat 8 x.rstate]),
   (0x20000 + roleOff 15 + 20, [BitVec.ofNat 8 x.msgs]), (0x20000 + 0x240, toBytes 4 (2 ^ 16)), (0x20000 + 0x640, toBytes 8 x.trans)]

/-- An operation of role 15, of kind 63 with six payload words. -/
def convOp0 (k : ConvKind) : ConvOp :=
  { opOf k 15 7 57 with org := org0, lanes := 0xFFFFFFFF, pa := 0x20000, base := BitVec.ofNat 64 (convAt 0x20000), mkind := 63, count := 6,
                        pay := List.replicate 6 0, epoch := 0xFFFF }
def sBw (x : Obj) (o : ConvOp) : State :=
  let s := labG { fetchGroup [] with lanes := List.replicate 32 { Lane.fresh with st := .parked .conv } }
  withMem { s with convs := [o] } x.cells
def cAt : ConvAt := (convOp0 .send).conv

theorem convThere_of {s : State} (h1 : s.eccBad = []) (h2 : s.tagBad = []) : ConvThere s cAt :=
  ⟨by decide, .inr (.inl (by decide)), fun _ h => (by cases h), fun _ => ⟨h1, h2⟩⟩

/-- Each kind of operation that its rule allows, at the ends of what a mailbox holds, and a first CJOIN. -/
def allowed : List (ConvKind × Obj) :=
  [(.join, { rstate := 0 }), (.join, { status := 0 }), (.accept, { rstate := 2 }), (.leave, {}), (.deleg, {}), (.send, { msgs := 7 }),
   (.send, { msgs := 8 }), (.recv, { msgs := 1 }), (.recv, { msgs := 0 }), (.poll, { msgs := 8 }), (.poll, { msgs := 0 })]

/-- The status word, the holder check, role 15's state and mailbox. -/
def standing (x : Obj) : Bool × Bool × Bool × Nat × Nat :=
  let s := sBw x (convOp0 .send)
  (stLive (s.convStatus cAt), stClosed (s.convStatus cAt), s.holds cAt 15 0 0xFFFF, s.roleState cAt 15, s.mailCount cAt 15)

theorem witness_BellwetherEvaluates :
    (∀ x ∈ allowed, let o := convOp0 x.1
      let s := sBw x.2 o
      MayEvaluate s 0 o ∧ (∃ g, s.convGroup o = some g ∧ g.allExited = false) ∧ ConvThere s o.conv ∧ s.convLost o = false ∧ o.role < 16 ∧ o.pay.length ≤ 6 ∧
      o.areg ≤ 57 ∧ 15 < s.convRoles cAt ∧ standing x.2 =
        (x.2.status != 0, false, x.2.rstate == 1, x.2.rstate, x.2.msgs)) ∧
    ((sBw { status := 0 } (convOp0 .join)).imageValid cAt = true ∧
      (sBw { rstate := 2 } (convOp0 .accept)).convGet cAt (roleOff 15 + 8) 8 = (convOp0 .accept).who.toNat) ∧
    (∀ n ∈ [7, 8], (sBw { msgs := n } (convOp0 .send)).evalSend cAt (convOp0 .send) = .ok ({} : Obj).trans ∧
      (sBw { msgs := n } (convOp0 .send)).mailFull cAt ({} : Obj).trans = decide (n = 8)) ∧
    (∃ tr ∈ (sBw {} (convOp0 .deleg)).convTrans cAt 0, trSend tr = 15 ∧ trDeleg tr = true) := by
  refine ⟨fun x hx => ⟨?_, ?_, convThere_of rfl rfl, ?_, Nat.lt_add_one 15, Nat.le_refl 6, Nat.le_refl 57, ?_, ?_⟩, by decide +kernel⟩
  · unfold MayEvaluate; revert x hx; decide +kernel
  · have h : ((sBw x.2 (convOp0 x.1)).convGroup (convOp0 x.1)).any (fun g => !g.allExited) = true := by revert x hx; decide +kernel
    obtain ⟨g, hg, hn⟩ := Option.any_eq_true _ _ |>.mp h
    exact ⟨g, hg, by simpa using hn⟩
  · revert x hx; decide +kernel
  · revert x hx; decide +kernel
  · revert x hx; decide +kernel

/-- A CRECV that wakes after its object's page has been given to world 2. -/
def oAgain : ConvOp := { convOp0 .recv with again := true }
def sTaken : State := withMem (sBw {} oAgain) [(Config.potBase + 8, toBytes 4 0x20100)]

theorem witness_BellwetherEvaluates_lost : MayEvaluate sTaken 0 oAgain ∧ (sTaken.convGroup oAgain).isSome = true ∧ ConvThere sTaken oAgain.conv ∧
    sTaken.convLost oAgain = true ∧ (sTaken.team? 0).isSome = true :=
  ⟨by unfold MayEvaluate; decide +kernel, by decide +kernel, convThere_of rfl rfl, by decide +kernel⟩

/-- The refusal of number `n` meets an operation on an object. -/
structure Refuses (n : Nat) (x : Obj) (o : ConvOp) : Prop where
  may   : MayEvaluate (sBw x o) 0 o
  kept  : (sBw x o).convLost o = false
  meets : ∃ y, (convRefusals (sBw x o) cAt o)[n]? = some y ∧ o.kind ∈ y.1 ∧ y.2.1

theorem witness_BellwetherEvaluates_refusals :
    Refuses 0 { status := 2 ^ 10 + 2 ^ 8 } (convOp0 .send) ∧ Refuses 1 { rstate := 0 } (convOp0 .choose) ∧ Refuses 2 { trans := 0 } (convOp0 .send) ∧
    Refuses 3 {} (convOp0 .choose) ∧ Refuses 5 { rstate := 2 } (convOp0 .recv) ∧
    Refuses 6 { status := 2 ^ 10 + 2 ^ 8, msgs := 0 } (convOp0 .poll) ∧ Refuses 7 { status := 2 ^ 10 + 2 ^ 8 } (convOp0 .deleg) ∧
    Refuses 8 { rstate := 0 } (convOp0 .deleg) ∧ Refuses 9 { trans := 15 * 2 ^ 52 } (convOp0 .deleg) ∧ Refuses 10 { rstate := 0 } (convOp0 .leave) ∧
    Refuses 11 { status := 0, roles := 17 } (convOp0 .join) ∧ Refuses 12 { status := 2 ^ 10 + 2 ^ 8 } (convOp0 .accept) ∧
    Refuses 13 { roles := 15 } (convOp0 .join) ∧ Refuses 14 {} (convOp0 .join) ∧ Refuses 15 {} (convOp0 .accept) ∧
    Refuses 16 { rstate := 2, tid := 1 } (convOp0 .accept) := by
  and_intros
  all_goals refine ⟨by unfold MayEvaluate; decide +kernel, by decide +kernel, _, rfl, by decide, ?_⟩
  all_goals dsimp only
  all_goals decide +kernel

/-- A message of seven words, which the transition's limit of six turns away. -/
theorem witness_BellwetherEvaluates_badTransition : Refuses 4 {} { convOp0 .send with count := 7 } := by
  refine ⟨by unfold MayEvaluate; decide +kernel, by decide +kernel, _, rfl, by decide, ?_, ?_, [], ({} : Obj).trans, [], ?_⟩
  · decide +kernel
  · decide +kernel
  · refine ⟨by decide +kernel, by decide, by decide +kernel, .inl (by decide)⟩

/-- A held operation whose destination has space again; one that a withdrawal follows. -/
theorem witness_BellwetherEvaluates_held : ∀ b ∈ [true, false],
    let o := { convOp0 .send with held := true, withdrawn := b, target := BitVec.ofNat 64 ({} : Obj).trans }
    let s := sBw { status := 2 ^ 10 + 2 ^ 9 } o
    s.convs[0]? = some o ∧ s.convReach o = true ∧ o.src = none ∧ (s.convGroup o).isSome = true ∧ ConvThere s cAt ∧ o.pay.length ≤ 6 ∧
    o.held = true ∧ o.discarded = false ∧ o.withdrawn = b ∧ s.mailFull cAt o.target.toNat = false := by
  intro b hb
  refine ⟨?_, ?_, rfl, ?_, convThere_of rfl rfl, ?_⟩ <;> revert b hb <;> decide +kernel

/-! ## Traps and control registers -/

theorem witness_SoftwareTraps : Issues s0 i0 .none [] ∧ i0.t.service = false ∧ (src10 (g 63)).isG = true ∧ s0.stalls i0 false = false ∧
    i0.g.trapv = 0 ∧ i0.act 0 ≠ 0 :=
  ⟨issues_of (by decide +kernel), by decide +kernel⟩

/-- A run that has issued `n` instructions, with these latches filled, after a prefix or not; lanes 16 to 31 stand at its PC. -/
def sCheck (n : Nat) (pfx : Option FmtP) : State :=
  let run := { fetchRun with sub := 0xFFFF, count := n, pfx := pfx }
  labK [] { labCore with ports := { Port.fresh with run := some run } :: List.replicate 3 Port.fresh }
def pfxOf (rb : Bool) : FmtP := { rb := rb, nw := false, rnd := 0, sat := false, sub := 0, nf := false, rsv := 0 }
/-- VADD, FADD and LD whose words, operands or latches do not stand. -/
def fMbad (a : BitVec 10) (ty : Nat) : FmtM := fm 383 a (v 0) (v 0) ty
def fWbad (a : BitVec 10) (ord : Nat) : FmtW := ordW (fw 383 a zero zero 7 0 0) 2 ord

theorem witness_SoftwareTraps_checks :
    (∀ x ∈ [(24, none), (23, none), (23, some (pfxOf false)), (23, some { pfxOf false with sat := true, nf := true })],
      (sCheck x.1 x.2).iss? = some (issOf (sCheck x.1 x.2)) ∧ (∃ l, l < 32 ∧ ((issOf (sCheck x.1 x.2)).g.lane l).st ≠ .exited) ∧
      (issOf (sCheck x.1 x.2)).run.count = x.1 ∧ (issOf (sCheck x.1 x.2)).run.pfx = x.2) ∧
    (∀ x ∈ checkForms (issOf (sCheck 23 none)) (fMbad (v 383) 7) (fWbad (g 1) 0), (issOf (sCheck 23 none)).pfxRefused x.pfx = false ∧
      x.srcs.all (fun y => y.ok (issOf (sCheck 23 none)).g.budget) = true) ∧
    (∀ x ∈ checkForms (issOf (sCheck 23 none)) (fMbad 450 7) (fWbad 450 0), ∃ y ∈ x.srcs, y.ok (issOf (sCheck 23 none)).g.budget = false) ∧
    (∀ x ∈ checkForms (issOf (sCheck 23 none)) (fMbad 771 7) (fWbad 771 0), ∃ y ∈ x.srcs, ∃ n ∈ y.latchNo,
      (issOf (sCheck 23 none)).run.filled < n ∧ y.ok (issOf (sCheck 23 none)).g.budget = true) ∧
    (tyInt 15 = false ∧ tyF4 15 = false ∧ wRel (fWbad (g 1) 2) = true) ∧
    (∀ x ∈ checkForms (issOf (sCheck 23 none)) (fMbad (v 383) 7) (fWbad (g 1) 0),
      pfxBad { pfxOf false with sat := true, nf := true, sub := 3, rnd := 7, rsv := 1 } x.pfx = true) ∧
    (∃ l, l < 32 ∧ inSet (issOf (sCheck 23 (some (pfxOf false)))).sub l = false ∧
      ((issOf (sCheck 23 (some (pfxOf false)))).g.lane l).st = .ready ∧
      ((issOf (sCheck 23 (some (pfxOf false)))).g.lane l).pc = (issOf (sCheck 23 (some (pfxOf false)))).run.pc) ∧
    (issOf (sCheck 22 none)).run.count + 1 < 24 ∧ 24 ≤ (issOf (sCheck 23 none)).run.count + 1 := by
  decide +kernel

/-- Lanes in the handler, that a SAVE_REQUEST brought there or not; k1 names lane 31 only. -/
def sHandler (save : Bool) : State :=
  labG { labGroup [(1, 13)] with tmask := 0xFFFFFFFF, k := [(1, 0x80000000)], trapv := 0x1000, lanes := List.replicate 32 { Lane.fresh with bySave := save } }

theorem witness_HandlerReturns : (∀ b ∈ [true, false], Issues (sHandler b) (issOf (sHandler b)) .none [] ∧
      privileged (issOf (sHandler b)).t (issOf (sHandler b)).g = true ∧ (issOf (sHandler b)).t.service = false ∧
      (sHandler b).stalls (issOf (sHandler b)) false = false ∧ (∀ l, l < 32 → ((issOf (sHandler b)).g.lane l).bySave = b) ∧
      (let m := (issOf (sHandler b)).act 1 &&& (issOf (sHandler b)).g.tmask
       inSet m 31 = true ∧ inSet m 0 = false ∧ ((issOf (sHandler b)).g.lane 0).st ≠ .exited ∧ ((issOf (sHandler b)).g.lane 0).saved = false) ∧
      (∀ l, l < 32 → inSet ((issOf (sHandler b)).act 0 &&& (issOf (sHandler b)).g.tmask) l = true)) ∧ (lastW (fw 0 zero zero zero 0 3 0)).aux.toNat = 3 := by
  refine ⟨fun b hb => ⟨issues_of ?_, ?_⟩, by decide⟩ <;> revert b hb <;> decide +kernel

def sPriv : State := sHandler true
def iPriv : Iss := issOf sPriv

theorem witness_ControlRegisters :
    Issues sPriv (issOf sPriv) .none [] ∧ Issues sPriv (issOf sPriv) .none [src10 (v 383)] ∧ Issues s0 i0 .none [] ∧ sPriv.stalls iPriv false = false ∧
    s0.stalls i0 false = false ∧ privileged iPriv.t iPriv.g = true ∧ privileged i0.t i0.g = false ∧ dvOk 383 iPriv.g.budget = true ∧
    (∃ x ∈ laneRegisters, (fw 0 zero zero zero 0 0 0x014).imm.toNat = x.1) ∧
    (∃ x ∈ groupRegisters i0 s0, (fw 0 zero zero zero 0 0 3).imm.toNat = x.1 ∧ x.2.2 = false) ∧
    (∃ x ∈ groupRegisters iPriv sPriv, (fw 0 zero zero zero 0 0 0x021).imm.toNat = x.1 ∧ x.2.2 = true) ∧
    (src10 (g 1)).uniform = true ∧ (iPriv.uni (src10 (g 1))).toNat % 8 ≤ 5 ∧ (iPriv.uni (src10 (g 1))).toNat / 8 % 4 ≤ 1 ∧
    (fw 0 zero zero zero 0 0 7).imm.toNat < 8 ∧ (fw 0 zero zero zero 0 0 15).imm.toNat < 16 ∧ (fw 0 zero zero zero 0 0 23).imm.toNat < 24 ∧
    (fw 0 zero zero zero 0 0 25).imm.toNat = 25 :=
  ⟨issues_of (by decide +kernel), issues_of (by decide +kernel), issues_of (by decide +kernel), by decide +kernel⟩

/-- Whether the run goes on after an instruction of `n` words, as a Bool. -/
def runOnB (i : Iss) (n : Nat) : Bool :=
  i.run.sub != 0 && lanes32.all fun l => inSet i.sub l || (i.g.lane l).st != .ready || (i.g.lane l).pc != i.run.pc + BitVec.ofNat 64 (4 * n)

theorem runOn_of {i : Iss} {n : Nat} (h : runOnB i n = true) : RunOn i false n := by
  simp only [runOnB, Bool.and_eq_true, bne_iff_ne, List.all_eq_true, Bool.or_eq_true] at h
  refine ⟨rfl, h.1, fun l hl hs hr => ?_⟩
  have := h.2 l (by simpa [lanes32] using hl)
  simpa [hs, hr] using this

/-- A float minor, a cross-lane move, CVT from S8 to F64, GTOV, LD of four elements, CSRD of TREGION, and a pair, in runs that go on. -/
theorem witness_LatchesShift_others :
    RunOn i0 false 2 ∧ Issues s0 i0 .float (srcsM f11 3) ∧ Issues s0 i0 .none (srcsM f11 3) ∧ Issues s0 i0 .conv [src10 (v 0)] ∧
    Issues s0 i0 .none [] ∧ ImmFit 11 (srcsM f11 3) ∧ tyF4 11 = true ∧ f11.ty ≠ 14 ∧ dvOk 383 i0.g.budget = true ∧
    (src10 (imm 112) = .imm (-16) 112 ∧ 112 % 16 ≠ 11 ∧ tyW (112 % 16) ≤ tyW 11 ∧ 112 / 16 < tyW 11 / tyW (112 % 16)) ∧
    (RunOn i1 false 3 ∧ Issues s1 i1 .none (srcsM (fL 1).m 1) ∧ Walked s1 i1 (eas (fL 1) (4 * 8) i1) ∧
      (fL 1).promo = false ∧ ∃ loc, AllPass s1 i1 .read 0 (4 * 8) (4 * 8) (i1.act 1) (ea i1 (fL 1)) loc) ∧
    (RunOn iPriv false 3 ∧ Issues sPriv iPriv .none [] ∧ sPriv.stalls iPriv false = false ∧ privileged iPriv.t iPriv.g = true ∧
      ∃ k, csrNum (fw 383 zero zero zero 0 0 0x014) = some k ∧ csrLane k = true) ∧
    (Issues s0 i0 .none ((slotSrcs (pairOf 4).x ++ slotSrcs (pairOf 4).y).map Prod.fst) ∧ (slotOp (pairOf 4).x.op.toNat).isSome = true ∧
      (slotOp (pairOf 4).y.op.toNat).isSome = true ∧ badPair (pairOf 4) = false) :=
  have issues (k : PfxClass) (srcs : List Src) (h : issuesB s0 k srcs = true) : Issues s0 i0 k srcs := issues_of h
  ⟨runOn_of (by decide +kernel), issues _ _ rfl, issues _ _ rfl, issues _ _ rfl, issues _ _ rfl,
    by simp [ImmFit, f11, srcsM, fm, v, src10, Src.isImm], rfl, by decide, rfl, by decide +kernel,
    ⟨runOn_of (by decide +kernel), issues_of (by decide +kernel), walked_of (by decide +kernel), rfl, at1, allPass_of (by decide +kernel)⟩,
    ⟨runOn_of (by decide +kernel), issues_of (by decide +kernel), by decide +kernel, by decide +kernel, 0x014, by decide, by decide⟩,
    issues_of (by decide +kernel), by decide +kernel⟩

/-! ## Translation, halting -/

/-- A service of world 1 whose g1 is a page of nobody's and g2 its new entry; and a table with an entry that g1 is in. -/
def svcTeam : Team := { fetchTeam with service := true }
def sSvc (u : List (Nat × BitVec 64)) : State := labT u svcTeam
def sPot : State := sSvc [(1, 0x50000), (2, 0x10100)]

theorem witness_TranslationAndOwnership :
    Issues sPot (issOf sPot) .none [] ∧ (issOf sPot).t.service = true ∧ sPot.stalls (issOf sPot) true = false ∧ sPot.stalls (issOf sPot) false = false ∧
    (src10 (g 1)).isG = true ∧ (lastW (fw 0 (g 1) zero (g 2) 0 2 0)).aux.toNat % 4 ≠ 3 ∧
    (let pa := ((issOf sPot).uni (src10 (g 1))).toNat
     let e := ((issOf sPot).uni (src10 (g 2))).toNat % 2 ^ 32
     pa % 65536 = 0 ∧ pa < 0x8000000000 ∧ e / 2 ^ 20 = 0 ∧ e / 2 ^ 12 % 16 = 0 ∧ e % 256 = 0 ∧ e / 256 % 16 ≤ 2 ∧ sPot.conf = false ∧
     potState (potEntry sPot.mem pa) = 0 ∧ e / 2 ^ 16 % 16 = sPot.teamWorld (issOf sPot).t) ∧
    (sPot.group? (slotKey 0 0 0)).isSome = true ∧
    (sPot.ctxs.find? (fun x => x.asid == (1 : BitVec 16).toNat) = some labCtx ∧ sPot.tlbFind 1 0x1FFFFFFF = none ∧
      sPot.walk labCtx 0x1FFFFFFF = .leaf (leaf 0) 29) :=
  ⟨issues_of (by decide +kernel), by decide +kernel⟩

/-- A walk in flight on the other die, which two levels of TLB wait for; a TLBINV has been issued since it began or not. -/
def walk0 (install : Bool) : PageWalk :=
  { die := 1, asid := 1, va := 0x1FFF0000, ctx := 0, units := [191, 217], leaf := some (BitVec.ofNat 128 (leaf 0), 29), install := install }

theorem witness_TranslationAndOwnership_walks :
    let mine (w : PageWalk) : Bool := w.leaf.isSome && w.asid == (1 : BitVec 16).toNat && w.va == (0x1FFFFFFF : BitVec 64).toNat / 65536 * 65536
    (∀ b ∈ [true, false], [walk0 b].find? mine = some (walk0 b) ∧ (walk0 b).leaf.isSome = true ∧
      (∀ x ∈ [walk0 b], x.die = (walk0 b).die → x.leaf ≠ none)) ∧
    (sPot.walks = [] ∧ sPot.walkQueued labCtx 0x1FFF0000 = false ∧ sPot.tlbFind labCtx.asid 0x1FFF0000 = none ∧
      sPot.walk labCtx 0x1FFF0000 = .leaf (leaf 0) 29) := by
  decide +kernel

/-- A group that waits at a POTSET to page 5 and at one to page 2, in which a conversation operation is still to write its object. -/
def sPotWait : State :=
  { labG { fetchGroup [] with lanes := List.replicate 16 { Lane.fresh with st := .parked (.potset 5) } ++
                                       List.replicate 16 { Lane.fresh with st := .parked (.potset 2) } } with convs := [convOp0 .send] }

theorem witness_TranslationAndOwnership_completions : (sPotWait.group? (slotKey 0 0 0)).isSome = true ∧
    ((issOf sPotWait).g.lane 0).st = .parked (.potset 5) ∧ (∀ o ∈ sPotWait.convs, o.pa / 65536 ≠ 5) ∧
    ((issOf sPotWait).g.lane 31).st = .parked (.potset 2) ∧
    ∃ o ∈ sPotWait.convs, o.space = 0 ∧ o.pa / 65536 = 2 ∧ o.again = false ∧ o.parked = false := by
  decide +kernel

/-- A service beside a group of another context, ASID 0xFFFF, that is halted or not; its lanes are REPLAYING and TRAPPED. -/
def other (halted : Bool) : Group :=
  { fetchGroup [] with gid := 0xABCDEF, team := 1, halted := halted,
                       lanes := List.replicate 16 { Lane.fresh with st := .replaying } ++ List.replicate 15 { Lane.fresh with st := .trapped true } ++ [Lane.fresh] }
def sHalt (gid asid : Nat) (halted : Bool) : State :=
  let s := sSvc [(1, BitVec.ofNat 64 gid), (2, BitVec.ofNat 64 asid), (3, 0xFFFFFFFF)]
  { s with groups := s.groups ++ [(12287, other halted)], teams := s.teams ++ [{ fetchTeam with tid := 1, ctx := 1, core := 191 }],
           ctxs := s.ctxs ++ [{ labCtx with num := 1, asid := 0xFFFF }] }

theorem witness_HaltAndResume :
    (∀ x ∈ [(0xABCDEF, 0xFFFF, true), (0xABCDEF, 0xFFFF, false), (0xABCDEF, 1, false), (0, 1, false)],
      let s := sHalt x.1 x.2.1 x.2.2
      Issues s (issOf s) .none [] ∧ (issOf s).t.service = true ∧ s.stalls (issOf s) true = false ∧ s.stalls (issOf s) false = false ∧ s.barWaits = [] ∧
      ((issOf s).uni (src10 (g 2))).toNat % 65536 = x.2.1 ∧ ((issOf s).uni (src10 (g 1))).toNat = x.1 ∧ (issOf s).key ≠ 12287) ∧
    (∀ b ∈ [true, false], (sHalt 0xABCDEF 0xFFFF b).findGid 0xABCDEF 0xFFFF = some (12287, other b)) ∧
    ((sHalt 0xABCDEF 1 false).findGid 0xABCDEF 1).isNone = true ∧
    ((sHalt 0 1 false).findGid 0 1 = some ((issOf (sHalt 0 1 false)).key, (issOf (sHalt 0 1 false)).g)) ∧ (issOf (sHalt 0 1 false)).g.halted = false ∧
    (other false).halted = false ∧ (other true).halted = true ∧ (((other false).lane 31).st ≠ .exited ∧ ¬ resumable 3 ((other false).lane 31).st) := by
  have ready : ((other false).lane 31).st = .ready := by decide +kernel
  refine ⟨fun x hx => ⟨issues_of ?_, ?_⟩, ?_⟩
  · revert x hx; decide +kernel
  · revert x hx; decide +kernel
  · rw [ready]
    and_intros
    all_goals first | decide +kernel | simp [resumable]

/-! ## Turns -/

/-- The last slot of the device, its port's rotation standing there. -/
def sTurn (x : Option Group) : State :=
  { lab [] with turn := none, groups := x.toList.map fun y => (slotKey 191 3 15, y),
                cores := List.replicate 191 Core.fresh ++ [{ Core.fresh with ports := List.replicate 3 Port.fresh ++ [{ Port.fresh with rot := 15 }] }] }
def gReady : Group := fetchGroup []
def gTrapped : Group := { gReady with trapv := 0x1000, lanes := List.replicate 31 Lane.fresh ++ [{ Lane.fresh with st := .trapped false }] }
def gErr : Group := { gReady with errReq := true, trapv := 0x1000 }
def gHalt : Group := { gReady with haltReq := true }

theorem quiet_of (x : Group) (h : x.halted = false ∧ x.haltReq = false ∧ x.saveReq = none ∧ x.errReq = false ∧
    ∀ l, l < 32 → (x.lane l).st ≠ .trapped false ∧ (x.lane l).st ≠ .parked (.turns 0) ∧ (x.lane l).skip = false) : Quiet x :=
  ⟨⟨h.1, h.2.1⟩, h.2.2.1, h.2.2.2.1, h.2.2.2.2⟩

theorem witness_TurnsAndFetch_port : ∀ x ∈ [none, some gReady, some gTrapped, some gErr, some gHalt], HasPort (sTurn x) 191 3 ∧
    (((sTurn x).core 191).port 3).run = none ∧ (((sTurn x).core 191).port 3).rot = 15 ∧ (sTurn x).group? (slotKey 191 3 15) = x ∧
    (sTurn x).remotes = [] := by
  refine fun x hx => ⟨⟨by decide, by decide, ?_, ?_⟩, ?_⟩ <;> revert x hx <;> decide +kernel

theorem witness_TurnsAndFetch :
    Quiet gReady ∧ (gReady.tmask = 0 ∧ gReady.awaits = [] ∧ (gReady.lane 31).st = .ready ∧ (gReady.lane 31).saved = false ∧
      (gReady.lane 31).kept = none ∧ (∀ n, n < 32 → (gReady.lane n).st = .ready → (gReady.lane 31).pc.toNat ≤ (gReady.lane n).pc.toNat) ∧
      ∃ r ∈ gReady.buf, r.start = (gReady.lane 31).pc) ∧
    (gTrapped.halted = false ∧ gTrapped.haltReq = false ∧
      (∀ l, l < 32 → (inSet (0x80000000 : LaneSet) l = true ↔ (gTrapped.lane l).st = .trapped false)) ∧ (gTrapped.lane 31).saved = false) ∧
    Quiet { gErr with errReq := false } ∧ (gErr.errReq = true ∧ gErr.tmask = 0 ∧ gErr.trapv ≠ 0 ∧
      ∀ l, l < 32 → (inSet (0xFFFFFFFF : LaneSet) l = true ↔ (gErr.lane l).st = .ready)) ∧
    (gHalt.halted = false ∧ gHalt.haltReq = true ∧ ∀ l, l < 32 → (gHalt.lane l).ret = false ∧ (gHalt.lane l).saved = false ∧ (gHalt.lane l).st = .ready) :=
  ⟨quiet_of _ (by decide +kernel), by decide +kernel, by decide +kernel, quiet_of _ (by decide +kernel), by decide +kernel⟩

/-- A group with an empty buffer whose lanes stand at `pc`; a NOP with RB stands at 0x20000. -/
def sFetch (pc : Nat) : State :=
  withMem (sTurn (some { gReady with buf := [], lanes := List.replicate 32 { Lane.fresh with pc := BitVec.ofNat 64 pc } })) [(0x20000, toBytes 4 0x21C00000)]

theorem witness_TurnsAndFetch_fetch : (∀ pc ∈ [0x20003, 0x1000, 0x20000], ((sFetch pc).group? (slotKey 191 3 15)).isSome = true ∧
      (sFetch pc).team? 0 = some fetchTeam ∧ (sFetch pc).ctx? fetchTeam.ctx = some labCtx ∧
      ∀ y, (sFetch pc).group? (slotKey 191 3 15) = some y → y.buf = [] ∧ y.tmask = 0 ∧ y.team = 0 ∧ ∀ l, l < 32 → (y.lane l).st = .ready ∧ (y.lane l).pc = BitVec.ofNat 64 pc) ∧
    (BitVec.ofNat 64 0x20003).toNat % 4 ≠ 0 ∧ (sFetch 0x1000).resolve labCtx (privileged fetchTeam gReady) .exec 0x1000 4 = .error cOwnership ∧
    (sFetch 0x20000).resolve labCtx (privileged fetchTeam gReady) .exec 0x20000 4 = .ok (at1 0) ∧
    (sFetch 0x20000).reach ((sFetch 0x20000).teamWorld fetchTeam) (privileged fetchTeam gReady) .exec (at1 0) 4 = .ok ∧
    BitVec.ofNat 32 ((sFetch 0x20000).readNat 0 0x20000 4) = (0x21C00000 : Word) ∧ lenWords (wordLen 0x21C00000) = 1 ∧
    (0x21C00000 : Word).getLsbD 29 = true := by
  refine ⟨fun pc hpc => ⟨?_, ?_, ?_, fun y hy => ?_⟩, by decide +kernel⟩
  · revert pc hpc; decide +kernel
  · revert pc hpc; decide +kernel
  · revert pc hpc; decide +kernel
  · have : y = { gReady with buf := [], lanes := List.replicate 32 { Lane.fresh with pc := BitVec.ofNat 64 pc } } := by
      have h : (sFetch pc).group? (slotKey 191 3 15) = some { gReady with buf := [], lanes := List.replicate 32 { Lane.fresh with pc := BitVec.ofNat 64 pc } } := by
        clear hy; revert pc hpc; decide +kernel
      rw [h] at hy; exact (Option.some.inj hy).symm
    subst this
    revert pc hpc; decide +kernel

end Sys2Proof.Tests
end

