-- ==== Sys2Proof/Tests/WitnessDevice.lean ====
section
/-! SUPPORT. Witnesses for the statements about the host, the commands and the Root Engine. -/

namespace Sys2Proof.Tests

open Sys2Proof Sys2Proof.Machine Sys2Proof.Bits

set_option Elab.async false

/-! ## The host -/

/-- The lab in confidential mode or not, world 1's interface in RUN or not, with a record queue bound to spawn port 63. -/
def sHost (conf run : Bool) (n : Nat) (asid : Nat := 1) : State :=
  { lab [] with
    turn := none, unreachable := false, conf := conf, worlds := [World.fresh, { World.fresh1 with tdisp := if run then .run else .locked }] ++ List.replicate 14 World.fresh,
    sports := List.replicate 63 { asid := none, queue := none, dropped := 0 } ++ [{ asid := some asid, queue := some 63, dropped := 0 }],
    queues := List.replicate 63 LaunchQueue.fresh ++
      [{ LaunchQueue.fresh with ctx := some 0, recs := List.replicate n { bytes := recBytes, pc := 0, who := none, peer := 0 } }] }

theorem hostMay_owned : ∀ conf ∈ [true, false], HostMay (sHost conf true 0) 0x2FFFF (some 1) := by
  intro conf hc
  refine ⟨by decide, by decide, fun _ => .inl ?_, fun _ => .inr ⟨?_, ?_, ?_⟩⟩ <;> revert conf hc <;> decide +kernel

theorem hostMay_not : ¬ HostMay (sHost true false 0) 0x2FFFF (some 1) ∧ ¬ HostMay (sHost false false 0) 0x4FFFF none ∧
    ¬ HostMay (sHost false false 0) 0x7FF4000000 none ∧ ¬ HostMay (sHost false false 0) 0x8000000000 none := by
  refine ⟨fun h => ?_, fun h => ?_, fun h => absurd h.2.1 (by decide), fun h => absurd h.1 (by decide)⟩
  · obtain ⟨-, -, -, h⟩ := h
    rcases h rfl with h | h
    · exact absurd h.2 (by decide +kernel)
    · exact absurd h.2.2 (by decide +kernel)
  · obtain ⟨-, -, h, -⟩ := h
    rcases h rfl with h | h <;> exact absurd h (by decide +kernel)

theorem witness_HostAccesses_memory : 0x2FFFF % 65536 + 1 = 65536 ∧ (1 ≤ 1 ∧ [(1 : Byte)] ≠ []) ∧
    ∀ conf ∈ [true, false], let s := sHost conf true 0
      s.unreachable = false ∧ s.eccBad = [] ∧ s.tagBad = [] ∧ s.log.length < 4096 := by
  decide +kernel

/-- A group whose armed monitor covers a line of host memory, with its lanes parked on it or READY. -/
def gMon (parked : Bool) : Group :=
  { labGroup [] with mon := { Monitor.off with armed := true, space := 1, line := 0x1000 },
                     lanes := List.replicate 32 { Lane.fresh with st := if parked then .parked .monitor else .ready } }
theorem witness_HostAccesses_snoop : ∀ b ∈ [true, false], let s := { labG (gMon b) with turn := none, unreachable := false }
    s.unreachable = false ∧ s.group? 0 = some (gMon b) ∧ (gMon b).mon.armed = true ∧ (gMon b).mon.space = 1 ∧
    (gMon b).mon.line = (0x107F#64).toNat / 128 * 128 ∧ ((gMon b).lane 31).st = (if b then .parked .monitor else .ready) := by
  decide +kernel

theorem witness_HostAccesses_ports :
    (∀ n ∈ [63, 64], ∀ asid ∈ [1, 2], let s := sHost false false n asid
      s.unreachable = false ∧ s.sports.length = 64 ∧ s.queues.length = 64 ∧ (s.sport 63).queue = some 63 ∧ (s.lqueue 63).ctx = some 0 ∧
      s.ctx? 0 = some labCtx ∧ (decide ((s.sport 63).asid = some labCtx.asid) = decide (asid = 1)) ∧
      recBytes.length = 64 ∧ recBad recBytes = false ∧ (s.lqueue 63).full = decide (n = 64) ∧ (s.lqueue 63).recs.length ≤ 64) ∧
    (∀ x ∈ [(1, 64), (63, 64), (0, 63), (0, 65)], x.1 < 64 ∧ (x.1 ≠ 0 ∨ (List.replicate x.2 (0 : Byte)).length ≠ 64)) := by
  decide +kernel

/-! ## Commands -/

/-- A command: OPC and its parameters. -/
def cmd (opc : Nat) (ps : List Nat) : List Byte := (toBytes 8 opc ++ ps.flatMap (toBytes 8)) ++ List.replicate (56 - 8 * ps.length) 0

/-- A state whose command ring of 16 entries, at host address 0, has that command due. -/
def due (s : State) (opc : Nat) (ps : List Nat) : State :=
  { s with ready := true, unreachable := false, turn := none, hostMem := scells 0 (cmd opc ps) ++ s.hostMem,
           host := { cqBase := 4, cplBase := 0x1000, tail := 1, cqHead := 0, cplHead := 0, phase := true, busy := none } }

theorem witness_HostAccesses_unreachable : State.reset.unreachable = true := rfl

theorem witness_HostAccesses_registers : let s := due s0 0x01 []
    s.unreachable = false ∧ s.host.busy = none ∧ s.stage < 256 ∧ (0x38 % 8 = 0 ∧ 0x38 < 4096 ∧ 0x38 ≠ 0x40) ∧ ((16 : BitVec 64) - s.host.cqHead).toNat = 2 ^ (s.host.cqBase.toNat % 16) ∧
    2 ^ (s.host.cqBase.toNat % 16) + 1 = ((17 : BitVec 64) - s.host.cqHead).toNat := by
  decide +kernel

theorem witness_Commands_reserved : ∀ opc ∈ [0, 0x14, 0xFF], CommandDue (due s0 opc []) opc ∧ (opc = 0 ∨ 0x13 < opc) := by
  intro opc h
  refine ⟨⟨?_, ?_⟩, ?_⟩ <;> revert opc h <;> decide +kernel

/-- A descriptor of world 1 at the SYSTEM page 3: ROT of 2^8 entries, privileged; or of a ROT of 2^7. -/
def desc (log2 : Nat) : List Byte := List.replicate 16 0 ++ toBytes 8 0x30000 ++ [BitVec.ofNat 8 log2, 1, 1, 5] ++ List.replicate 484 0
def sDesc (log2 opc : Nat) (c : Context) (ps : List Nat) : State := due (withMem { labC [] c with teams := [], groups := [] } [(0x38000, desc log2)]) opc ps

theorem witness_Commands_ctxnew :
    (∀ n ∈ [8, 20, 7, 21], (sDesc n 1 labCtx [0x38000, 0xFFFF]).descStatus 0x38000 ((sDesc n 1 labCtx [0x38000, 0xFFFF]).readBytes 0 0x38000 512) =
      if n = 8 ∨ n = 20 then 0 else 1) ∧
    (let s := sDesc 8 1 labCtx [0x38000, 0xFFFF]
     (s.cmdDue = true ∧ pk s.command 0 1 = 1) ∧ cmdP s.command 0 = 0x38000 ∧ cmdP s.command 1 = 0xFFFF ∧ ∀ c ∈ s.ctxs, c.asid ≠ 0xFFFF) := by
  decide +kernel

/-- CTXEND, PREEMPT, RESUME and WINRESET of context 0 in each stage, with and without a resident team. -/
def sStage (opc : Nat) (st : PreStage) (resident : Bool) : State :=
  let s := sDesc 8 opc { labCtx with stage := st, desc := 0x38000, wroot := 0x1E000 } [0]
  { s with teams := if resident then [fetchTeam] else [] }
def stCtx (st : PreStage) : Context := { labCtx with stage := st, desc := 0x38000, wroot := 0x1E000 }
theorem witness_Commands_stages :
    (∀ opc ∈ [0x02, 0x09, 0x0A, 0x0B], let s := sStage opc .none false
      (s.cmdDue = true ∧ pk s.command 0 1 = opc) ∧ cmdP s.command 0 = 0) ∧
    (∀ st ∈ [PreStage.none, .drain, .save, .saved], ∀ b ∈ [true, false], let s := sStage 0x02 st b
      s.ctx? 0 = some (stCtx st) ∧ (stCtx st).stage = st ∧ (stCtx st).waiting = false ∧ s.quiescent (stCtx st) = !b ∧
      (s.teams.any fun t => t.ctx == 0) = b) ∧
    (∀ x ∈ [(0x1E000, true), (0x4E000, false)], let s := sStage 0x0B .none false
      x.1 % 65536 + 8192 = 65536 ∧ s.wrootPass { stCtx .none with wroot := x.1 } = x.2 ∧ s.eccBad = [] ∧ s.tagBad = []) ∧
    (sStage 0x0A .saved false).descStatus 0x38000 ((sStage 0x0A .saved false).readBytes 0 0x38000 512) = 0 := by
  decide +kernel

/-- Core 191, enabled, is named; a team stands on it or on core 0. -/
def sCores (w tc : Nat) : State :=
  { due { s0 with hostMem := scells 0x8000 (toBytes 24 (2 ^ 191)), teams := [{ fetchTeam with core := tc }],
                  cores := List.replicate 191 Core.fresh ++ [{ Core.fresh with enabled := true }] } 0x03 [0x8000, w] with conf := false }
theorem witness_Commands_coreset : ∀ x ∈ [(1, 0), (1, 191), (2, 0)], let s := sCores x.1 x.2
    (s.cmdDue = true ∧ pk s.command 0 1 = 3) ∧ s.conf = false ∧ s.cores.length = 192 ∧ cmdP s.command 1 = x.1 ∧
    ((s.readNat 1 (cmdP s.command 0) 24).testBit 191 = true ∧ (s.core 191).enabled = true) ∧
    (s.teams.all fun t => decide (¬ (t.core < 192 ∧ (s.readNat 1 (cmdP s.command 0) 24).testBit t.core = true ∧ (s.core t.core).enabled = true))) =
      decide (x.2 = 0) := by
  decide +kernel

theorem witness_Commands_wayset : ∀ conf ∈ [true, false],
    let s := { due { s0 with worlds := List.replicate 15 World.fresh ++ [World.fresh1] } 0x04 [15, 31, 0xFFFF] with conf := conf }
    (s.cmdDue = true ∧ pk s.command 0 1 = 4) ∧ s.worlds.length = 16 ∧ (∀ w, w < 16 → (s.world w).ways.length = 32) ∧ cmdP s.command 0 = 15 ∧
    cmdP s.command 1 = 31 ∧ cmdP s.command 2 = 0xFFFF ∧ (s.world 15).live = true := by
  decide +kernel

theorem witness_Commands_queues :
    (∀ port ∈ [63, 0xFF], let s := due s0 0x05 [63, 0, port]
      (s.cmdDue = true ∧ pk s.command 0 1 = 5) ∧ s.ctx? (cmdP s.command 1) = some labCtx ∧ s.queues.length = 64 ∧ s.sports.length = 64 ∧
      cmdP s.command 0 = 63 ∧ cmdP s.command 2 = port) ∧
    (∀ x ∈ [([63, 0x38000, 4, 191, 0, 63], true), ([63, 0x38000, 16, 191, 0, 63], true), ([64, 0x38000, 4, 191, 0, 63], false),
        ([63, 0x38001, 4, 191, 0, 63], false), ([63, 0x38000, 3, 191, 0, 63], false), ([63, 0x38000, 17, 191, 0, 63], false),
        ([63, 0x38000, 4, 192, 0, 63], false), ([63, 0x38000, 4, 191, 0, 64], false)],
      let s := due s0 0x06 x.1
      let p := cmdP s.command
      (s.cmdDue = true ∧ pk s.command 0 1 = 6) ∧ s.ctx? (p 4) = some labCtx ∧ s.shared.length = 64 ∧
      (decide (p 0 ≤ 63) && decide (p 1 % 4096 = 0) && decide (4 ≤ p 2) && decide (p 2 ≤ 16) && decide (p 3 < 192) && decide (p 5 ≤ 63)) = x.2) := by
  decide +kernel

theorem witness_Commands_rings :
    (∀ n ∈ [6, 16], let s := due { s0 with worlds := List.replicate 15 World.fresh ++ [World.fresh1] } 0x07 [15, 0x38000, n]
      (s.cmdDue = true ∧ pk s.command 0 1 = 7) ∧ s.worlds.length = 16 ∧ cmdP s.command 0 = 15 ∧ (s.world 15).live = true ∧
      cmdP s.command 1 % 4096 = 0 ∧ cmdP s.command 2 = n) ∧
    (let s := due s0 0x08 [0, 0x38000, 4]
     (s.cmdDue = true ∧ pk s.command 0 1 = 8) ∧ s.ctx? (cmdP s.command 0) = some labCtx ∧ cmdP s.command 1 = 0x38000 ∧ cmdP s.command 2 = 4 ∧
     s.systemPages labCtx.world 0x38000 (4096 + 32 * 2 ^ 4) = true ∧ s.readNat 0 0x38000 8 = 0 ∧ s.readNat 0 (0x38000 + 128) 8 = 0 ∧
     s.readNat 0 (0x38000 + 256) 4 = 0) ∧
    (∀ n ∈ [4, 16], let s := due s0 0x0F [0, 15, 0x38000, n]
      (s.cmdDue = true ∧ pk s.command 0 1 = 15) ∧ s.ctx? (cmdP s.command 0) = some labCtx ∧ cmdP s.command 1 = 15 ∧ cmdP s.command 2 = 0x38000 ∧
      cmdP s.command 3 = n ∧ s.readNat 0 0x38000 8 = 0 ∧ s.readNat 0 (0x38000 + 128) 8 = 0 ∧ ringEmpty s.mem 0x38000 n = true) := by
  decide +kernel

theorem witness_Commands_settings :
    (∀ x ∈ [(0, 24), (1, 72), (2, 72), (0, 23)], let s := due s0 0x0C [x.1, x.2]
      (s.cmdDue = true ∧ pk s.command 0 1 = 12) ∧ cmdP s.command 0 = x.1 ∧ cmdP s.command 1 = x.2) ∧
    (∀ x ∈ [(7, 8), (15, 16), (8, 8), (0, 7), (0, 17)], let s := due s0 0x0D [x.1, x.2]
      (s.cmdDue = true ∧ pk s.command 0 1 = 13) ∧ cmdP s.command 0 = x.1 ∧ cmdP s.command 1 = x.2) ∧
    (∀ m ∈ [0, 1], let s := due s0 0x12 [m]
      (s.cmdDue = true ∧ pk s.command 0 1 = 18) ∧ cmdP s.command 0 = m) := by
  decide +kernel

/-- Whatever the free fields of the connection's descriptor are, the context and the realm that they name exist. -/
def ctxNamed : Context :=
  { labCtx with num := Config.connField 0 0x20000 1,
                realms := [{ realm := Config.connField 0 0x20000 2 % 65536, log2n := 4, valid := true, dirBase := 0x30400 }] }
def sConn : State := due (labC [] ctxNamed) 0x0E [0x20000]
theorem witness_Commands_netconn : CommandDue sConn 0x0E ∧ cmdP sConn.command 0 = 0x20000 ∧
    let k := sConn.connDesc (BitVec.ofNat 64 0x20000)
    sConn.ctx? k.ctx = some ctxNamed ∧ (ctxNamed.binding k.realm).isSome = true ∧ sConn.conn? k.id = none := by
  refine ⟨⟨by decide +kernel, by decide +kernel⟩, by decide +kernel, ?_, ?_, rfl⟩
  · show [ctxNamed].find? (fun c => c.num == Config.connField 0 0x20000 1) = _
    simp [ctxNamed]
  · show ((ctxNamed.realms.find? _).isSome) = true
    simp [ctxNamed, State.connDesc, sConn, due, labC, labOf, State.reset]

def sWorlds (opc : Nat) (ps : List Nat) : State :=
  { due { s0 with worlds := List.replicate 15 World.fresh1 ++ [World.fresh], log := [] } opc ps with conf := true }
theorem witness_Commands_worlds :
    (let s := sWorlds 0x10 []
     (s.cmdDue = true ∧ pk s.command 0 1 = 16) ∧ s.worlds.length = 16 ∧ s.conf = true ∧ (s.world 15).live = false ∧
     (∀ v, v < 15 → v ≠ 0 → (s.world v).live = true) ∧ s.entropyFailed = false ∧ s.log.length < 4096) ∧
    (let s := sWorlds 0x11 [14]
     (s.cmdDue = true ∧ pk s.command 0 1 = 17) ∧ s.worlds.length = 16 ∧ s.conf = true ∧ cmdP s.command 0 = 14 ∧ (s.world 14).live = true ∧
     (∀ c ∈ s.cores, c.world ≠ some 14) ∧ ∀ c ∈ s.ctxs, c.world ≠ 14) := by
  decide +kernel

def entry0 : LogEntry := { time := 0, cls := 3, world := 0, unit := 0, seq := 0, detail := [] }
theorem witness_Commands_logread : let s := { due s0 0x13 [0x1010, 1] with log := [entry0, entry0] }
    (s.cmdDue = true ∧ pk s.command 0 1 = 19) ∧ min (cmdP s.command 1) s.log.length = 1 ∧ cmdP s.command 0 = 0x1010 ∧
    s.host.cplBase.toNat / 4096 * 4096 + 16 * (s.host.cqHead.toNat % s.host.entries) + 16 = 0x1010 := by
  decide +kernel

/-! ## The Root Engine -/

def tr0 : Training := { links := 0x7FFF, netPorts := 0xFF, pcie := true, sysPages := [(0, 0x2800000), (0x27FFFFF, 1)] }
def sBoot (signed confReq resetReq : Bool) : State :=
  { State.reset with flash := { ConfigImage.plain with signed := signed, cores := BitVec.twoPow 192 191 }, confReq := confReq, resetReq := resetReq }
theorem witness_BootAndReset (a b c : Bool) :
    (∀ r ∈ tr0.sysPages, r.1 + r.2 ≤ 0x2800000) ∧
    ((sBoot a b c).cores = State.reset.cores ∧ (sBoot a b c).groups = [] ∧ (sBoot a b c).teams = [] ∧ (sBoot a b c).recovery = false ∧
      (sBoot a b c).ready = false) ∧ (sBoot a b c).flash.signed = a ∧ (sBoot a b c).confReq = b ∧ (sBoot a b c).resetReq = c ∧
    (sBoot a b c).log.length < 4096 ∧ (sBoot a b c).flash.cores.getLsbD 191 = true ∧
    ∀ k, k < 191 → (sBoot a b c).flash.cores.getLsbD k = false :=
  ⟨by decide, ⟨rfl, rfl, rfl, rfl, rfl⟩, rfl, rfl, rfl, (by decide : 0 < 4096), (by decide +kernel : (BitVec.twoPow 192 191).getLsbD 191 = true),
    (by decide +kernel : ∀ k, k < 191 → (BitVec.twoPow 192 191).getLsbD k = false)⟩

/-- An image that enables no core, of a device that fetched nothing yet or that has booted. -/
theorem witness_BootAndReset_recovery :
    (∀ b ∈ [true, false], let s := { sBoot true b false with flash := { ConfigImage.plain with signed := true, cores := 0 }, stage := 6 }
      s.flash.signed = true ∧ s.flash.cores = 0 ∧ s.stage ≠ 0) ∧ (sBoot false false false).flash.signed = false := by
  decide +kernel

/-- A millisecond and a second after the last steps; world 15 live. -/
def sRoot (td : Tdisp) (cyc : Nat) (x : Scrubber) (bad : List Nat) : State :=
  { State.reset with cycle := BitVec.ofNat 64 cyc, worlds := List.replicate 15 World.fresh ++ [{ World.fresh1 with tdisp := td }], scrubF := x, eccBad := bad }
theorem witness_RootEngineSteps :
    (let s := sRoot .unlocked 2400000 (Scrubber.fresh 72) []
     s.worlds.length = 16 ∧ s.clockAt + 2400000 = s.cycle.toNat ∧ s.chainAt + 2400000 = s.cycle.toNat ∧ (s.world 15).live = true ∧
     (s.world 0).live = false ∧ s.entropyFailed = false ∧ s.cap = 2200 ∧ (s.world 15).meters.length = 16) ∧
    (∀ td ∈ [Tdisp.unlocked, .locked, .run], ((sRoot td 0 (Scrubber.fresh 72) []).world 15).tdisp = td) := by
  decide +kernel

/-- Levels that rise and fall; the last line of a pass, with and without an uncorrectable sector. -/
def scr (level next : Nat) : Scrubber := { next := next, start := 0, target := 2400000000, level := level, tick := 0 }
theorem witness_RootEngineSteps_scrub :
    (∀ x ∈ [(0, 10), (1, 20), (2, 30)], let s := sRoot .unlocked 2400000000 (scr x.1 0) []
      (s.scrubber 1).tick + 2400000000 = s.cycle.toNat ∧ (s.scrubber 1).level = x.1 ∧ (s.scrubber 1).above s.cycle.toNat (2 ^ 35) x.2 = true) ∧
    (∀ x ∈ [(1, 5), (2, 15), (3, 25)], let s := sRoot .unlocked 2400000000 (scr x.1 (2 ^ 35 - 1)) []
      (s.scrubber 1).level = x.1 ∧ (s.scrubber 1).below s.cycle.toNat (2 ^ 35) x.2 = true ∧
      ∀ k ∈ [20, 30], (s.scrubber 1).above s.cycle.toNat (2 ^ 35) k = false) ∧
    (∀ bad ∈ [[], [(0x20000000000 + 64 * (2 ^ 35 - 1)) / 16 + 3]], let s := sRoot .unlocked 0 (scr 0 (2 ^ 35 - 1)) bad
      s.log.length < 4096 ∧ (s.scrubber 1).next + 1 = 2 ^ 35 ∧
      (s.eccBad.any fun q => q / 4 == (0x20000000000 + 64 * (s.scrubber 1).next) / 64) = decide (bad ≠ [])) := by
  decide +kernel

end Sys2Proof.Tests
end

