-- ==== Sys2Proof/Tests/WitnessEngines.lean ====
section
/-! SUPPORT. Witnesses for the statements about the Asynchronous Engine, the Plate and the Sheepdogs. -/

namespace Sys2Proof.Tests

open Sys2Proof Sys2Proof.Machine Sys2Proof.Bits

set_option Elab.async false

/-- What an access answered, where it answered. -/
def got {ε : Type} (x : Except ε (State × List Byte)) : State × List Byte :=
  match x with
  | .ok y => y
  | .error _ => (s0, [])

theorem ok_got {ε : Type} {x : Except ε (State × List Byte)} (h : (match x with | .ok _ => true | .error _ => false) = true) : x = .ok (got x) := by
  cases x with
  | ok y => rfl
  | error e => cases h

/-! ## The Asynchronous Engine -/

/-- A request packet: kind, the bits of byte 1, barrier number, length, source, destination. -/
def packet (kind bits bar len src dst : Nat) : List Byte :=
  toBytes 8 (kind + bits * 256 + bar * 2 ^ 16 + len * 2 ^ 32) ++ toBytes 8 src ++ toBytes 8 dst ++ [1, 0, 1, 0] ++ List.replicate 36 0
def pktOf (b : List Byte) : Packet := { bytes := b, org := org0, queue := none, place := 0, stall := none, cancel := false }
def fromQueue (b : List Byte) : Packet :=
  { pktOf b with queue := some 63, org := { org0 with team := none } }

/-- A shared queue 63 of a privileged context with a ring at 0x38000, whose packets' records go to launch queue 0. -/
def privCtx : Context := { labCtx with priv := true }
def queue63 : SharedQueue := { desc := 0x38000, n := 4, core := 0, ctx := 0, lq := 0, stall := none }
def sEng (k : Core) (t : Team) (n : Nat) : State :=
  let s := labOf (labGroup []) t privCtx k
  withMem { s with shared := List.replicate 63 none ++ [some queue63], turn := none,
                   queues := { LaunchQueue.fresh with ctx := some 0, recs := List.replicate n { bytes := recBytes, pc := 0, who := none, peer := 0 } } ::
                     List.replicate 63 LaunchQueue.fresh }
    [(0x39000, packet 1 5 0 16 0x20000 0x20100), (0x20000, recBytes)]

def ringTeam : Team := { fetchTeam with ring := List.replicate 7 .free ++ [.submitted 0 org0] }

theorem witness_EnginePackets_acquire :
    (∀ n ∈ [31, 32], ((sEng { labCore with queue := List.replicate n pkt0 } ringTeam 0).core 0).queue.length = n) ∧
    (let s := sEng { labCore with queue := List.replicate 31 pkt0 } ringTeam 0
     s.cores.length = 192 ∧ s.nextRingTeam 0 = some ringTeam ∧ firstSubmitted ringTeam.ring = some (7, 0, org0)) ∧
    (sEng labCore ringTeam 0).team? ringTeam.tid = some ringTeam := by
  decide +kernel

theorem witness_EnginePackets_shared :
    let s := sEng { labCore with queue := List.replicate 31 pkt0 } ringTeam 0
    s.shared.getD 63 none = some queue63 ∧ queue63.stall = none ∧ s.ctx? queue63.ctx = some privCtx ∧ (s.core 0).spawnWaits 63 = false ∧
    s.engAcc 1 privCtx .read (0x38000 + 128) 8 = .at_ { space := 0, pa := 0x38080, nc := false } ∧ s.readNat 0 0x38080 8 = 0 ∧
    s.engAcc 1 privCtx .read (0x38000 + 4096 + 64 * (0 % 2 ^ 4)) 64 = .at_ { space := 0, pa := 0x39000, nc := false } ∧
    s.engAcc 1 privCtx .write 0x39000 8 = .at_ { space := 0, pa := 0x39000, nc := false } ∧
    s.engAcc 1 privCtx .write 0x38080 8 = .at_ { space := 0, pa := 0x38080, nc := false } ∧ pkKind (s.readBytes 0 0x39000 64) ≠ 0 ∧
    0x38080 + 8 ≤ 0x39000 ∧ isCarve 0x38080 = false ∧ isCarve 0x39000 = false := by
  decide +kernel

/-- A packet whose barrier is the last below the ring. -/
def sStart (kind : Nat) : State :=
  sEng { labCore with queue := [pktOf (packet kind 0 32703 512 0x20000 522752)] } ringTeam 0

/-- A COPY, a COPY3D, a FILL up to the ring; one of a reserved kind. -/
theorem witness_EnginePackets_start : ∀ x ∈ [(1, true), (2, true), (3, true), (4, false)],
    ((sStart x.1).core 0).nextPacket = some (pktOf (packet x.1 0 32703 512 0x20000 522752)) ∧
    copyBad (packet x.1 0 32703 512 0x20000 522752) false = !x.2 ∧
    (x.2 = true → rangeBad ((sStart x.1).packetTeam (pktOf (packet x.1 0 32703 512 0x20000 522752))) (packet x.1 0 32703 512 0x20000 522752) = false ∧
      ((sStart x.1).core 0).crowded 0 = false) ∧
    TeamBar (sStart x.1) 0 (pktOf (packet x.1 0 32703 512 0x20000 522752)) ringTeam (0 + 16 * 32703) ∧ 16 * 32703 + 16 = ringTeam.ringStart := by
  intro x hx
  refine ⟨?_, ?_, ?_, ⟨?_, ?_, ?_, ?_, ?_, by decide⟩, by decide +kernel⟩ <;> revert x hx <;> decide +kernel

theorem witness_EnginePackets_spawn : ∀ n ∈ [63, 64],
    let s := sEng { labCore with queue := [fromQueue (packet 0x20 0 0 0 0x20000 0)] } ringTeam n
    let p := fromQueue (packet 0x20 0 0 0 0x20000 0)
    (s.core 0).nextSpawn s.mayRetry = some p ∧ s.shared.getD 63 none = some queue63 ∧ s.ctx? p.org.ctx = some privCtx ∧ pk p.bytes 8 8 % 64 = 0 ∧
    s.engAcc 1 privCtx .read (pk p.bytes 8 8) 64 = .at_ (at1 0) ∧ s.queueBound queue63.lq privCtx.num = true ∧ s.queues.length = 64 ∧
    recBad (s.readBytes 0 0x20000 64) = false ∧ (s.lqueue 0).full = decide (n = 64) := by
  decide +kernel

/-- A started packet whose last 512 bytes of 1,024 are to come: a FILL of scratchpad, a COPY into scratchpad, a COPY from it. -/
def sPiece (kind bits src dst : Nat) : State :=
  sEng { labCore with active := [{ pkt := pktOf (packet kind bits 0 1024 src dst), todo := [(0, 1024)], stall := none }] } ringTeam 0

theorem witness_EnginePackets_piece : ∀ x ∈ [(3, 0, 0, 16), (1, 0, 0x2FC00, 16), (1, 6, 16, 0x2FC00)],
    let s := sPiece x.1 x.2.1 x.2.2.1 x.2.2.2
    let p := pktOf (packet x.1 x.2.1 0 1024 x.2.2.1 x.2.2.2)
    (s.core 0).active[0]? = some { pkt := p, todo := [(0, 1024)], stall := none } ∧ TeamBar s 0 p ringTeam 0 ∧ s.ctx? p.org.ctx = some privCtx ∧
    s.copyWaits 0 p.place = false ∧ takeRange 512 512 [(0, 1024)] = some [(0, 512)] ∧ 512 / 1024 = (512 + 512 - 1) / 1024 ∧
    s.walksWait privCtx ((if pkKind p.bytes = 3 ∨ pkSscr p.bytes = true then [] else [wrap 64 ((rowsOf p.bytes).srcAt 512)]) ++
      if pkDdev p.bytes then [wrap 64 ((rowsOf p.bytes).dstAt 512)] else []) = false ∧
    (pkSscr p.bytes = true → absent (s.core 0) (ringTeam.base + ((rowsOf p.bytes).srcAt 512).toNat) 512 = false) ∧
    (pkDdev p.bytes = false → 0 + 16 ≤ ringTeam.base + ((rowsOf p.bytes).dstAt 512).toNat) ∧
    (pkDdev p.bytes = true → s.engAcc p.org.world privCtx .write (wrap 64 ((rowsOf p.bytes).dstAt 512)) 512 = .at_ { space := 0, pa := 0x2FE00, nc := false }) ∧
    (pkKind p.bytes ≠ 3 ∧ pkSscr p.bytes = false → s.engAcc p.org.world privCtx .read (wrap 64 ((rowsOf p.bytes).srcAt 512)) 512 =
      .at_ { space := 0, pa := 0x2FE00, nc := false }) ∧
    0x2FE00 % 65536 + 512 = 65536 ∧ isCarve 0x2FE00 = false ∧ isCarve (0x2FE00 + 512 - 1) = false := by
  intro x hx
  refine ⟨?_, ⟨?_, ?_, ?_, ?_, ?_, by decide⟩, ?_⟩ <;> revert x hx <;> decide +kernel

/-! ## The Plate Engine -/

def opP (k : PlateKind) (place : Nat) (st : EngrStage) : PlateOp := { kind := k, org := org0, place := place, stage := st, step := 0 }
def bankS8 (n : Nat) : CellBank := { CellBank.fresh with fmt := .s8, retired := List.range n }

/-- A core whose Plate is as given, with no group in the submitter's slot, at cycle 1,024 of the arithmetic clock. -/
def sPl (p : Plate) : State := { sEng { labCore with plate := p } fetchTeam 0 with groups := [], arith := 1024 * 2400 }
def engrOp (gq4 : Bool) (st : EngrStage) : PlateOp := opP (.engr gq4 (if gq4 then 488448 else 456704)) 1 st
def loopOp : PlateOp := opP (.mloop 3 521216 523232 0 0 0 63 1) 0 .waiting

theorem witness_PlateExecution_engrave :
    (∀ b ∈ [true, false], let p : Plate := { Plate.fresh with seq := [loopOp, engrOp b .waiting] }
      p.firstEngr = some (engrOp b .waiting) ∧ sourceReady ((sPl p).core 0) 1 (if b then 488448 else 456704) (if b then 34816 else 66560) = true ∧
      (sPl p).cores.length = 192) ∧
    (∀ at_ ∈ [1024 * 2400, 1024 * 2400 + 1], let p : Plate := { Plate.fresh with seq := [engrOp true (.engraving at_)] }
      p.firstEngr = some (engrOp true (.engraving at_)) ∧ (decide (at_ ≤ (sPl p).arith) = decide (at_ = 1024 * 2400))) ∧
    (∀ early ∈ [true, false], let p : Plate := { Plate.fresh with seq := (if early then [loopOp] else []) ++ [engrOp true .complete] }
      p.firstEngr = some (engrOp true .complete) ∧ p.waiters = [] ∧
      ((p.seq.takeWhile fun y => y.place != (engrOp true .complete).place).any fun y => y.kind.isMloop) = early) := by
  decide +kernel

theorem witness_PlateExecution_loop :
    (let p : Plate := { Plate.fresh with seq := [loopOp] }
     p.current = some loopOp ∧ p.waiters = [] ∧ p.frontBank.fmt = .empty ∧
     (sPl p).group? (slotKey ((loopOp.org.team.bind fun n => (sPl p).team? n).map (·.core) |>.getD 0) 0 0) = none ∧
     (sPl p).ctx? loopOp.org.ctx = some privCtx ∧ privCtx.errq = none ∧ (sPl p).log.length < 4096) ∧
    (∀ e ∈ [none, some plateErr0], let p : Plate := { Plate.fresh with seq := [loopOp] }
     let s := { sPl p with groups := [(0, { labGroup [] with plateErr := e })] }
     p.current = some loopOp ∧ p.frontBank.fmt = .empty ∧ (∃ g, s.group? (slotKey ((loopOp.org.team.bind fun n => s.team? n).map (·.core) |>.getD 0)
       loopOp.org.port loopOp.org.slot) = some g ∧ g.gid = loopOp.org.gid ∧ some g.team = loopOp.org.team ∧ g.plateErr = e)) ∧
    (∀ n ∈ [7, 8], let p : Plate := { Plate.fresh with seq := [loopOp], bank0 := bankS8 n }
      p.current = some loopOp ∧ p.frontBank.fmt ≠ .empty ∧ p.frontBank.retired.length = n ∧
      (∀ col ∈ [n, 255 + n], p.frontBank.inUse col = true) ∧ p.frontBank.inUse 0 = false ∧ sourceReady ((sPl p).core 0) 0 (521216 + 0 * 0) 2048 = true ∧ sourceReady ((sPl p).core 0) 0 (523232 + 0 * 0) 32 = true) := by
  decide +kernel

/-- A drain of all 64 rows beneath its barrier, of which none or the last is not valid; a clear of row 63. -/
def drainTo (ty : Nat) : PlateOp := opP (.mdrain ty 5 true 0 523248 0 64) 0 .waiting
def clearOp : PlateOp := opP (.mclr 63 1) 0 .waiting

theorem witness_PlateExecution_drain :
    (∀ b ∈ [true, false], ∀ ty ∈ [8, 9, 10, 12], let p : Plate := { Plate.fresh with seq := [drainTo ty], invalid := if b then BitVec.twoPow 64 63 else 0 }
      p.current = some (drainTo ty) ∧ ((sPl p).core 0).crowded (drainTo ty).place = false ∧ p.waiters = [] ∧ ((drainTo ty).org.team.bind fun n => (sPl p).team? n) = some fetchTeam ∧
      523248 % 16 = 0 ∧ 523248 + 16 = fetchTeam.ringStart ∧ 0 + 256 * memW ty * 64 ≤ fetchTeam.base + 523248 ∧
      p.invalid.getLsbD (0 + 63) = b ∧ ∀ i, i < 63 → p.invalid.getLsbD (0 + i) = false) ∧
    (let p : Plate := { Plate.fresh with seq := [clearOp] }
     p.current = some clearOp ∧ p.waiters = []) := by
  decide +kernel

/-! ## The Search Engine -/

/-- A SEARCH packet for the lab's graph from node `entry` for `count` results of a beam of 64 at offset 16. -/
def seek (kind count entry : Nat) : List Byte :=
  toBytes 8 (kind + 1 * 2 ^ 32) ++ toBytes 16 (2 ^ 127 + 3 * 2 ^ 124 + 5 * 2 ^ 108 + 9 * 2 ^ 44) ++ toBytes 8 0x20100 ++ toBytes 8 16 ++
    toBytes 4 entry ++ [63, BitVec.ofNat 8 count, 0, 0] ++ toBytes 8 7 ++ List.replicate 8 0
def query0 : Query := queryOf (pktOf (seek 0x10 64 0)) 0 false
/-- A query that runs on a graph of two nodes of two F16 elements at 0x20000. -/
def running (st : QueryStage) : Query := { query0 with stage := st, base := 0x20000, nodes := 2, dim := 2, deg := 1, nodeSz := 32, qvec := [0, 0, 0, 0] }

/-- A Sheepdog as given; the graph's header, or a slot of it, at 0x20000. -/
def sDog (n : Nat) (d : Dog) (k : Core) (head : List Byte) : State :=
  let s := sEng k fetchTeam 0
  withMem { s with mem := labMem, dogs := s.dogs.set n d } [(0x20000, head)]
def noDog : Dog := { inbound := [], admission := [], active := [], marks := [] }
def header : List Byte := [2, 0, 0, 0, 2, 0, 0, 1, 32, 0, 0, 0] ++ List.replicate 68 0
def slot0 : List Byte := List.replicate 16 0 ++ [1, 0, 0, 0, 1, 0, 0, 0]

theorem witness_SearchSteps_forward :
    (∀ n ∈ [63, 64], let s := sDog 7 { noDog with inbound := List.replicate n query0 } { labCore with search := [pktOf (seek 0x10 64 7)] } []
      s.dogs.length = 8 ∧ s.cores.length = 192 ∧ (s.core 0).search = pktOf (seek 0x10 64 7) :: [] ∧ searchBad (seek 0x10 64 7) false = false ∧
      searchRange (s.packetTeam (pktOf (seek 0x10 64 7))) (seek 0x10 64 7) = false ∧ sEntry (seek 0x10 64 7) % 8 = 7 ∧
      s.packetTeam (pktOf (seek 0x10 64 7)) = some fetchTeam ∧ fetchTeam.saveRec = none ∧
      (s.core 0).crowded (pktOf (seek 0x10 64 7)).place = false ∧ (s.dog 7).inbound.length + (s.dog 7).admission.length = n) ∧
    (let p := { pktOf (seek 0x10 64 7) with place := 15 }
     let k : Core := { labCore with search := [p], writers := ((List.range 15).map fun n => { place := n, chunks := [0] }) ++ [{ place := 15, chunks := [0] }] }
     (k.crowded p.place = true ∧ searchRange ((sDog 7 noDog k []).packetTeam p) p.bytes = false)) ∧
    (let s := sDog 7 noDog { labCore with search := [pktOf (seek 0x10 65 7)] } []
     searchBad (seek 0x10 65 7) false = true ∧ s.packetTeam (pktOf (seek 0x10 65 7)) = some fetchTeam ∧ pkBdev (seek 0x10 65 7) = false ∧
     16 * (pk (seek 0x10 65 7) 0 8 / 2 ^ 16 % 2 ^ 16) + 16 ≤ fetchTeam.ringStart) ∧
    (let s := sDog 7 { noDog with inbound := [query0], admission := List.replicate 63 query0 } labCore []
     (s.dog 7).inbound = query0 :: [] ∧ (s.dog 7).admission.length < 64) := by
  decide +kernel

def sCanc : State := sDog 0 { noDog with admission := [{ query0 with cancel := true }] } labCore header
def sAcc : State := sDog 0 { noDog with admission := [query0] } labCore header
def sAcc1 : State := (searchGraph (sAcc.setDog 0 { noDog with active := [query0] }) 0 (sGraph query0.pkt.bytes)).1
def sAcc2 : State × List Byte := got (sAcc1.searchRead privCtx 1 none (dataAt 0x20000) 256)
def sAcc3 : State × List Byte := got (sAcc2.1.searchRead privCtx 1 none (sQuery query0.pkt.bytes) (queryBytes (pk sAcc2.2 6 1 % 4) (pk sAcc2.2 4 2)))

theorem witness_SearchSteps_accept :
    ((sCanc.dog 0).active = [] ∧ (sCanc.dog 0).admission = { query0 with cancel := true } :: [] ∧ sCanc.ctx? 0 = some privCtx ∧
      query0.stall = none ∧ sRdev query0.pkt.bytes = false ∧ TeamBar sCanc 0 query0.pkt fetchTeam 0 ∧ ResultApart query0 fetchTeam 0) ∧
    ((sAcc.dog 0).active = [] ∧ (sAcc.dog 0).admission = query0 :: [] ∧ query0.cancel = false ∧ query0.nodes = 0 ∧ sQscr query0.pkt.bytes = false ∧
      query0.stage = .admitted) ∧
    searchGraph (sAcc.setDog 0 { noDog with active := [query0] }) 0 (sGraph query0.pkt.bytes) = (sAcc1, .ok (dataAt 0x20000)) ∧
    sAcc1.ctx? privCtx.num = some privCtx ∧ sAcc1.searchRead privCtx 1 none (dataAt 0x20000) 256 = .ok sAcc2 ∧
    (searchHeader query0 (dataAt 0x20000) sAcc2.2).2 = false ∧
    sAcc2.1.searchRead privCtx 1 none (sQuery query0.pkt.bytes) (queryBytes (pk sAcc2.2 6 1 % 4) (pk sAcc2.2 4 2)) = .ok sAcc3 ∧
    (∀ v ∈ plainElems false (pk sAcc2.2 4 2) sAcc3.2, v.finite = true) :=
  ⟨⟨by decide +kernel, by decide +kernel, by decide +kernel, rfl, by decide +kernel,
      ⟨by decide +kernel, by decide +kernel, by decide +kernel, by decide +kernel, by decide +kernel, by decide⟩, Or.inr (by decide +kernel)⟩,
    ⟨by decide +kernel, by decide +kernel, rfl, rfl, by decide +kernel, rfl⟩, Prod.ext (by simp only [sAcc1]) (by decide +kernel), by decide +kernel,
    ok_got (by decide +kernel), by decide +kernel, ok_got (by decide +kernel), by decide +kernel⟩

def qList : Query := { running (.list 0) with visited := [0] }
def sList : State := sDog 0 { noDog with active := [qList] } labCore slot0
def sList1 : State × List Byte := got (sList.listHead privCtx qList 0 (qList.slot 0 + qList.vb))
def sList2 : State × List Byte := got (sList1.1.listRest privCtx qList 0 (qList.slot 0 + qList.vb) 1 sList1.2.length)
/-- Two distances are awaited, and one has been answered. -/
def qDists : Query := running (.dists [1, 0] [(1, 0)])
def sDist : State := sDog 0 { noDog with active := [qDists] } labCore slot0
def sEntr : State := sDog 0 { noDog with active := [running .entry] } labCore slot0

theorem witness_SearchSteps_read :
    (sList.dog 0).active[0]? = some qList ∧ qList.stall = none ∧ sList.ctx? 0 = some privCtx ∧
    sList.listHead privCtx qList 0 (qList.slot 0 + qList.vb) = .ok sList1 ∧ ofBytes (sList1.2.take 2) = 1 ∧ 1 ≤ qList.deg ∧
    sList1.1.listRest privCtx qList 0 (qList.slot 0 + qList.vb) 1 sList1.2.length = .ok sList2 ∧
    newIds qList.nodes qList.visited [] ((List.range 1).map fun k => ofBytes (((sList1.2 ++ sList2.2).drop (4 + 4 * k)).take 4)) = [1] ∧
    qList.visited.length + 1 ≤ 8192 ∧
    ((sEntr.dog 0).active[0]? = some (running .entry) ∧ sEntr.searchRead privCtx 1 (some (sEntry (running .entry).pkt.bytes % 8))
      ((running .entry).slot (sEntry (running .entry).pkt.bytes)) (vecBytes 0 2) =
        .ok (got (sEntr.searchRead privCtx 1 (some (sEntry (running .entry).pkt.bytes % 8))
          ((running .entry).slot (sEntry (running .entry).pkt.bytes)) (vecBytes 0 2)))) ∧
    ((sDist.dog 0).active[0]? = some qDists ∧ ([1, 0].find? fun y => !(([(1, (0 : BitVec 32))].any fun g => g.1 == y))) = some 0 ∧
      sDist.searchRead privCtx 1 (some 0) (qDists.slot 0) (vecBytes 0 2) =
        .ok (got (sDist.searchRead privCtx 1 (some 0) (qDists.slot 0) (vecBytes 0 2)))) :=
  ⟨by decide +kernel, rfl, by decide +kernel, ok_got (by decide +kernel), by decide +kernel, by decide, ok_got (by decide +kernel),
    by decide +kernel, by decide +kernel, ⟨by decide +kernel, ok_got (by decide +kernel)⟩, by decide +kernel, by decide +kernel,
    ok_got (by decide +kernel)⟩

/-- Answers: one of two awaited; the last, with the answered node to be expanded; the last of a query with nothing left. -/
def sAns (ids exp : List Nat) : State := sDog 0 { noDog with active := [{ running (.dists ids [(1, 0)]) with expanded := exp }] } labCore []

theorem witness_SearchSteps_answer :
    (∀ x ∈ [([1, 0], []), ([1], []), ([1], [1])],
      let q : Query := { running (.dists x.1 [(1, 0)]) with expanded := x.2 }
      ((sAns x.1 x.2).dog 0).active[0]? = some q ∧ (sAns x.1 x.2).ctx? 0 = some privCtx ∧ [(1, (0 : BitVec 32))].find? (fun g => g.1 == 1) = some (1, 0) ∧
      (candInsert (sWidth q.pkt.bytes) q.cand (0, 1)).find? (fun e => !q.expanded.contains e.2) = (if x.2 = [] then some (0, 1) else none) ∧
      q.nexp ≠ pkLen q.pkt.bytes) ∧
    TeamBar (sAns [1] [1]) 0 query0.pkt fetchTeam 0 ∧ ResultApart query0 fetchTeam 0 :=
  ⟨by decide +kernel, ⟨by decide +kernel, by decide +kernel, by decide +kernel, by decide +kernel, by decide +kernel, by decide⟩, Or.inr (by decide +kernel)⟩

def mark0 : Mark := { ctx := 0, tag := 7, core := 0, port := 0, slot := 0, lanes := 0xFFFFFFFF }
def cancel0 : Cancel := { core := 0, port := 0, slot := 0, dreg := 63, lanes := 0xFFFFFFFF, ready := [(7, 64)], left := 1, count := 0 }
def sScan : State := { sDog 7 { noDog with marks := [mark0] } labCore [] with cancels := [cancel0] }

theorem witness_SearchSteps_cancel : (sScan.dog 7).marks = mark0 :: [] ∧ sScan.cancels = [cancel0] ∧ cancel0.ready = [(7, 64)] ∧ cancel0.left = 1 ∧
    (sScan.group? (slotKey 0 0 0)).isSome = true := by
  decide +kernel

end Sys2Proof.Tests
end

