-- ==== Sys2Proof/Tests/WitnessFabric.lean ====
section
/-! SUPPORT. Witnesses for the statements about the Fabric and Network Engines. -/

namespace Sys2Proof.Tests

open Sys2Proof Sys2Proof.Machine Sys2Proof.Bits

set_option Elab.async false

/-! ## Incoming requests -/

/-- Device 0 of 16, with a link to device 15 as given and a response kept for its request 5 of world 1. -/
def sFab (l : Link) : State :=
  { lab [] with fabNum := some 0, fabN := 16, links := List.replicate 15 Link.fresh ++ [l], turn := none,
                peers := [{ num := 15, mem := labMem, links := 0, bad := [], tags := [] }],
                kept := [{ src := 15, world := 1, seq := 5, data := [1], cause := 0 }] }
def linkUp : Link := Link.fresh.bringUp

/-- The last bytes of a page of world 1; pages that are no memory, of the carve-out, and not world 1's to access. -/
theorem witness_FabricSteps_incoming :
    (let s := sFab linkUp
     some 15 ≠ s.fabNum ∧ s.pathTo 15 = true ∧ 0 = sget s.rxE2e (16 * 15 + 1) ∧ s.eccBad = [] ∧ s.tagBad = [] ∧
     (∀ pa ∈ [0x2FFF8, 0x2FFFF], isMemPa pa = true ∧ isCarve pa = false ∧ potPass s.mem 1 false pa = true ∧ s.dataError pa 1 = none) ∧
     s.dataError 0x2FFF8 8 = none ∧ 0x2FFF8 % 65536 + 8 = 65536 ∧ 0x2FFFF % 65536 + [(0 : Byte)].length = 65536 ∧
     (isMemPa 0x8000000000 = false ∧ isMemPa 0x7FF4000000 = true ∧ isCarve 0x7FF4000000 = true ∧
       isMemPa 0x30000 = true ∧ isCarve 0x30000 = false ∧ potPass s.mem 1 false 0x30000 = false ∧ potPass s.mem 1 true 0x30000 = true) ∧
     (s.promoTo 15 0 0 0x20000 = none ∧ s.dataError 0x20000 128 = none) ∧
     (∀ seq ∈ [(5, true), (6, false)], (BitVec.ofNat 32 seq.1 ≠ sget s.rxE2e (16 * 15 + 1)) ∧
       (s.kept.find? (fun x => x.src == 15 && x.world == 1 && x.seq == BitVec.ofNat 32 seq.1)).isSome = seq.2)) := by
  decide +kernel

/-- A request of group 0 to device 15. -/
def req (k : RemoteKind) : Remote :=
  { kind := k, peer := 15, core := 0, org := org0, lanes := 0xFFFFFFFF, va := 0x20000, doubt := false, since := 0, ready := false, priv := false, sent := false, block := 128 }

/-- A peer's acquire with PROMO on a line that core 0 has released, while a store of its own is not complete and when it has none; and on
one that core 191 of device 14 has released. -/
def sRel (by_ : Nat) (open_ : Bool) : State :=
  { sFab linkUp with release := [(locKey spLocal 0x20000 / 128, BitVec.ofNat 16 (by_ + 1))],
                     remotes := if open_ then [req (.store 8 [(0x2FFFF, [1])] 0x20000 false)] else [] }

theorem witness_FabricSteps_promo :
    (∀ b ∈ [true, false], (sRel 0 b).promoTo 15 0 0 0x20000 = some 0 ∧ (sRel 0 b).openStores 0 = b) ∧
    ((sRel (256 * 14 + 191) false).promoTo 15 0 0 0x20000 = some (256 * 14 + 191) ∧ (256 * 14 + 191) / 256 = 14 ∧
      (sRel (256 * 14 + 191) false).fabNum.getD 0 = 0 ∧ (sRel (256 * 14 + 191) false).homePromo? 1 (256 * 14 + 191) 15 0 = none) := by
  decide +kernel

/-! ## Requests of this device -/

def stReq : Remote := req (.store 8 [(0x2FFFF, [1])] 0x20000 false)
def gReq : Group := { labGroup [] with lanes := List.replicate 32 { Lane.fresh with st := .parked .remote } }
def sReq (l : Link) (r : Remote) : State :=
  { sFab l with remotes := [r], groups := [(0, gReq)], cycle := 0x400000 }

theorem witness_FabricSteps_request : ∀ up ∈ [true, false], ∀ r ∈ [req .load, req .atomic, stReq],
    let s := sReq (if up then linkUp else Link.fresh) r
    s.remotes[0]? = some r ∧ r.ready = false ∧ r.doubt = false ∧
    s.group? 0 = some gReq ∧ gReq.gid = r.org.gid ∧ some gReq.team = r.org.team ∧ (gReq.lane 31).waitsPeer = true ∧
    slotKey r.core r.org.port r.org.slot = 0 ∧ s.pathTo r.peer = up ∧ s.inDoubt r.peer = false ∧ s.notFirst 0 r = false ∧
    (up = false → (s.link r.peer).lostAt + 0x400000 = s.cycle.toNat) ∧ s.team? 0 = some fetchTeam ∧ s.ctx? r.org.ctx = some labCtx ∧
    labCtx.errq = none ∧ s.log.length < 4096 := by
  decide +kernel

theorem witness_FabricSteps_store : stReq.kind = .store 8 [(0x2FFFF, [1])] 0x20000 false ∧ stReq.peer ≠ (sReq linkUp stReq).fabNum.getD 0 ∧
    (sReq linkUp stReq).storeRefused stReq 8 [(0x2FFFF, [1])] = none ∧ 0x2FFFF % 65536 + 1 = 65536 ∧ isCarve 0x2FFFF = false ∧
    isCarve (0x2FFFF + 1 - 1) = false := by
  decide +kernel

/-! ## Links -/

/-- Links that are up: with one failure below the limit, and at it; with the counters at the change of keys; with a full window of
unacknowledged flits. -/
def linkAt (fails ctr n : Nat) : Link :=
  { linkUp with fails := fails, tx := { Keys.bringUp with ctr0 := ctr }, txSeq := 1023, retry := List.replicate n { seq := 7, ks := false, payload := [] } }
def flit (ty seq dest : Nat) (auth : Bool) : Flit :=
  { ks := true, icl := 0x7FFFFFFF, seq := BitVec.ofNat 24 seq, ty := BitVec.ofNat 8 ty, payload := [0, 0, 7], dest := dest, auth := auth }

theorem witness_FabricSteps_link :
    (∀ l ∈ [linkUp, Link.fresh], let s := sFab l
      s.links.length = 16 ∧ some 15 ≠ s.fabNum ∧ 15 < s.fabN ∧ s.fabNum ≠ none ∧ s.link 15 = l ∧ s.log.length < 4096) ∧
    (linkUp.tx.live0 = true ∧ linkUp.fails < 8 ∧ (sFab linkUp).remotes = [] ∧ Link.fresh.tx.live0 = false ∧ Link.fresh.tx.live1 = false) ∧
    (let l := linkAt 7 0 2
     (sFab l).link 15 = l ∧ l.up = true ∧ l.fails + 1 = 8 ∧ LinkSettled l ∧
     (∀ ty ∈ [1, 2, 3, 4, 5], (flit ty 0 0 true).auth = true ∧ l.rx.live true = true ∧ (flit ty 0 0 true).ty.toNat = ty) ∧
     (flit 1 0 0 true).seq = l.rxSeq ∧ (flit 1 1 0 true).seq ≠ l.rxSeq ∧ (flit 1 0 0 false).auth = false ∧
     (∀ ty ∈ [0, 6, 255], (flit ty 0 0 true).ty.toNat = 0 ∨ 5 < (flit ty 0 0 true).ty.toNat) ∧ some (flit 1 0 0 true).dest = (sFab l).fabNum ∧
     payloadSeq (flit 2 0 0 true) = 7 ∧ l.retry = [] ++ { seq := 7, ks := false, payload := [] } :: [{ seq := 7, ks := false, payload := [] }] ∧
     (∀ u ∈ (linkAt 7 0 0).retry, u.seq ≠ 7) ∧ l.tx.ctr l.tx.cur + 2 ≤ 2 ^ 32 - 2 ^ 16) ∧
    (let s := { sFab linkUp with links := List.replicate 14 Link.fresh ++ [linkUp, linkUp] }
     (flit 1 0 14 true).dest < 16 ∧ (flit 1 0 14 true).dest ≠ 15 ∧ some (flit 1 0 14 true).dest ≠ s.fabNum ∧ (s.link 14).up = true ∧ (s.link 14).fails < 8 ∧
       LinkSettled (s.link 14) ∧ (s.link 14).retry.length < 1024) ∧
    (let l := linkAt 7 (2 ^ 32 - 2 ^ 16) 1023
     (sFab l).link 15 = l ∧ l.up = true ∧ 2 ^ 32 - 2 ^ 16 = l.tx.ctr l.tx.cur ∧ l.tx.ctr (!l.tx.cur) < 2 ^ 32 - 2 ^ 16 ∧ l.switchAt = none ∧
       l.fails + 1 = 8 ∧ l.ksOwed = false ∧ l.sendq = [] ∧ l.retry.length + 1 = 1024) ∧
    ((sFab (linkAt 8 0 0)).link 15 = linkAt 8 0 0 ∧ (linkAt 8 0 0).up = true ∧ 8 = (linkAt 8 0 0).fails) := by
  unfold LinkSettled
  decide +kernel

/-! ## The network: the sender -/

/-- A NET packet: 4,096 bytes from scratchpad on connection 4095, counted on the last barrier below the ring. -/
def netBytes (len : Nat) : List Byte :=
  toBytes 8 (0x18 + 2 ^ 9 + 32703 * 2 ^ 16 + len * 2 ^ 32) ++ toBytes 8 (523264 - len) ++ toBytes 8 0x20000 ++ toBytes 8 0x20100 ++ toBytes 4 0 ++
    toBytes 2 4095 ++ List.replicate 26 0
def netPkt (len : Nat) : Packet := { pkt0 with bytes := netBytes len }
def conn0 : Conn :=
  { id := 4095, ctx := 0, world := 1, realm := 5, port := 7, peerId := 1, peerAddr := 0, ring := 15, keyed := false, psn := 1, nxt := 1, rxPsn := 0,
    rxGot := 0, cwnd := 64, credit := 62, holdDec := none, silences := 0, lastAct := 0, rnrUntil := none, failed := false, ece := false, sends := [], wire := [] }
def sending (len acked : Nat) : Nwri := { pkt := netPkt len, core := 0, psn0 := 0, total := len, acked := acked, data := [] }
def sNet (k : Conn) (p : List Packet) : State :=
  { labOf (labGroup []) fetchTeam labCtx { labCore with net := p } with conns := [k], netUp := 0xFF, turn := none, cycle := 240000 }

theorem witness_NetworkMessages_packet :
    (let s := sNet conn0 [netPkt 4096]
     let p := netPkt 4096
     s.cores.length = 192 ∧ (s.core 0).net = p :: [] ∧ netBad s p = false ∧ s.conn? (nConn p.bytes) = some conn0 ∧ s.ctx? p.org.ctx = some labCtx ∧
     nSscr p.bytes = true ∧ s.packetTeam p = some fetchTeam ∧ nSrc p.bytes + nLen p.bytes = fetchTeam.ringStart ∧ p.stall = none ∧
     absent (s.core 0) (fetchTeam.base + nSrc p.bytes) (nLen p.bytes) = false ∧ conn0.failed = false ∧ conn0.sends = [] ∧ conn0.nxt = conn0.psn) ∧
    netBad (sNet conn0 [netPkt 0]) (netPkt 0) = true ∧ (sNet conn0 [netPkt 0]).packetTeam (netPkt 0) = some fetchTeam ∧
    TeamBar (sNet conn0 [netPkt 0]) 0 (netPkt 0) fetchTeam (16 * 32703) := by
  unfold TeamBar
  decide +kernel

/-- Two packets outstanding: the first is acknowledged, and the last; the window is one short of growing, or grows. -/
theorem witness_NetworkMessages_ack : ∀ x ∈ [(0, 62), (4096, 63)],
    let k := { conn0 with psn := 2, nxt := 2, sends := [sending 8192 x.1], credit := x.2 }
    let s := sNet k []
    s.conn? 4095 = some k ∧ k.failed = false ∧ s.netUp.getLsbD k.port = true ∧ k.sends = sending 8192 x.1 :: [] ∧ 1 ≤ k.inFlight ∧ k.holdDec = none ∧
    (k.credit + 1 < k.cwnd ↔ x.2 = 62) ∧
    (k.sends.find? (fun n => decide ((1 - n.psn0).toNat < packetsOf n.total))).isSome = true ∧
    TeamBar s (sending 8192 x.1).core (sending 8192 x.1).pkt fetchTeam (0 + 16 * 32703) := by
  intro x hx
  refine ⟨?_, ?_, ?_, ?_, ?_, ?_, ?_, ?_⟩ <;> try (revert x hx; decide +kernel)
  and_intros <;> revert x hx <;> decide +kernel

/-- A frame of the peer, and frames from another port, another address, or without the tag that a connection with keys needs. -/
def frame0 : NetSrc := { conn := 4095, port := 7, addr := 0, auth := true }
theorem witness_NetworkMessages_frames :
    (frame0.conn = conn0.id ∧ frame0.port = conn0.port ∧ frame0.addr = conn0.peerAddr ∧ frame0.auth = true) ∧
    { frame0 with port := 6 }.port ≠ conn0.port ∧ { frame0 with addr := 1 }.addr ≠ conn0.peerAddr ∧
    ({ conn0 with keyed := true }.keyed = true ∧ { frame0 with auth := false }.auth = false) := by
  decide +kernel

theorem witness_NetworkMessages_timers :
    (let k := { conn0 with rnrUntil := some 240000 }
     (sNet k []).conn? 4095 = some k ∧ k.failed = false ∧ 240000 ≤ (sNet k []).cycle.toNat) ∧
    (∀ n ∈ [5, 6], let k := { conn0 with sends := [sending 8192 0], silences := n }
      (sNet k []).conn? 4095 = some k ∧ k.failed = false ∧ k.sends ≠ [] ∧ k.rnrUntil = none ∧ k.lastAct + 240000 = (sNet k []).cycle.toNat) ∧
    ((sNet conn0 []).conns = [conn0] ∧ conn0.port + 1 = 8) := by
  decide +kernel

/-! ## The network: the target -/

def ring15 : RingReg := { desc := 0x38000, n := 4 }
/-- A packet whose 4,096 bytes end at the end of a page and are counted on a barrier in the page. -/
def dataPkt (psn world : Nat) : NetPkt :=
  { port := 7, addr := 0, dconn := 4095, psn := BitVec.ofNat 24 psn, realm := 5, world := BitVec.ofNat 4 world, imm := 0, tva := 0x2F000, tbar := 0x20000,
    mlen := 4096, data := 1 :: List.replicate 4095 0, ecn := false, auth := true }
def sTgt (ring : Bool) (w : Nat) : State :=
  withMem { sNet conn0 [] with ctxs := [{ labCtx with rings := if ring then [(15, ring15)] else [] }] } [(0x38000, toBytes 8 w)]
def tgtCtx (ring : Bool) : Context := { labCtx with rings := if ring then [(15, ring15)] else [] }

def at_ (pa : Nat) : Loc := { space := 0, pa := pa, nc := false }

/-- The ring is absent, has its last entry free, is full. -/
theorem witness_NetworkMessages_target : ∀ x ∈ [(false, 0), (true, 15), (true, 16)],
    let s := sTgt x.1 x.2
    let p := dataPkt 0 1
    (s.conn? p.dconn.toNat = some conn0 ∧ s.ctx? conn0.ctx = some (tgtCtx x.1) ∧ conn0.failed = false ∧ conn0.port = p.port ∧ conn0.peerAddr = p.addr ∧
    s.netUp.getLsbD p.port = true ∧ p.auth = true ∧ p.data.length = 4096 ∧ p.psn = conn0.rxPsn ∧ p.world.toNat = conn0.world ∧
    p.realm.toNat = conn0.realm ∧ s.log.length < 4096 ∧ s.eccBad = [] ∧ s.tagBad = []) ∧
    (∃ l, s.netCheck (tgtCtx x.1) p.tva.toNat p.data.length = .ok l ∧ l.space = 0 ∧ l.pa = 0x2F000) ∧ p.tva.toNat % 65536 + p.data.length = 65536 ∧
    (∃ l, s.netCheck (tgtCtx x.1) p.tbar.toNat 16 = .ok l ∧ l.space = 0 ∧ l.pa = 0x20000) ∧ p.tbar.toNat % 16 = 0 ∧
    (tgtCtx x.1).rings.find? (fun r => r.1 == conn0.ring) = (if x.1 then some (15, ring15) else none) ∧
    conn0.rxGot = 0 ∧ (s.ringSpace (tgtCtx x.1).world ring15).2 = decide (x.2 < 16) := by
  intro x hx
  refine ⟨?_, ⟨at_ 0x2F000, ?_, rfl, rfl⟩, ?_, ⟨at_ 0x20000, ?_, rfl, rfl⟩, ?_⟩ <;> revert x hx <;> decide +kernel

/-- Places of its bytes, its barrier, the ring's last entry and its index. -/
theorem witness_NetworkMessages_notify : let s := sTgt true 15
    let w := s.readNat 0 ring15.desc 8
    let entry := ring15.desc + 4096 + 8 * (w % 2 ^ ring15.n)
    let places := [(0x2F000, 4096), (0x20000, 16), (entry, 8), (ring15.desc, 8)]
    w = 15 ∧ walkerPass s.mem labCtx.world ring15.desc false = none ∧ walkerPass s.mem labCtx.world entry false = none ∧ isCarve ring15.desc = false ∧
    isCarve entry = false ∧ (∀ y ∈ places, y.1 % 65536 + y.2 ≤ 65536) ∧ places.Pairwise (fun y z => y.1 + y.2 ≤ z.1 ∨ z.1 + z.2 ≤ y.1) := by
  decide +kernel

/-- A packet ahead of the expected one, and one of another world. -/
theorem witness_NetworkMessages_refused : (dataPkt 1 1).psn ≠ conn0.rxPsn ∧ ((dataPkt 1 1).psn - conn0.rxPsn).toNat < 2 ^ 23 ∧
    (dataPkt 0 2).psn = conn0.rxPsn ∧ (dataPkt 0 2).world.toNat ≠ conn0.world ∧ (sTgt true 0).conn? (dataPkt 0 2).dconn.toNat = some conn0 := by
  decide +kernel

end Sys2Proof.Tests
end

