-- ==== Sys2Proof/Tests/WitnessScheduler.lean ====
section
/-! SUPPORT. Witnesses for the statements about the scheduler, pre-emption and the form of the data. -/

namespace Sys2Proof.Tests

open Sys2Proof Sys2Proof.Machine Sys2Proof.Bits

set_option Elab.async false

/-! ## Queues and placement -/

/-- A record whose entry is an address, of a grid of `x` teams. -/
def recAt (hi x : Nat) : List Byte :=
  toBytes 8 (codeAt 0x100) ++ toBytes 8 hi ++ toBytes 2 x ++ [1, 0, 1, 0, 3, 1, 1, 48] ++ List.replicate 38 0
def lrec (b : List Byte) : LaunchRec := { bytes := b, pc := 0, who := none, peer := 0xF0 }

/-- Queue 63 of context 0 with that head, accepted or not, at a cycle; core 0 may take teams of world 1, or not. -/
def sQueue (b : List Byte) (acc : Option (Nat × BitVec 64)) (cyc : Nat) (on : Bool) (c : Context) (ts : List Team) : State :=
  let s := labOf (labGroup []) fetchTeam c { Core.fresh with world := some 1, enabled := on }
  { s with turn := none, teams := ts, groups := [], cycle := BitVec.ofNat 64 cyc, nextTid := 1,
           queues := List.replicate 63 LaunchQueue.fresh ++ [{ LaunchQueue.fresh with ctx := some c.num, recs := [lrec b], accepted := acc }] }
def sAge (cyc : Nat) : State := sQueue (recAt 0 1) none cyc true labCtx []

theorem witness_SchedulingSteps_aging :
    (∀ x ∈ [(2399999, 0), (2400000, 1), (7200000, 3)], let s := sAge x.1
      s.queues.length = 64 ∧ s.cores.length = 192 ∧ (s.lqueue 62).recs = [] ∧ (s.lqueue 63).recs = lrec (recAt 0 1) :: [] ∧
      (s.lqueue 63).ctx = some 0 ∧ s.ctx? 0 = some labCtx ∧ (s.cycle.toNat - (s.lqueue 63).since) / 2400000 = x.2) ∧
    recPrio (recAt 0 1) = 3 ∧ labCtx.stage = .none := by
  decide +kernel

/-- What the entry name of the head resolves to. -/
def swz (hi : Nat) : State × Except (BitVec 8) (BitVec 64) :=
  let a := (sQueue (recAt hi 1) none 0 true labCtx []).ageAll
  State.swizzle { a with gridSeq := (a.gridSeq + 1) % 2 ^ 24 } 0 (pk (recAt hi 1) 0 16)

theorem witness_SchedulingSteps_accept :
    (∀ hi ∈ [0, 1], let a := (sQueue (recAt hi 1) none 0 true labCtx []).ageAll
      a.chooseQueue = some 63 ∧ a.chooseQueue ≠ some 62 ∧ (a.lqueue 63).accepted = none ∧ (a.lqueue 63).recs = lrec (recAt hi 1) :: [] ∧
      (a.lqueue 63).ctx = some 0) ∧
    (swz 0).2 = .ok (BitVec.ofNat 64 (codeAt 0x100)) ∧ (swz 0).1.ctx? 0 = some labCtx ∧ inWindow (codeAt 0x100) = true ∧
    (swz 0).1.rangeOf labCtx (codeAt 0x100) = .ok (some (rot 0 1 (codeAt 0) 0x100000)) ∧ (rot 0 1 (codeAt 0) 0x100000).kind = 1 ∧
    (swz 1).2 = .error cNameUnresolved := by
  refine ⟨?_, ?_, ?_, ?_, ?_, ?_, ?_⟩ <;> decide +kernel

/-- Context 1's slice of one microsecond has just run out while context 0's record cannot be placed. -/
def sliced : Context := { labCtx with num := 1, asid := 2, slice := 2400, resumed := 0 }
def sSlice (cyc : Nat) (ts : List Team) : State :=
  let s := sQueue (recAt 0 1) none cyc false labCtx ts
  { s with ctxs := [labCtx, sliced] }
theorem witness_SchedulingSteps_slice : ∀ x ∈ [(2400, 1), (2400, 2), (2399, 1)],
    let s := sSlice x.1 [{ fetchTeam with ctx := x.2 }]
    s.queues.length = 64 ∧ s.ctx? 1 = some sliced ∧ sliced.stage = .none ∧ sliced.slice ≠ 0 ∧
    decide (sliced.resumed + sliced.slice ≤ s.cycle.toNat) = decide (x.1 = 2400) ∧ s.queues[63]? = some (s.lqueue 63) ∧ (s.lqueue 63).ctx = some 0 ∧
    0 ≠ sliced.num ∧ (s.lqueue 63).recs ≠ [] ∧ s.ctx? 0 = some labCtx ∧ labCtx.world = sliced.world ∧ s.headFits (s.lqueue 63) = false ∧
    (s.teams.any fun t => t.ctx == 1) = decide (x.2 = 1) := by
  decide +kernel

/-- A grid of one team, and one of two. -/
theorem witness_SchedulingSteps_place : ∀ n ∈ [1, 2],
    let s := sQueue (recAt 0 n) (some (7, BitVec.ofNat 64 (codeAt 0x100))) 0 true labCtx []
    let a := s.ageAll
    s.queues.length = 64 ∧ s.cores.length = 192 ∧ (∀ c ∈ s.ctxs, c.savedTeams = []) ∧ a.chooseQueue = some 63 ∧
    (a.lqueue 63).recs = lrec (recAt 0 n) :: [] ∧ (a.lqueue 63).ctx = some 0 ∧ s.ctx? 0 = some labCtx ∧
    (a.lqueue 63).accepted = some (7, BitVec.ofNat 64 (codeAt 0x100)) ∧
    a.findCore labCtx.world (recScr (recAt 0 n)) ((recGroups (recAt 0 n)).map (·.2)) = some (0, 0) ∧
    (recTeams (recAt 0 n) ≤ (a.lqueue 63).nextTeam + 1 ↔ n = 1) := by
  intro n hn
  refine ⟨?_, ?_, ?_, ?_, ?_, ?_, ?_, ?_, ?_, ?_⟩ <;> revert n hn <;> decide +kernel

def savedTeam : Team := { fetchTeam with record := recAt 0 1, groups := [], savedGrp := [(0, 48, 0, [])] }
def sSaved : State :=
  let s := sQueue (recAt 0 1) none 0 true { labCtx with savedTeams := [(3, savedTeam)] } []
  { s with queues := List.replicate 64 LaunchQueue.fresh }
/-- A queue of the context is PINNED, and no core can take its head. -/
def sPinned : State :=
  let s := sQueue (recAt 0 1) none 9600000 false { labCtx with savedTeams := [(3, savedTeam)] } []
  { s with queues := (s.queues.take 63) ++ [{ (s.lqueue 63) with pinned := true }] }
theorem witness_SchedulingSteps_pinned :
    sPinned.queues.length = 64 ∧ sPinned.ctxs = [{ labCtx with savedTeams := [(3, savedTeam)] }] ∧ sPinned.ageAll.chooseQueue = none ∧
    sPinned.ageAll.anyPinned = true ∧ sSaved.ageAll.anyPinned = false := by
  decide +kernel

theorem witness_SchedulingSteps_restore :
    sSaved.queues.length = 64 ∧ sSaved.cores.length = 192 ∧ sSaved.ctxs = [{ labCtx with savedTeams := [(3, savedTeam)] }] ∧
    sSaved.ageAll.chooseQueue = none ∧ labCtx.stage = .none ∧
    (let c := { labCtx with savedTeams := [(3, savedTeam)] }
     sSaved.ageAll.findCore c.world (sSaved.ageAll.savedScr c 3 savedTeam) (sSaved.ageAll.savedBlocks c 3 savedTeam) = some (0, 0)) := by
  decide +kernel

/-! ## Probes -/

def parkedAt (w : Wait) : Group :=
  { labGroup [] with j := [(7, 1)], lanes := List.replicate 32 { Lane.fresh with pc := fetchPc, st := .parked w } }
def probe0 (hops : Nat) : Probe :=
  { origin := some (0, 0xFFFFFFFF), ident := 0, since := 0, world := 1, hops := hops, at_ := [(0, 1)], far := [] }
def sProbe (w : Wait) (cyc hops : Nat) : State := { labG (parkedAt w) with turn := none, cycle := BitVec.ofNat 64 cyc, probes := [probe0 hops] }

theorem witness_SchedulingSteps_probe :
    (∀ cyc ∈ [2 ^ 20 - 1, 2 ^ 20], let s := sProbe (.rejoin 7) cyc 1
      s.queues.length = 64 ∧ s.cores.length = 192 ∧ s.group? (slotKey 0 0 0) = some (parkedAt (.rejoin 7)) ∧ (parkedAt (.rejoin 7)).halted = false ∧
      s.edge (slotKey 0 0 0) (parkedAt (.rejoin 7)) 31 = some [(0, 1)] ∧ s.cycle.toNat - ((parkedAt (.rejoin 7)).lane 31).since = cyc ∧
      (s.team? (parkedAt (.rejoin 7)).team).isSome = true ∧ ((parkedAt (.rejoin 7)).lane 31).st = .parked (.rejoin 7)) ∧
    (∀ hops ∈ [64, 65], let s := sProbe (.rejoin 7) (2 ^ 20) hops
      s.probes[0]? = some (probe0 hops) ∧ s.group? 0 = some (parkedAt (.rejoin 7)) ∧ s.team? (parkedAt (.rejoin 7)).team = some fetchTeam ∧
      identWord s (parkedAt (.rejoin 7)).gid = (probe0 hops).ident ∧ (probe0 hops).at_ = [(slotKey 0 0 0, 1)] ∧
      (probe0 hops).origin = some (slotKey 0 0 0, 0xFFFFFFFF) ∧ (1 : LaneSet) &&& 0xFFFFFFFF ≠ 0 ∧ inSet (0xFFFFFFFF : LaneSet) 0 = true ∧
      ∀ l, l < 32 → ((parkedAt (.rejoin 7)).lane l).st.isParked = true ∧ ((parkedAt (.rejoin 7)).lane l).since = (probe0 hops).since ∧
        ((parkedAt (.rejoin 7)).lane l).pc = ((parkedAt (.rejoin 7)).lane 0).pc ∧ ((parkedAt (.rejoin 7)).lane l).st ≠ .parked .conv) ∧
    identWord (sProbe (.rejoin 7) 0 1) (parkedAt (.rejoin 7)).gid ≠ { probe0 1 with ident := 1 }.ident ∧
    (sProbe (.rejoin 7) 0 1).group? 99 = none := by
  refine ⟨?_, ?_, ?_, ?_⟩ <;> decide +kernel

/-! ## Pre-emption -/

/-- Context 0 at a stage whose deadline has just passed, or is a cycle away, with one team of one group. -/
def preCtx (st : PreStage) : Context := { labCtx with stage := st, saveN := 1, saveBase := 0x20000, saveSz := 4096, deadline := 100, t2 := 240000 }
def sPre (st : PreStage) (h cyc : Nat) (t : Team) : State :=
  { labOf { labGroup [] with trapv := BitVec.ofNat 64 h } t (preCtx st) labCore with turn := none, cycle := BitVec.ofNat 64 cyc }
theorem witness_PreemptionSteps_stages : ∀ st ∈ [PreStage.drain, .save], ∀ h ∈ [0, 4], ∀ cyc ∈ [99, 100],
    let s := sPre st h cyc fetchTeam
    s.ctx? 0 = some (preCtx st) ∧ (preCtx st).stopped = none ∧ (preCtx st).recs = [] ∧ (preCtx st).saveN = 1 ∧
    decide ((preCtx st).deadline ≤ s.cycle.toNat) = decide (cyc = 100) ∧
    s.teams.filter (fun x => x.ctx == 0 && x.groups != []) = [fetchTeam] ∧ (s.teamGroups fetchTeam).length = 1 ∧
    (s.teamGroups fetchTeam).all (fun p => p.2.trapv == BitVec.ofNat 64 h) = true := by
  decide +kernel

/-- Two teams of a context with records 1 to 3 of four free, or, with the first record alone in its area, none. -/
def twoTeams : List Team := [fetchTeam, { fetchTeam with tid := 1, core := 1, groups := [(0, slotKey 1 0 0)] }]
def sTwoTeams (n : Nat) : State :=
  let s := sPre .drain 4 100 fetchTeam
  { s with groups := s.groups ++ [(slotKey 1 0 0, { labGroup [] with team := 1, trapv := 4 })], teams := twoTeams,
           ctxs := [{ preCtx .drain with saveN := n, recs := [(0, false)] }] }
theorem witness_PreemptionSteps_records :
    (∀ n ∈ [1, 4], let s := sTwoTeams n
      let c := { preCtx .drain with saveN := n, recs := [(0, false)] }
      s.ctx? 0 = some c ∧ c.stopped = none ∧ c.deadline ≤ s.cycle.toNat ∧ c.stage = .drain ∧
      s.teams.filter (fun x => x.ctx == 0 && (s.teamGroups x).any fun p => !p.2.allExited) = twoTeams ∧ s.usedRecs c = [(0, false)] ∧
      (∀ tm ∈ twoTeams, ∀ p ∈ s.teamGroups tm, p.2.trapv ≠ 0)) ∧
    ([1, 2].length = twoTeams.length ∧ [1, 2].Pairwise (· < ·) ∧ (∀ k ∈ [1, 2], k < 4 ∧ k ≠ 0) ∧ (∀ k, k < 4 → k ≠ 0 → k ∉ [1, 2] → ∀ j ∈ [1, 2], j < k) ∧
      (twoTeams.map Team.tid).Nodup) := by
  decide +kernel

/-- A team that holds save record 0, at the last address of the page that its header fits, or out of the lab's map; with engine work. -/
def saving : Team := { fetchTeam with saveRec := some 0, record := recAt 0 1 }
def saveCtx (ok : Bool) : Context := { preCtx .save with saveBase := if ok then 0x2FF00 else 0x7FF4000000 }
def sSaving (ok : Bool) (t : Team) : State := { labOf (labGroup []) t (saveCtx ok) labCore with turn := none }
theorem witness_PreemptionSteps_request :
    (∀ ok ∈ [true, false], let s := sSaving ok saving
      s.team? 0 = some saving ∧ s.ctx? saving.ctx = some (saveCtx ok) ∧ (saveCtx ok).stage = .save ∧ saving.saveSent = false ∧
      s.engineBusy saving = false ∧ s.saveQueries saving = false ∧
      (s.checkedWrite (saveCtx ok) ((saveCtx ok).saveBase + 0 * (saveCtx ok).saveSz) (s.saveHeader saving)).isSome = ok) ∧
    (saving.record.length = 64 ∧ inPage 0x2FF00 256 = 256 ∧
      (sSaving true saving).resolve (saveCtx true) true .write 0x2FF00 256 = .ok { space := 0, pa := 0x2FF00, nc := false } ∧
      isCarve 0x2FF00 = false) ∧
    (sSaving true { saving with ring := List.replicate 7 .free ++ [subm] }).engineBusy { saving with ring := List.replicate 7 .free ++ [subm] } = true := by
  refine ⟨?_, ?_, ?_⟩ <;> decide +kernel

def wasSaved : Team := { saving with groups := [], savedGrp := [(0, 48, 0, [])] }
theorem witness_PreemptionSteps_saved :
    (let s := sSaving true wasSaved
     s.team? 0 = some wasSaved ∧ s.ctx? wasSaved.ctx = some (saveCtx true) ∧ wasSaved.groups = [] ∧ wasSaved.savedGrp ≠ [] ∧
     s.teamBusy wasSaved = false ∧ ∀ x ∈ s.teams, x.tid ≠ 0 → x.ctx ≠ wasSaved.ctx) ∧
    (sSaving true { wasSaved with ring := List.replicate 7 .free ++ [subm] }).teamBusy { wasSaved with ring := List.replicate 7 .free ++ [subm] } =
      true := by
  decide +kernel

/-- A team that has ended beside another of its context, with and without a JOIN counter at 0x20008. -/
def ended (join : Nat) : Team := { fetchTeam with groups := [], record := List.replicate 32 0 ++ toBytes 8 join ++ List.replicate 24 0 }
def sEnd (join : Nat) : State :=
  { labT [] (ended join) with turn := none, teams := [ended join, { fetchTeam with tid := 1, core := 1 }] }
theorem witness_PreemptionSteps_end :
    (∀ join ∈ [0, 0x20008], let s := sEnd join
      s.team? 0 = some (ended join) ∧ s.ctx? (ended join).ctx = some labCtx ∧ (ended join).groups = [] ∧ (ended join).savedGrp = [] ∧
      s.teamBusy (ended join) = false ∧ recJoin (ended join).record = join ∧ join % 8 = 0 ∧ s.teams.length = 2 ∧
      (s.teams[1]?.map fun t => (t.tid, t.ctx)) = some (1, 0)) ∧
    ((sEnd 0x20008).resolve labCtx labCtx.priv .atomic 0x20008 8 = .ok { space := 0, pa := 0x20008, nc := false } ∧ isCarve 0x20008 = false ∧
      (sEnd 0x20008).eccBad = [] ∧ (sEnd 0x20008).tagBad = [] ∧
      (sEnd 0x20008).reach ((sEnd 0x20008).teamWorld (ended 0x20008)) labCtx.priv .atomic { space := 0, pa := 0x20008, nc := false } 8 = .ok) := by
  refine ⟨?_, ?_⟩ <;> decide +kernel

/-- A fault queue of 64 entries at 0x38000 with one entry free, or full. -/
def post0 : Posting :=
  { world := 1, ctx := 0, va := 0x20000, priv := false, port := 0, slot := 0, core := 0, access := 0, cause := cPageNotPresent, gid := 0, lanes := 1,
    svc := false, tpc := 0, wait := none }
def sPost (w : Nat) : State :=
  { withMem s0 [(0x38000, toBytes 8 w)] with
    turn := none, posts := [post0], posted := [],
    worlds := [World.fresh, { World.fresh1 with faultq := some { desc := 0x38000, n := 6 } }] ++ List.replicate 14 World.fresh }
theorem witness_PreemptionSteps_post : ∀ w ∈ [63, 64], let s := sPost w
    s.posts = [post0] ∧ post0.svc = false ∧ (s.world post0.world).faultq = some { desc := 0x38000, n := 6 } ∧ s.posted = [] ∧ 0x38000 % 4096 = 0 ∧
    s.readNat spLocal 0x38000 8 = w ∧ s.readNat spLocal (0x38000 + 128) 8 = 0 ∧ s.eccBad = [] ∧ s.tagBad = [] := by
  decide +kernel

theorem witness_PreemptionSteps_post_pages (w : Nat) (hw : w = 63 ∨ w = 64) : ∀ a, 0x38000 ≤ a → a < 0x38000 + 4096 + 32 * 2 ^ 6 →
    isCarve a = false ∧ walkerPass (sPost w).mem 1 a false = none := by
  intro a h1 h2
  have hc : isCarve a = false := by
    unfold isCarve
    rw [decide_eq_false (Nat.not_le.2 (Nat.lt_trans h2 (by decide)))]
    rfl
  have hm : isMemPa a = true := by
    unfold isMemPa
    rw [decide_eq_true (Nat.lt_trans h2 (by decide))]
    rfl
  have hi : potIndex a = 3 := by
    unfold potIndex; simp only [Config.hbmEnd]; split <;> omega
  refine ⟨hc, ?_⟩
  unfold walkerPass potEntry
  rw [hc, hm, hi]
  rcases hw with rfl | rfl <;> decide +kernel

/-! ## The form -/

theorem wellShaped_reset : WellShaped State.reset := by
  have core : ∀ c ∈ State.reset.cores, c.ports.length = 4 := fun c hc => by rw [List.eq_of_mem_replicate hc]; rfl
  constructor
  case cores => exact ⟨by decide +kernel, core⟩
  all_goals decide +kernel

theorem witness_StepKeepsForm : WellShaped State.reset ∧
    (match step State.reset with | .next _ => true | _ => false) = true :=
  ⟨wellShaped_reset, by decide +kernel⟩

end Sys2Proof.Tests
end

/-! ## Whole vector registers (03_names_and_swizzling.md R67, R68; 06_registers_and_scratchpad.md R154, R156)

GTOV, VLDI, PADD and PSUB write one value per lane through `vecPlain`, raise no flag and count nothing. Their completion is that of
`vec_done` for a vector result that counts no operation. -/
section

namespace Sys2Proof.Machine

open Sys2Proof.Bits

/-- Putting back what stands at a place, in range or not, changes nothing. -/
theorem set_getD_self {α : Type} (l : List α) (n : Nat) (x : α) : l.set n (l.getD n x) = l := by
  rw [List.getD_eq_getElem?_getD]
  cases e : l[n]? with
  | some y =>
    obtain ⟨h, rfl⟩ := List.getElem?_eq_some_iff.mp e
    exact List.set_getElem_self h
  | none => exact List.set_eq_of_length_le (List.getElem?_eq_none_iff.mp e)

theorem State.setWorld_world (s : State) (w : Nat) : s.setWorld w (s.world w) = s := by
  unfold State.setWorld State.world
  rw [set_getD_self]

/-- A meter that nothing is added to leaves the state as it is. -/
theorem State.meter_zero (s : State) (w j : Nat) : s.meter w j 0 = s := by
  have meters (l : List (BitVec 64)) : l.set j (l.getD j 0 + BitVec.ofNat 64 0) = l := by
    rw [BitVec.ofNat_eq_ofNat, BitVec.add_zero, set_getD_self]
  simp only [State.meter, meters]
  exact s.setWorld_world w

/-- A vector instruction that the meters do not name is one that counts no operation. -/
theorem onGroup_vecPlain (d guard : Nat) (nw : Bool) (f : Iss → LaneSet → List (BitVec 64) × Flags) :
    onGroup (vecPlain d guard nw f) = vecResult d guard nw 0 f := by
  funext i s
  have count : s.countOps i (i.act guard) 0 = s := s.meter_zero _ _
  simp only [onGroup, vecPlain, vecResult, count]

theorem getD_lanes32_map (x : Nat → BitVec 64) {l : Nat} (h : l < 32) : (lanes32.map x).getD l 0 = x l := by
  simp [lanes32, List.getD_eq_getElem?_getD, h]

/-- An instruction that writes `x` into each lane of its destination, raising no flag, completes with it there. -/
theorem lanewise_done {s : State} {i : Iss} {h : Head} {operands : Iss → Bool} {d guard : Nat} {nw : Bool}
    (x : Iss → Nat → BitVec 64) (hi : s.iss? = some i) (hc : firstCause i h (operands i) = none)
    (live : ∃ l, l < 32 ∧ (i.g.lane l).st ≠ .exited) :
    ∃ t g, issue s h operands (onGroup (vecPlain d guard nw fun i _ => (lanes32.map (x i), 0))) = .next t ∧
      VecDone s t i h.len g d guard nw ∧ g.fflags = i.g.fflags ∧
      ∀ l, inSet (written i guard nw) l = true → g.vget d l = x i l := by
  rw [onGroup_vecPlain]
  obtain ⟨t, g, next, done, val, flags⟩ := vec_done (operands := operands) (d := d) (guard := guard) (n := 0) (nw := nw)
    (f := fun i _ => (lanes32.map (x i), 0)) hi hc live
  refine ⟨t, g, next, done, by simpa using flags, fun l hl => ?_⟩
  rw [val l hl, getD_lanes32_map (x i) (inSet_lt hl)]

end Sys2Proof.Machine

namespace Sys2Proof

open Sys2Proof.Machine Sys2Proof.Bits

/-- The checks of PADD and PSUB pass (R67, R68). -/
theorem pointerSum_checks {s : State} {i : Iss} {f : FmtW} (h : Issues s i .none (srcsM f.m 2))
    (hd : dvOk f.m.d.toNat i.g.budget = true) :
    firstCause i (headW f true false (srcsM f.m 2)) (dvOk f.m.d.toNat i.g.budget && srcsOk i (srcsM f.m 2)) = none :=
  issues_check h rfl (Bool.and_false _) rfl rfl rfl rfl (by rw [hd, issues_srcsOk h]; rfl)

/-- Settles O19: each instruction passes its checks and writes its value lane by lane. -/
theorem wholeRegisterWrites : Obligations.WholeRegisterWrites := by
  unfold Obligations.WholeRegisterWrites
  intro s i
  refine ⟨?gtov, ?vldi, fun f hd h => ⟨?padd, ?psub⟩⟩
  case gtov =>
    intro f hd ha h
    have checks : firstCause i (headM f true false .none []) (dvOk f.d.toNat i.g.budget && (src10 f.a).uniform) = none :=
      issues_check h rfl (Bool.and_false _) rfl rfl rfl rfl (by rw [hd, ha]; rfl)
    exact lanewise_done (operands := fun i => dvOk f.d.toNat i.g.budget && (src10 f.a).uniform)
      (fun i _ => i.uni (src10 f.a)) h.iss checks h.live
  case vldi =>
    intro f hd h
    have checks : firstCause i (headWL f true) (dvOk f.w.m.d.toNat i.g.budget) = none :=
      issues_check h rfl (Bool.and_false _) rfl rfl rfl rfl hd
    exact lanewise_done (operands := fun i => dvOk f.w.m.d.toNat i.g.budget) (fun _ _ => f.lit) h.iss checks h.live
  case padd =>
    exact lanewise_done (operands := fun i => dvOk f.m.d.toNat i.g.budget && srcsOk i (srcsM f.m 2))
      (fun i l => i.read (src10 f.m.a) l 15 + i.read (src10 f.m.b) l 15 + wOff f) h.iss (pointerSum_checks h hd) h.live
  case psub =>
    exact lanewise_done (operands := fun i => dvOk f.m.d.toNat i.g.budget && srcsOk i (srcsM f.m 2))
      (fun i l => i.read (src10 f.m.a) l 15 - i.read (src10 f.m.b) l 15) h.iss (pointerSum_checks h hd) h.live

end Sys2Proof

end

/-! ## Moves within lanes and float selections (08_vector_unit.md R183, R187, R190 to R194)

Each instruction here but VSHF is element by element: `arith_raises` says what it writes and raises, and what is left is what its
element operation gives. -/
section

namespace Sys2Proof

open Sys2Proof.Machine Sys2Proof.Bits

/-! ### Sub-elements -/

theorem sube_lt (w k : Nat) (x : BitVec 64) : sube w k x < 2 ^ w := Nat.mod_lt _ (by positivity)

theorem srcElem_lt (i : Iss) (srcs : List Src) (ty n l k : Nat) : srcElem i srcs ty n l k < 2 ^ tyW ty := sube_lt _ _ _

theorem tyW_pos (ty : Nat) : 0 < tyW ty := by
  unfold tyW
  split <;> decide

/-- A bit of a register is a bit of the sub-element that holds it. -/
theorem getLsbD_eq_testBit_sube {w : Nat} (h : 0 < w) (x : BitVec 64) (n : Nat) :
    x.getLsbD n = (sube w (n / w) x).testBit (n % w) := by
  simp only [sube, fld, Nat.testBit_mod_two_pow, Nat.testBit_shiftRight, Nat.mod_lt n h, decide_true, Bool.true_and,
    Nat.div_add_mod, BitVec.testBit_toNat]

/-- A register is known by its sub-elements under any type. -/
theorem eq_of_sube_eq {ty : Nat} {x y : BitVec 64} (h : ∀ k, k < tyP ty → sube (tyW ty) k x = sube (tyW ty) k y) : x = y := by
  refine BitVec.eq_of_getLsbD_eq fun n hn => ?_
  have hk : n / tyW ty < tyP ty := Nat.div_lt_of_lt_mul (by rwa [tyW_mul_tyP])
  rw [getLsbD_eq_testBit_sube (tyW_pos ty), getLsbD_eq_testBit_sube (tyW_pos ty), h _ hk]

/-! ### Types and immediates -/

theorem immFit_of_immOk {ty : Nat} (h : immOk ty = true) (srcs : List Src) : ImmFit ty srcs := fun _ _ _ => h

theorem tySrcsOk_of_immOk {s : State} {i : Iss} {k : PfxClass} {l : List TySrc} (h : Issues s i k (l.map Prod.fst))
    (fit : ∀ x ∈ l, immOk x.2 = true) : tySrcsOk i l = true := by
  rw [tySrcsOk, List.all_eq_true]
  intro x hx
  rw [(h.src _ (List.mem_map_of_mem hx)).1, fit x hx, Bool.or_true, Bool.and_self]

theorem immOk_of_tyInt {ty : Nat} (h : tyInt ty = true) : immOk ty = true := by
  simp only [tyInt, decide_eq_true_eq] at h
  simp only [immOk, Bool.not_eq_true', Bool.or_eq_false_iff, beq_eq_false_iff_ne]
  omega

theorem tyF4_iff {ty : Nat} : tyF4 ty = true ↔ ty = 8 ∨ ty = 9 ∨ ty = 10 ∨ ty = 11 := by
  simp only [tyF4, Bool.and_eq_true, decide_eq_true_eq]
  omega

/-- What the encodings of the types 8 to 11 have in common (Table 7.1): the canonical NaN and the infinities of either sign fit the
width, there are infinities, class numbers fit, and the integer type of the width has that width. -/
theorem tyF4_facts {ty : Nat} (h : tyF4 ty = true) :
    immOk ty = true ∧ immOk (intTy ty) = true ∧ tyW (intTy ty) = tyW ty ∧ ty ≠ 12 ∧ fnan ty < 2 ^ tyW ty ∧
      fsign ty + finf ty < 2 ^ tyW ty ∧ 9 < 2 ^ tyW ty := by
  rcases tyF4_iff.mp h with rfl | rfl | rfl | rfl <;> decide

/-! ### Flags -/

/-- An instruction whose elements leave a flag out leaves that flag as it was. -/
theorem FlagsRaised.getLsbD_eq {g g' : Group} {md : Modes} {m : LaneSet} {p : Nat} {fl : Nat → Nat → Flags}
    (h : FlagsRaised g g' md m p fl) {n : Nat} (hn : ∀ l k, (fl l k).getLsbD n = false) :
    g'.fflags.getLsbD n = g.fflags.getLsbD n := by
  rw [Bool.eq_iff_iff, h n]
  simp [hn]

/-- An instruction whose elements raise nothing leaves FFLAGS as it was. -/
theorem FlagsRaised.fflags_eq {g g' : Group} {md : Modes} {m : LaneSet} {p : Nat} {fl : Nat → Nat → Flags}
    (h : FlagsRaised g g' md m p fl) (h0 : ∀ l k, fl l k = 0) : g'.fflags = g.fflags :=
  BitVec.eq_of_getLsbD_eq fun n _ => h.getLsbD_eq fun l k => by rw [h0]; exact BitVec.getLsbD_zero

theorem FlagsRaised.congr {g g' : Group} {md : Modes} {m : LaneSet} {p : Nat} {fl fl' : Nat → Nat → Flags}
    (h : FlagsRaised g g' md m p fl) (e : ∀ l k, fl l k = fl' l k) : FlagsRaised g g' md m p fl' :=
  (funext₂ e : fl = fl') ▸ h

theorem snanFlag_getLsbD_zero {x y : FVal} (h : x.isSnan = true ∨ y.isSnan = true) : (snanFlag [x, y]).getLsbD 0 = true := by
  have raised : ([x, y].any FVal.isSnan) = true := by simpa using h
  rw [snanFlag, if_pos raised]
  rfl

theorem snanFlag_getLsbD_ne {n : Nat} (h : n ≠ 0) (l : List FVal) : (snanFlag l).getLsbD n = false := by
  unfold snanFlag
  split
  · simp [fNV, h]
  · simp

/-! ### Element-by-element instructions -/

/-- What an element operation gives and raises at sub-element `k` of lane `l` (R166, R180). -/
def opAt (i : Iss) (srcs : List TySrc) (ty : Nat) (op : EltOp) (l k : Nat) : Nat × Flags :=
  op i.modes ty (l + 32 * k) (elt i srcs 0 l k) (elt i srcs 1 l k) (elt i srcs 2 l k)

/-- The sources of one type, by their sub-elements. -/
theorem opAt_map (i : Iss) (srcs : List Src) (ty : Nat) (op : EltOp) (l k : Nat) :
    opAt i (srcs.map fun x => (x, ty)) ty op l k =
      op i.modes ty (l + 32 * k) (srcElem i srcs ty 0 l k) (srcElem i srcs ty 1 l k) (srcElem i srcs ty 2 l k) := by
  simp only [opAt, elt_map]

/-- `arith_done` with FFLAGS by its flags (R169). -/
theorem arith_raises {s : State} {i : Iss} {h : Head} {d guard ty : Nat} {nw fma : Bool} {l : List TySrc} {op : EltOp}
    (hi : s.iss? = some i) (hc : firstCause i h (dvOk d i.g.budget && tySrcsOk i l) = none)
    (live : ∃ l, l < 32 ∧ (i.g.lane l).st ≠ .exited) :
    ∃ t g, arith s h d guard ty nw fma l op = .next t ∧ VecDone s t i h.len g d guard nw ∧
      (∀ lane k, inSet (written i guard nw) lane = true → k < tyP ty →
        sube (tyW ty) k (g.vget d lane) = (opAt i l ty op lane k).1 % 2 ^ tyW ty) ∧
      FlagsRaised i.g g i.modes (i.act guard) (tyP ty) fun lane k => (opAt i l ty op lane k).2 := by
  obtain ⟨t, g, next, done, val, flags⟩ := arith_done (nw := nw) (fma := fma) (guard := guard) hi hc live
  refine ⟨t, g, next, done, val, fun n => ?_⟩
  rw [flags]
  cases i.modes.nf
  · rw [if_neg Bool.false_ne_true, BitVec.getLsbD_or, Bool.or_eq_true, eltwise_snd]
    simp only [opAt, true_and]
  · simp

/-- A VFLT minor completes under a type that it accepts (R188). -/
theorem vflt_raises {s : State} {i : Iss} {f : FmtM} {small : Bool} (fma : Bool) {n : Nat} (op : EltOp)
    (h : Issues s i .float (srcsM f n)) (hd : dvOk f.d.toNat i.g.budget = true)
    (accepts : (tyF4 f.ty.toNat || (small && tyFloat f.ty.toNat)) = true) (fit : ImmFit f.ty.toNat (srcsM f n)) :
    ∃ t g, vflt s f small fma n op = .next t ∧ VecDone s t i 2 g f.d.toNat f.g.toNat f.nw ∧
      (∀ l k, inSet (written i f.g.toNat f.nw) l = true → k < tyP f.ty.toNat → sube (tyW f.ty.toNat) k (g.vget f.d.toNat l) =
        (opAt i ((srcsM f n).map fun x => (x, f.ty.toNat)) f.ty.toNat op l k).1 % 2 ^ tyW f.ty.toNat) ∧
      FlagsRaised i.g g i.modes (i.act f.g.toNat) (tyP f.ty.toNat) fun l k =>
        (opAt i ((srcsM f n).map fun x => (x, f.ty.toNat)) f.ty.toNat op l k).2 :=
  arith_raises h.iss
    (issues_check h (by simp only [headM, accepts, Bool.not_true]) (Bool.and_false _) rfl rfl rfl rfl
      (by rw [hd, Bool.true_and]; exact issues_tySrcsOk h fit))
    h.live

/-! ### VSHF (R187) -/

/-- The sub-element of A or C, or the zero, that sub-element `k` of B names in lane `l`. -/
def vshfElem (i : Iss) (f : FmtM) (l k : Nat) : Nat :=
  let ty := f.ty.toNat
  let j := srcElem i (srcsM f 3) ty 1 l k
  if j < tyP ty then srcElem i (srcsM f 3) ty 0 l j
  else if j < 2 * tyP ty then srcElem i (srcsM f 3) ty 2 l (j - tyP ty) else 0

/-- VSHF's results in the lanes of `m` (0 elsewhere). -/
def vshfLanes (f : FmtM) (i : Iss) (m : LaneSet) : List (BitVec 64) × Flags :=
  (lanes32.map fun l => if inSet m l then pack (tyW f.ty.toNat) ((List.range (tyP f.ty.toNat)).map (vshfElem i f l)) else 0, 0)

/-- VSHF, with its result by `vshfElem`. -/
theorem execVshf_eq (f : FmtM) (s : State) : execVshf f s =
    issue s (headM f true (!tyInt f.ty.toNat) (vintPfx false f.ty.toNat) (srcsM f 3))
      (fun i => dvOk f.d.toNat i.g.budget && tySrcsOk i ((srcsM f 3).map fun x => (x, f.ty.toNat)))
      (vecResult f.d.toNat f.g.toNat f.nw (tyP f.ty.toNat) (vshfLanes f)) := by
  have elems (i : Iss) (n l k : Nat) : elt i [(src10 f.a, f.ty.toNat), (src10 f.b, f.ty.toNat), (src10 f.c, f.ty.toNat)] n l k =
      srcElem i (srcsM f 3) f.ty.toNat n l k := elt_map i (srcsM f 3) f.ty.toNat n l k
  simp only [execVshf, elems]
  rfl

theorem vshfElem_lt (i : Iss) (f : FmtM) (l k : Nat) : vshfElem i f l k < 2 ^ tyW f.ty.toNat := by
  unfold vshfElem
  dsimp only
  split_ifs
  · exact srcElem_lt _ _ _ _ _ _
  · exact srcElem_lt _ _ _ _ _ _
  · positivity

/-- What VSHF leaves in a sub-element of an active lane. -/
theorem sube_vshfLanes {i : Iss} {f : FmtM} {m : LaneSet} {l k : Nat} (hl : inSet m l = true) (hk : k < tyP f.ty.toNat) :
    sube (tyW f.ty.toNat) k ((vshfLanes f i m).1.getD l 0) = vshfElem i f l k := by
  rw [vshfLanes, getD_lanes32_map _ (inSet_lt hl), if_pos hl, sube_pack]
  · simp [hk, Nat.mod_eq_of_lt (vshfElem_lt i f l k)]
  · rw [List.length_map, List.length_range, tyW_mul_tyP]

/-! ### FABS and FNEG (R190) -/

theorem testBit_clear_sign {ty n : Nat} (h : n < tyW ty) (x : Nat) :
    (x % fsign ty % 2 ^ tyW ty).testBit n = (x.testBit n && decide (n ≠ tyW ty - 1)) := by
  have low : n < tyW ty - 1 ↔ n ≠ tyW ty - 1 := by omega
  simp only [fsign, Nat.testBit_mod_two_pow, h, low, decide_true, Bool.true_and, Bool.and_comm]

theorem testBit_invert_sign {ty n : Nat} (h : n < tyW ty) (x : Nat) :
    ((x ^^^ fsign ty) % 2 ^ tyW ty).testBit n = (x.testBit n != decide (n = tyW ty - 1)) := by
  simp only [fsign, Nat.testBit_mod_two_pow, Nat.testBit_xor, Nat.testBit_two_pow, h, decide_true, Bool.true_and,
    eq_comm (a := n)]

/-! ### FMIN and FMAX (R191) -/

/-- An operand as SUBN gives it is no wider than the operand. -/
theorem fin_lt {md : Modes} {ty x : Nat} (h : x < 2 ^ tyW ty) : fin md ty x < 2 ^ tyW ty := by
  have sign : fsign ty < 2 ^ tyW ty := Nat.pow_lt_pow_right (by norm_num) (Nat.sub_one_lt (tyW_pos ty).ne')
  unfold fin
  split
  · rcases Nat.mod_two_eq_zero_or_one (x / fsign ty) with e | e <;> rw [e] <;> omega
  · exact h

section FMinMax

variable (md : Modes) {ty : Nat} (isMax : Bool) {a b : Nat}

theorem fminmax_of_nans (ha : (fread md ty a).isNan = true) (hb : (fread md ty b).isNan = true) :
    (fminmax md ty isMax a b).1 = fnan ty := by
  rw [fread] at ha hb
  simp [fminmax, ha, hb]

theorem fminmax_of_nan_left (ha : (fread md ty a).isNan = true) (hb : ¬ (fread md ty b).isNan = true) :
    (fminmax md ty isMax a b).1 = fin md ty b := by
  rw [fread] at ha hb
  simp [fminmax, ha, hb]

theorem fminmax_of_nan_right (ha : ¬ (fread md ty a).isNan = true) (hb : (fread md ty b).isNan = true) :
    (fminmax md ty isMax a b).1 = fin md ty a := by
  rw [fread] at ha hb
  simp [fminmax, ha, hb]

theorem fminmax_of_le (ha : ¬ (fread md ty a).isNan = true) (hb : ¬ (fread md ty b).isNan = true)
    (le : fkey ty (fin md ty a) ≤ fkey ty (fin md ty b)) :
    (fminmax md ty isMax a b).1 = if isMax then fin md ty b else fin md ty a := by
  rw [fread] at ha hb
  cases isMax <;> simp [fminmax, ha, hb, le]

theorem fminmax_of_lt (ha : ¬ (fread md ty a).isNan = true) (hb : ¬ (fread md ty b).isNan = true)
    (lt : fkey ty (fin md ty b) < fkey ty (fin md ty a)) :
    (fminmax md ty isMax a b).1 = if isMax then fin md ty a else fin md ty b := by
  rw [fread] at ha hb
  cases isMax <;> simp [fminmax, ha, hb, lt]

theorem fminmax_lt (hn : fnan ty < 2 ^ tyW ty) (ha : a < 2 ^ tyW ty) (hb : b < 2 ^ tyW ty) :
    (fminmax md ty isMax a b).1 < 2 ^ tyW ty := by
  unfold fminmax
  dsimp only
  split_ifs
  · exact hn
  · exact fin_lt hb
  · exact fin_lt ha
  · exact fin_lt ha
  · exact fin_lt hb

end FMinMax

/-! ### FCLASS, FROUND and FSCALE (R193, R194) -/

section Cases

variable {md : Modes} {ty pos a b c : Nat} {sig neg : Bool} {m : Nat} {e : Int}

theorem opFclass_le : (opFclass md ty pos a b c).1 ≤ 9 := by
  unfold opFclass
  dsimp only
  split
  next sig _ => cases sig <;> decide
  next neg _ => cases neg <;> decide
  next neg m e _ => split_ifs <;> decide

theorem opFround_of_nan (h : fread md ty a = .nan sig) : opFround md ty pos a b c = (fnan ty, if sig then fNV else 0) := by
  simp only [opFround, h]

theorem opFround_of_inf (h : fread md ty a = .inf neg) : opFround md ty pos a b c = (a, 0) := by
  simp only [opFround, h]

theorem opFround_of_fin (h : fread md ty a = .fin neg m e) : opFround md ty pos a b c =
    ((roundFull Modes.exactRne 0 ty (.fin neg (roundInt md.plain.rm 0 neg m e).1 0) false).1,
      if (roundInt md.plain.rm 0 neg m e).2 then fNX else 0) := by
  simp only [opFround, h]

theorem roundTo_inf (h : ty ≠ 12) : roundTo md ty (.inf neg) pos = ((if neg then fsign ty else 0) + finf ty, 0) := by
  simp only [roundTo, roundFull, if_neg h]

theorem opFscale_of_nan (h : fread md ty a = .nan sig) : opFscale md ty pos a b c = (fnan ty, if sig then fNV else 0) := by
  simp only [opFscale, h]

theorem opFscale_of_inf (h : fread md ty a = .inf neg) (h12 : ty ≠ 12) :
    opFscale md ty pos a b c = ((if neg then fsign ty else 0) + finf ty, 0) := by
  simp only [opFscale, h, roundTo_inf h12]

theorem opFscale_of_fin (h : fread md ty a = .fin neg m e) :
    opFscale md ty pos a b c = roundTo md.plain ty (.fin neg m (e + sval (tyW ty) b)) pos := by
  simp only [opFscale, h]

end Cases

/-- Settles O6: VMOV agrees with A in every sub-element and so in all 64 bits; VSHF packs the sub-elements that B names. -/
theorem movesWithinLanes : Obligations.MovesWithinLanes := by
  unfold Obligations.MovesWithinLanes
  intro s i f hd
  refine ⟨fun h fit => ?vmov, fun h hty => ?vshf⟩
  case vmov =>
    have checks : firstCause i (headM f true false (vintPfx false f.ty.toNat) [src10 f.a])
        (dvOk f.d.toNat i.g.budget && tySrcsOk i [(src10 f.a, f.ty.toNat)]) = none :=
      issues_check h rfl (Bool.and_false _) rfl rfl rfl rfl (by rw [hd, Bool.true_and]; exact issues_tySrcsOk h fit)
    obtain ⟨t, g, next, done, val, raised⟩ := arith_raises (guard := f.g.toNat) (ty := f.ty.toNat) (nw := f.nw) (fma := false)
      (op := opVmov) h.iss checks h.live
    refine ⟨t, g, next, done, raised.fflags_eq fun _ _ => rfl, fun l hl => eq_of_sube_eq (ty := f.ty.toNat) fun k hk => ?_⟩
    calc sube (tyW f.ty.toNat) k (g.vget f.d.toNat l)
        = sube (tyW f.ty.toNat) k (i.read (src10 f.a) l f.ty.toNat) % 2 ^ tyW f.ty.toNat % 2 ^ tyW f.ty.toNat := val l k hl hk
      _ = sube (tyW f.ty.toNat) k (i.read (src10 f.a) l f.ty.toNat) := by rw [Nat.mod_mod, Nat.mod_eq_of_lt (sube_lt _ _ _)]
  case vshf =>
    have cls : vintPfx false f.ty.toNat = .zero := by rw [vintPfx, hty]; rfl
    have srcs : tySrcsOk i ((srcsM f 3).map fun x => (x, f.ty.toNat)) = true :=
      issues_tySrcsOk h (immFit_of_immOk (immOk_of_tyInt hty) _)
    have checks : firstCause i (headM f true (!tyInt f.ty.toNat) (vintPfx false f.ty.toNat) (srcsM f 3))
        (dvOk f.d.toNat i.g.budget && tySrcsOk i ((srcsM f 3).map fun x => (x, f.ty.toNat))) = none :=
      issues_check h (by rw [hty]; rfl) (Bool.and_false _) rfl cls rfl rfl (by rw [hd, srcs]; rfl)
    obtain ⟨t, g, next, done, val, flags⟩ := vec_done
      (operands := fun i => dvOk f.d.toNat i.g.budget && tySrcsOk i ((srcsM f 3).map fun x => (x, f.ty.toNat)))
      (d := f.d.toNat) (guard := f.g.toNat) (n := tyP f.ty.toNat) (nw := f.nw) (f := vshfLanes f) h.iss checks h.live
    refine ⟨t, g, (execVshf_eq f s).trans next, done, by simpa [vshfLanes] using flags, fun l k hl hk => ?_⟩
    exact (congrArg (sube (tyW f.ty.toNat) k) (val l hl)).trans (sube_vshfLanes (mem_written hl).2 hk)

/-- Settles O12: each minor completes as `vflt_raises` says (FSCALE, whose B is read under an integer type, as `arith_raises`), and its
element operation gives the stated bits and flags by the sign bit (FABS, FNEG) or by the classes of the operands. -/
theorem floatSelections : Obligations.FloatSelections := by
  unfold Obligations.FloatSelections
  refine ⟨fun s i f hd hty h fit => ⟨?fabs, ?fneg⟩,
    fun s i f hd hty => ⟨fun x hx h => ?minmax, fun h => ⟨?fclass, ?fround⟩, fun h => ?fscale⟩⟩
  case fabs =>
    obtain ⟨t, g, next, done, val, raised⟩ := vflt_raises (small := true) false opFabs h hd (by simp [hty]) fit
    refine ⟨t, g, next, done, raised.fflags_eq fun _ _ => rfl, fun l k n hl hk hn => ?_⟩
    rw [val l k hl hk, opAt_map]
    exact testBit_clear_sign hn _
  case fneg =>
    obtain ⟨t, g, next, done, val, raised⟩ := vflt_raises (small := true) false opFneg h hd (by simp [hty]) fit
    refine ⟨t, g, next, done, raised.fflags_eq fun _ _ => rfl, fun l k n hl hk hn => ?_⟩
    rw [val l k hl hk, opAt_map]
    exact testBit_invert_sign hn _
  all_goals obtain ⟨imm, immInt, width, h12, nanLt, infLt, nineLt⟩ := tyF4_facts hty
  case minmax =>
    have run : exec x.1 s = vflt s f false false 2 fun md ty _ a b _ => fminmax md ty x.2 a b := by
      rcases List.mem_pair.mp hx with rfl | rfl <;> rfl
    obtain ⟨t, g, next, done, val, raised⟩ := vflt_raises (small := false) false
      (fun md ty _ a b _ => fminmax md ty x.2 a b) h hd (by simp [hty]) (immFit_of_immOk imm _)
    simp only [opAt_map] at val raised
    refine ⟨t, g, run.trans next, done, fun n hn => raised.getLsbD_eq fun _ _ => snanFlag_getLsbD_ne hn _,
      fun l k hl hk nf snan => ?invalid, fun l k hl hk => ?value⟩
    case invalid => exact (raised 0).mpr (Or.inr ⟨nf, l, k, hl, hk, snanFlag_getLsbD_zero snan⟩)
    case value =>
      rw [val l k hl hk, Nat.mod_eq_of_lt (fminmax_lt _ _ nanLt (srcElem_lt _ _ _ _ _ _) (srcElem_lt _ _ _ _ _ _))]
      exact ⟨fminmax_of_nans _ _, fminmax_of_nan_left _ _, fminmax_of_nan_right _ _, fminmax_of_le _ _, fminmax_of_lt _ _⟩
  case fclass =>
    obtain ⟨t, g, next, done, val, raised⟩ := vflt_raises (small := true) false opFclass h hd (by simp [hty])
      (immFit_of_immOk imm _)
    refine ⟨t, g, next, done, raised.fflags_eq fun _ _ => rfl, fun l k hl hk => ?_⟩
    rw [val l k hl hk, opAt_map, Nat.mod_eq_of_lt (opFclass_le.trans_lt nineLt)]
    rfl
  case fround =>
    obtain ⟨t, g, next, done, val, raised⟩ := vflt_raises (small := false) false opFround h hd (by simp [hty])
      (immFit_of_immOk imm _)
    simp only [opAt_map] at val raised
    refine ⟨t, g, next, done, fun l k hl hk => ⟨fun sig e => ?nan, fun neg e => ?inf, fun neg m x e => ?fin⟩,
      raised.congr fun l k => ?flags⟩
    case nan => rw [val l k hl hk, opFround_of_nan e, Nat.mod_eq_of_lt nanLt]
    case inf => rw [val l k hl hk, opFround_of_inf e, Nat.mod_eq_of_lt (srcElem_lt _ _ _ _ _ _)]
    case fin => rw [val l k hl hk, opFround_of_fin e]
    case flags =>
      dsimp only
      split
      next sig e => rw [opFround_of_nan e]
      next neg e => rw [opFround_of_inf e]
      next neg m x e => rw [opFround_of_fin e]
  case fscale =>
    have srcs : tySrcsOk i [(src10 f.a, f.ty.toNat), (src10 f.b, intTy f.ty.toNat)] = true :=
      tySrcsOk_of_immOk (k := .float) h (by simp [imm, immInt])
    have checks : firstCause i (headM f true (!tyF4 f.ty.toNat) .float [src10 f.a, src10 f.b])
        (dvOk f.d.toNat i.g.budget && tySrcsOk i [(src10 f.a, f.ty.toNat), (src10 f.b, intTy f.ty.toNat)]) = none :=
      issues_check h (by simp [headM, hty]) (Bool.and_false _) rfl rfl rfl rfl (by rw [hd, srcs]; rfl)
    obtain ⟨t, g, next, done, val, raised⟩ := arith_raises (guard := f.g.toNat) (ty := f.ty.toNat) (nw := f.nw) (fma := false)
      (op := opFscale) h.iss checks h.live
    have elems (l k : Nat) : opAt i [(src10 f.a, f.ty.toNat), (src10 f.b, intTy f.ty.toNat)] f.ty.toNat opFscale l k =
        opFscale i.modes f.ty.toNat (l + 32 * k) (srcElem i (srcsM f 1) f.ty.toNat 0 l k)
          (sube (tyW f.ty.toNat) k (i.read (src10 f.b) l (intTy f.ty.toNat))) 0 := by
      rw [← width]
      rfl
    simp only [elems] at val raised
    have signedLt (neg : Bool) : (if neg then fsign f.ty.toNat else 0) + finf f.ty.toNat < 2 ^ tyW f.ty.toNat := by
      split <;> omega
    refine ⟨t, g, next, done, fun l k hl hk => ?value, raised.congr fun l k => ?flags⟩
    case value =>
      rw [val l k hl hk]
      dsimp only
      split
      next sig e => rw [opFscale_of_nan e, Nat.mod_eq_of_lt nanLt]
      next neg e => rw [opFscale_of_inf e h12, Nat.mod_eq_of_lt (signedLt neg)]
      next neg m x e => rw [opFscale_of_fin e]
    case flags =>
      dsimp only
      split
      next sig e => rw [opFscale_of_nan e]
      next neg e => rw [opFscale_of_inf e h12]
      next neg m x e => rw [opFscale_of_fin e]

end Sys2Proof

end

/-! ## Finishing an instruction (02_instruction_words.md R42; 14_execution_and_scheduling.md R346, R351)

What the laws of plain effects leave open: an instruction that ends the idempotent region, moves its lanes, parks them or traps some
of them. Whatever it does, `finished` changes nothing of its group but the lanes, as long as none of them exits. -/
section

namespace Sys2Proof.Machine

open Sys2Proof.Bits

/-- What a key finds in a list with one entry per key. -/
theorem find?_map_key {α : Type} {key : α → Nat} {f : Nat → α} (hk : ∀ x, key (f x) = x) (xs : List Nat) (l : Nat) :
    (xs.map f).find? (fun a => key a == l) = if l ∈ xs then some (f l) else none := by
  induction xs with
  | nil => rfl
  | cons x xs ih =>
    by_cases e : x = l
    · simp [hk, e]
    · simp [hk, e, Ne.symm e, ih]

/-! ### The port of an issue -/

/-- A port with a run is one of the device's. -/
theorem State.port_exists {s : State} {c p : Nat} {r : Run} (h : ((s.core c).port p).run = some r) :
    c < s.cores.length ∧ p < (s.core c).ports.length := by
  have hp : p < (s.core c).ports.length := by
    by_contra out
    rw [Core.port, List.getD_eq_default _ _ (not_lt.mp out)] at h
    cases h
  refine ⟨?_, hp⟩
  by_contra out
  rw [State.core, List.getD_eq_default _ _ (not_lt.mp out), Core.port, Core.fresh,
    List.getD_eq_getElem?_getD, List.getElem?_getD_replicate_default_eq] at h
  cases h

/-- A port of the device that is replaced reads back. -/
theorem State.port_setPort {s : State} {c p : Nat} (x : Port) (hc : c < s.cores.length) (hp : p < (s.core c).ports.length) :
    ((s.setPort c p x).core c).port p = x := by
  rw [State.setPort, State.core_setCore, if_pos ⟨rfl, hc⟩, Core.setPort, Core.port, List.getD_eq_getElem?_getD,
    List.getElem?_set_self hp, Option.getD_some]

/-! ### The group -/

theorem parkLanes_eq (i : Iss) (e : Eff) (g : Group) : ∃ ls, parkLanes i e g = { g with lanes := ls } := by
  unfold parkLanes
  generalize e.gone = gone
  induction e.parks generalizing g with
  | nil => exact ⟨g.lanes, rfl⟩
  | cons p ps ih => exact ih _

/-- A finished instruction changes only the lanes of its group, while none exits. -/
theorem finished_eq (s : State) (i : Iss) (len : Nat) {e : Eff} (g0 : Group) (h : e.ended = 0) :
    ∃ ls, finished s i len e g0 = { g0 with lanes := ls } := by
  obtain ⟨ls, parked⟩ := parkLanes_eq i e (takeFaults g0 i.t (s.teamWorld i.t) i.key i.pci i.now e.traps e.replays).1
  unfold finished advance
  rw [h, if_pos rfl, parked]
  split <;> exact ⟨_, rfl⟩

theorem finished_specials {s : State} {i : Iss} {len : Nat} {e : Eff} {g g0 : Group} (h : e.ended = 0) (hk : SpecialsKept g g0) :
    SpecialsKept g (finished s i len e g0) := by
  obtain ⟨ls, same⟩ := finished_eq s i len g0 h
  rw [same]
  exact ⟨hk.gid, hk.team, hk.budget, hk.next, hk.cv, hk.tmask, hk.trapv, hk.mon, hk.actSel, hk.plate, hk.halted, hk.halt, hk.save,
    hk.err⟩

theorem finished_regs (s : State) (i : Iss) (len : Nat) {e : Eff} (g0 : Group) (h : e.ended = 0) :
    RegsOf (finished s i len e g0) g0 := by
  obtain ⟨ls, same⟩ := finished_eq s i len g0 h
  rw [same]
  exact ⟨rfl, rfl, rfl, rfl, rfl, rfl, rfl, rfl⟩

/-! ### The lanes -/

/-- A lane that does not complete is left by the PC table as the instruction's parks and faults have set it. -/
theorem advance_lane_of_not_done {i : Iss} {next : BitVec 64} {e : Eff} {g : Group} {l : Nat} (h : e.ended = 0)
    (hd : inSet (e.done i) l = false) (hl : l < 32) : (advance i next e g).lane l = g.lane l := by
  unfold advance
  rw [h, if_pos rfl, laneSet_or_zero]
  split <;> simp [Group.lane_onLanes _ _ _ hl, hd]

/-- What an instruction that goes on in no lane of its sub-group, but parks them all, leaves to be finished. -/
def Iss.parkAll (i : Iss) (w : Wait) : Eff := { i.eff with parks := [(i.sub, w)] }

theorem parkAll_ended (i : Iss) (w : Wait) : (i.parkAll w).ended = 0 := BitVec.zero_and

theorem parkAll_gone (i : Iss) (w : Wait) : (i.parkAll w).gone = 0 := by
  simp [Eff.gone, Iss.parkAll, Iss.eff, trapLanes_nil, replayLanes_nil]

theorem inSet_parkAll_done (i : Iss) (w : Wait) (l : Nat) : inSet ((i.parkAll w).done i) l = false := by
  have parked : (i.parkAll w).parked = i.sub := by
    rw [Eff.parked, parkAll_gone, laneSet_and_not_zero]
    exact BitVec.zero_or
  rw [Eff.done, parked, inSet_and]
  cases hl : inSet i.sub l
  · rfl
  · rw [inSet_not _ (inSet_lt hl)]
    simp [inSet_or, hl]

theorem takeFaults_nil_lane (g : Group) (t : Team) (w k : Nat) (pci : BitVec 64) (now : Nat) {l : Nat} (hl : l < 32) :
    (takeFaults g t w k pci now [] []).1.lane l = g.lane l := by
  unfold takeFaults
  cases t.service <;> simp [Group.takeReplays_nil_lane _ _ _ hl, Group.takeTraps_nil_lane _ _ _ hl]

/-- Each lane after an instruction that parks its sub-group. -/
theorem finished_lane_parkAll (s : State) (i : Iss) (len : Nat) (w : Wait) (g0 : Group) {l : Nat} (hl : l < 32) :
    (finished s i len (i.parkAll w) g0).lane l =
      if inSet i.sub l then
        { g0.lane l with st := .parked w, pc := i.pci, since := i.now, ret := false, seen := 0,
                         kept := if w = .path then some (i.run.count, i.run.held l) else none }
      else g0.lane l := by
  unfold finished
  rw [advance_lane_of_not_done (parkAll_ended i w) (inSet_parkAll_done i w l) hl]
  unfold parkLanes
  rw [parkAll_gone]
  simp only [Iss.parkAll, Iss.eff, List.foldl_cons, List.foldl_nil, laneSet_and_not_zero]
  rw [Group.lane_onLanes _ _ _ hl, takeFaults_nil_lane _ _ _ _ _ _ hl]

/-- A lane that an instruction traps: it records the trap and stands TRAPPED at the instruction (R42). -/
theorem finished_lane_trapped {s : State} {i : Iss} {len : Nat} {e : Eff} {g0 : Group} {l : Nat} {x : LTrap} (hl : l < 32)
    (trap : e.traps.find? (fun t => t.lane == l) = some x) (replays : e.replays = []) (parks : e.parks = []) (ended : e.ended = 0) :
    (finished s i len e g0).lane l =
      { g0.lane l with st := .trapped (!toHandler g0 l), pc := i.pci, tcause := x.cause, tpc := i.pci, taddr := x.addr,
                       tinfo := x.info, skip := false, ret := false, kept := none, seen := 0, since := i.now } := by
  have own : (x.lane == l) = true := List.find?_some (p := fun t : LTrap => t.lane == l) trap
  have gone : inSet e.gone l = true := by
    rw [Eff.gone, inSet_or, trapLanes, inSet_laneSet _ hl, Bool.or_eq_true]
    exact Or.inl (List.any_eq_true.mpr ⟨x, List.mem_of_find?_eq_some trap, own⟩)
  have stays : inSet (e.done i) l = false := by
    rw [Eff.done, inSet_and, inSet_not _ hl]
    simp [inSet_or, gone]
  unfold finished
  rw [advance_lane_of_not_done ended stays hl, parkLanes, parks, replays, List.foldl_nil]
  unfold takeFaults
  cases i.t.service <;>
    simp [Group.takeReplays_nil_lane _ _ _ hl, Group.takeTraps, Group.lane_mapLanes _ _ hl, trap]

/-- Where the lanes of a list of jumps go (R356). -/
theorem target_of_jumps {e : Eff} {xs : List Nat} {t : Nat → BitVec 64} (h : e.jumps = xs.map fun l => (l, t l))
    (next : BitVec 64) (l : Nat) : e.target next l = if l ∈ xs then t l else next := by
  rw [Eff.target, h, find?_map_key (key := Prod.fst) (fun _ => rfl)]
  split <;> rfl

/-! ### The state -/

theorem eff_plain (i : Iss) : i.eff.Plain := ⟨rfl, rfl, rfl, rfl, rfl⟩

/-- The issuing group as the state holds it is the issue's. -/
theorem State.updGroup_eq {s : State} {i : Iss} (h : s.iss? = some i) (f : Group → Group) :
    s.updGroup i f = s.setGroup i.key (f i.g) := by
  rw [State.updGroup, State.issGroup_eq h]

/-- An issue whose checks pass and whose instruction has no fault and ends no lane: the state with its group as `finished` says and
the port's run as `nextRun` says, and otherwise as the body left it. -/
theorem issue_finishes {s s1 : State} {i : Iss} {h : Head} {operands : Iss → Bool} {body : Iss → State → State × Eff}
    {e : Eff} {g1 : Group} (hi : s.iss? = some i) (hc : firstCause i h (operands i) = none) (hb : body i s = (s1, e))
    (traps : e.traps = []) (replays : e.replays = []) (ended : e.ended = 0) (hg : s1.group? i.key = some g1)
    (cores : s1.cores = s.cores) (hu : Untouched s s1 i.key)
    (live : ∃ l, l < 32 ∧ ((finished s1 i h.len e g1).lane l).st ≠ .exited) :
    ∃ t, issue s h operands body = .next t ∧ t.group? i.key = some (finished s1 i h.len e g1) ∧ Untouched s t i.key ∧
      ((t.core i.core).port i.port).run =
        nextRun i (i.run.pc + BitVec.ofNat 64 (4 * h.len)) h.rb e (finished s1 i h.len e g1) := by
  obtain ⟨l, hl, hs⟩ := live
  obtain ⟨hcore, hport⟩ := State.port_exists (State.iss?_run hi)
  have port : ((s1.setGroup i.key (finished s1 i h.len e g1)).core i.core).ports = (s.core i.core).ports := by
    rw [State.core_setGroup, State.core, cores]
    rfl
  rw [issue_next hi hc, hb]
  dsimp only
  rw [finish_eq hg ended (Group.allExited_false hl hs), traps, replays, takeFaults_nil, addPosts_nil]
  refine ⟨_, rfl, ?group, ?rest, ?run⟩
  case group => exact State.group?_setGroup _ hg
  case rest =>
    exact (hu.trans (Untouched.setGroup s1 i.key _)).trans (Untouched.setRun (s1.setGroup i.key _) i.key i.core i.port _)
  case run =>
    rw [State.port_setPort _ (by rwa [State.setGroup_cores, cores]) (by rwa [port])]

/-- The same for a plain effect: what each lane does is `finished_lane`. -/
theorem issue_plain {s s1 : State} {i : Iss} {h : Head} {operands : Iss → Bool} {body : Iss → State → State × Eff}
    {e : Eff} {g1 : Group} (hi : s.iss? = some i) (hc : firstCause i h (operands i) = none) (hb : body i s = (s1, e))
    (plain : e.Plain) (hg : s1.group? i.key = some g1) (cores : s1.cores = s.cores) (hu : Untouched s s1 i.key)
    (live : ∃ l, l < 32 ∧ (g1.lane l).st ≠ .exited) :
    ∃ t, issue s h operands body = .next t ∧ t.group? i.key = some (finished s1 i h.len e g1) ∧ Untouched s t i.key ∧
      ((t.core i.core).port i.port).run =
        nextRun i (i.run.pc + BitVec.ofNat 64 (4 * h.len)) h.rb e (finished s1 i h.len e g1) := by
  obtain ⟨l, hl, hs⟩ := live
  refine issue_finishes hi hc hb plain.traps plain.replays plain.ended hg cores hu ⟨l, hl, ?_⟩
  rw [finished_lane plain hl]
  split <;> exact hs

/-- An instruction that replaces its group by one with the same lanes and special registers completes. -/
theorem setGroup_completed {s : State} {i : Iss} {h : Head} {operands : Iss → Bool} {body : Iss → State → State × Eff}
    {g1 : Group} (hi : s.iss? = some i) (hc : firstCause i h (operands i) = none)
    (hb : body i s = (s.setGroup i.key g1, i.eff)) (lanes : g1.lanes = i.g.lanes) (kept : SpecialsKept i.g g1)
    (live : ∃ l, l < 32 ∧ (i.g.lane l).st ≠ .exited) :
    ∃ t g, issue s h operands body = .next t ∧ Completed s t i h.len g ∧ RegsOf g g1 := by
  obtain ⟨t, g, next, done, regs, -⟩ := issue_completed hi hc hb (eff_plain i) rfl rfl
    (State.group?_setGroup _ (State.iss?_group hi)) lanes kept (Untouched.setGroup s i.key g1) live
  exact ⟨t, g, next, done, regs⟩

/-- An instruction with RB = 1 that moves lanes and changes no register of its group but vector registers (R356, R358): its lanes go
where its jumps say, or on to the next instruction, and the run ends. -/
theorem issue_flows {s s1 : State} {i : Iss} {h : Head} {operands : Iss → Bool} {body : Iss → State → State × Eff}
    {e : Eff} {g1 : Group} {target : Nat → BitVec 64} (hi : s.iss? = some i) (hc : firstCause i h (operands i) = none)
    (hb : body i s = (s1, e)) (plain : e.Plain) (region : e.region = false) (rb : h.rb = true)
    (hg : s1.group? i.key = some g1) (cores : s1.cores = s.cores) (hu : Untouched s s1 i.key)
    (same : ∃ v, g1 = { i.g with v := v }) (live : ∃ l, l < 32 ∧ (i.g.lane l).st ≠ .exited)
    (goes : ∀ l, inSet i.sub l = true → e.target (i.run.pc + BitVec.ofNat 64 (4 * h.len)) l = target l) :
    ∃ t g, issue s h operands body = .next t ∧ g.v = g1.v ∧ Flowed s t i g target := by
  obtain ⟨v, rfl⟩ := same
  have lane {l : Nat} (hl : l < 32) := finished_lane (s := s1) (i := i) (len := h.len) (g0 := { i.g with v := v }) plain hl
  obtain ⟨t, next, group, rest, run⟩ := issue_plain hi hc hb plain hg cores hu live
  obtain ⟨rv, rg, rk, rj, rfm, -, rff, ra⟩ := finished_regs s1 i h.len { i.g with v := v } plain.ended
  refine ⟨t, _, next, rv, group, ?went, ?ended, ?traps, ?others, ?kept, ⟨rg, rk, rj, rfm, rff, ra⟩, rest⟩
  case went =>
    intro l hl
    rw [lane (inSet_lt hl), if_pos hl]
    exact ⟨goes l hl, rfl⟩
  case ended => rw [run, nextRun, rb]; rfl
  case traps =>
    intro l hl
    rw [lane hl, region]
    split <;> exact ⟨rfl, rfl, rfl, rfl, rfl⟩
  case others =>
    intro l hl out
    rw [lane hl, if_neg (Bool.eq_false_iff.mp out)]
    rfl
  case kept => exact finished_specials plain.ended (by constructor <;> rfl)

/-- The same for an instruction that does nothing but branch. -/
theorem issue_branches {s : State} {i : Iss} {h : Head} {operands : Iss → Bool} {body : Iss → State → State × Eff}
    {e : Eff} {target : Nat → BitVec 64} (hi : s.iss? = some i) (hc : firstCause i h (operands i) = none)
    (hb : body i s = (s, e)) (plain : e.Plain) (region : e.region = false) (rb : h.rb = true)
    (live : ∃ l, l < 32 ∧ (i.g.lane l).st ≠ .exited)
    (goes : ∀ l, inSet i.sub l = true → e.target (i.run.pc + BitVec.ofNat 64 (4 * h.len)) l = target l) :
    ∃ t g, issue s h operands body = .next t ∧ g.v = i.g.v ∧ Flowed s t i g target :=
  issue_flows hi hc hb plain region rb (State.iss?_group hi) rfl (Untouched.refl s i.key) ⟨i.g.v, rfl⟩ live goes

theorem Group.gget_congr {g g' : Group} (h : g.g = g'.g) (n : Nat) : g.gget n = g'.gget n := by
  rw [Group.gget, h, Group.gget]

theorem writeDst_eq (g : Group) (e : Eff) (d : Nat) (nw : Bool) (m : LaneSet) (res : Nat → BitVec 64) :
    ∃ v, (writeDst g e d nw m res).1 = { g with v := v } := by
  unfold writeDst
  cases nw <;> exact ⟨_, rfl⟩

end Sys2Proof.Machine

end

/-! ## PFX, modes and regions (02_instruction_words.md R30, R37; 07_number_formats.md R170, R171, R178; 08_vector_unit.md R203;
14_execution_and_scheduling.md R361) -/
section

namespace Sys2Proof

open Sys2Proof.Machine Sys2Proof.Bits

/-! ### The dither phase in FMODE (Table 7.6) -/

/-- The bits of FMODE beside the dither phase are kept, and the phase is taken modulo 64. -/
theorem getLsbD_withDph (fm : BitVec 32) (d : Nat) {n : Nat} (hn : n < 32) :
    (withDph fm d).getLsbD n = if 8 ≤ n ∧ n ≤ 13 then d.testBit (n - 8) else fm.getLsbD n := by
  have mask : (0x3F00 : BitVec 32).getLsbD n = decide (8 ≤ n ∧ n ≤ 13) := by
    have all : ∀ m, m < 32 → (0x3F00 : BitVec 32).getLsbD m = decide (8 ≤ m ∧ m ≤ 13) := by decide
    exact all n hn
  have phase : (BitVec.ofNat 32 (d % 64 * 256)).getLsbD n = (decide (8 ≤ n ∧ n ≤ 13) && d.testBit (n - 8)) := by
    rw [BitVec.getLsbD_ofNat, show 64 = 2 ^ 6 from rfl, show 256 = 2 ^ 8 from rfl, Nat.testBit_mul_two_pow,
      Nat.testBit_mod_two_pow, ← Bool.and_assoc, ← Bool.and_assoc]
    congr 1
    rw [Bool.eq_iff_iff]
    simp only [Bool.and_eq_true, decide_eq_true_eq]
    omega
  rw [withDph, BitVec.getLsbD_or, BitVec.getLsbD_and, BitVec.getLsbD_not, mask, phase]
  by_cases h : 8 ≤ n ∧ n ≤ 13 <;> simp [h, hn]

/-- The dither phase reads back (R178). -/
theorem fld_withDph (fm : BitVec 32) (d : Nat) : fld (withDph fm d).toNat 8 6 = d % 64 := by
  refine Nat.eq_of_testBit_eq fun j => ?_
  rw [fld, show 64 = 2 ^ 6 from rfl, Nat.testBit_mod_two_pow, Nat.testBit_mod_two_pow, Nat.testBit_shiftRight, BitVec.testBit_toNat]
  by_cases hj : j < 6
  · rw [getLsbD_withDph fm d (by omega), if_pos (by omega), Nat.add_sub_cancel_left]
  · simp [hj]

/-! ### One lemma per instruction -/

/-- PFX where the run has room (R30). -/
theorem execPfx_holds {s : State} {i : Iss} {f : FmtP} (hi : s.iss? = some i) (room : i.run.count + 1 < Config.runLimit)
    (first : i.run.pfx = none) (rb : f.rb = false) :
    execPfx f s = .next (s.setPort i.core i.port
      { (s.core i.core).port i.port with
        run := some { i.run with pfx := some f, pc := i.run.pc + 4, count := i.run.count + 1 } }) := by
  rw [execPfx, hi]
  simp [first, rb, not_le.mpr room]

section Instructions

variable {s : State} {i : Iss}

/-- NOP (R37). -/
theorem execNop_completed {f : FmtS} (h : Issues s i .none []) (nw : f.nw = false) :
    ∃ t g, execNop f s = .next t ∧ Completed s t i 1 g ∧ RegsOf g i.g := by
  unfold execNop
  exact setGroup_completed h.iss (issues_check h rfl (by rw [headS, nw]; rfl) rfl rfl rfl rfl rfl) rfl rfl (SpecialsKept.refl i.g)
    h.live

/-- MODE with an accepted value (R170, R171). -/
theorem execMode_completed {f : FmtM} (h : Issues s i .none []) (rb : f.rb = true) (nw : f.nw = false)
    (uniform : (src10 f.a).uniform = true) (ok : fmodeOk (i.uni (src10 f.a)).toNat = true) :
    ∃ t g, execMode f s = .next t ∧ Completed s t i 2 g ∧
      RegsOf g { i.g with fmodeNext := some (BitVec.ofNat 32 ((i.uni (src10 f.a)).toNat % 32)) } := by
  unfold execMode
  exact setGroup_completed h.iss
    (issues_check h (by rw [headM, rb]; rfl) (by rw [headM, nw]; rfl) rfl rfl rfl rfl uniform)
    (by dsimp only; rw [if_pos ok, State.updGroup_eq h.iss]) rfl (by constructor <;> rfl) h.live

/-- MODER (R171). -/
theorem execModer_completed {f : FmtM} (h : Issues s i .none []) (nw : f.nw = false) (hd : f.d.toNat < 64) :
    ∃ t g, execModer f s = .next t ∧ Completed s t i 2 g ∧ RegsOf g (i.g.gset f.d.toNat (i.g.fmode.setWidth 64)) := by
  unfold execModer
  exact setGroup_completed h.iss (issues_check h rfl (by rw [headM, nw]; rfl) rfl rfl rfl rfl (decide_eq_true hd)) rfl rfl
    (by constructor <;> rfl) h.live

/-- VDITH.set (R178). -/
theorem execVdithSet_completed {f : FmtM} {v : Int} (h : Issues s i .float []) (nw : f.nw = false) (hb : src10 f.b = .imm v 0)
    (uniform : (src10 f.a).uniform = true) :
    ∃ t g, execVdithSet f s = .next t ∧ Completed s t i 2 g ∧
      RegsOf g { i.g with fmode := withDph i.g.fmode (fld (i.uni (src10 f.a)).toNat 0 6) } := by
  have operands : ((src10 f.a).uniform && (src10 f.b).isImm && decide (codeOf f.b = 0)) = true := by
    rw [uniform, codeOf, hb]
    rfl
  unfold execVdithSet
  exact setGroup_completed h.iss (issues_check h rfl (by rw [headM, nw]; rfl) rfl rfl rfl rfl operands) rfl rfl
    (by constructor <;> rfl) h.live

/-- VDITH.adv (R178). -/
theorem execVdithAdv_completed {f : FmtM} (h : Issues s i .float []) (nw : f.nw = false) :
    ∃ t g, execVdithAdv f s = .next t ∧ Completed s t i 2 g ∧
      RegsOf g { i.g with fmode := withDph i.g.fmode (fld i.g.fmode.toNat 8 6 + 17) } := by
  unfold execVdithAdv
  exact setGroup_completed h.iss (issues_check h rfl (by rw [headM, nw]; rfl) rfl rfl rfl rfl rfl) rfl rfl
    (by constructor <;> rfl) h.live

theorem region_plain (i : Iss) : ({ i.eff with region := true } : Eff).Plain := ⟨rfl, rfl, rfl, rfl, rfl⟩

/-- IDEM (R361). -/
theorem execIdem_finishes {f : FmtW} (h : Issues s i .none []) (nw : f.m.nw = false) :
    ∃ t, execIdem f s = .next t ∧ t.group? i.key = some (finished s i 3 { i.eff with region := true } i.g) ∧
      Untouched s t i.key := by
  unfold execIdem
  exact (issue_plain h.iss (issues_check h rfl (by rw [headW, nw]; rfl) rfl rfl rfl rfl rfl) rfl (region_plain i)
    (State.iss?_group h.iss) rfl (Untouched.refl s i.key) h.live).imp fun t ⟨next, group, rest, _⟩ => ⟨next, group, rest⟩

/-! ### ATSEL (R203) -/

/-- The group with a bank selected, or none. -/
def withBank (g : Group) (n : Nat) : Group := { g with actSel := if n = 2 then none else some n }

/-- What ATSEL leaves to be finished: its sub-group parks while the bank loads. -/
def atselEff (s : State) (i : Iss) (n : Nat) : Eff :=
  if n < 2 ∧ ((s.core i.core).actBank n).st = .loading then i.parkAll (.select n) else i.eff

theorem atselEff_faultless (s : State) (i : Iss) (n : Nat) :
    (atselEff s i n).traps = [] ∧ (atselEff s i n).replays = [] ∧ (atselEff s i n).ended = 0 := by
  unfold atselEff
  split
  · exact ⟨rfl, rfl, parkAll_ended i _⟩
  · exact ⟨rfl, rfl, (eff_plain i).ended⟩

/-- No lane exits at an ATSEL. -/
theorem atsel_live (u : State) (g : Group) (n len : Nat) (live : ∃ l, l < 32 ∧ (g.lane l).st ≠ .exited) :
    ∃ l, l < 32 ∧ ((finished u i len (atselEff s i n) g).lane l).st ≠ .exited := by
  obtain ⟨l, hl, hs⟩ := live
  refine ⟨l, hl, ?_⟩
  unfold atselEff
  split
  · rw [finished_lane_parkAll _ _ _ _ _ hl]
    split
    · nofun
    · exact hs
  · rw [finished_lane (eff_plain i) hl]
    split <;> exact hs

/-- ATSEL with a bank number (R203). -/
theorem execAtsel_finishes {f : FmtM} {n : Nat} (h : Issues s i .none []) (nw : f.nw = false)
    (uniform : (src10 f.a).uniform = true) (bank : (i.uni (src10 f.a)).toNat = n) (hn : n < 3) :
    ∃ t, execAtsel f s = .next t ∧
      t.group? i.key = some (finished (s.setGroup i.key (withBank i.g n)) i 2 (atselEff s i n) (withBank i.g n)) ∧
      Untouched s t i.key := by
  have checks : firstCause i (headM f false false .none []) (src10 f.a).uniform = none :=
    issues_check h rfl (by rw [headM, nw]; rfl) rfl rfl rfl rfl uniform
  obtain ⟨traps, replays, ended⟩ := atselEff_faultless s i n
  unfold execAtsel
  refine (issue_finishes h.iss checks ?body traps replays ended
    (State.group?_setGroup (withBank i.g n) (State.iss?_group h.iss)) rfl (Untouched.setGroup _ _ _)
    (atsel_live _ _ _ _ h.live)).imp fun t ⟨next, group, rest, _⟩ => ⟨next, group, rest⟩
  case body =>
    dsimp only
    rw [bank, if_neg (not_le.mpr hn), State.updGroup_eq h.iss, atselEff]
    split <;> rfl

/-- Outside the lanes, ATSEL changes its group's selection only. -/
theorem finished_withBank (u : State) (len n : Nat) :
    let g := finished u i len (atselEff s i n) (withBank i.g n)
    g.actSel = (if n = 2 then none else some n) ∧ RegistersKept i.g g ∧ g.fmodeNext = i.g.fmodeNext ∧
      SpecialsKept { i.g with actSel := g.actSel } g := by
  obtain ⟨-, -, ended⟩ := atselEff_faultless s i n
  obtain ⟨ls, same⟩ := finished_eq u i len (withBank i.g n) ended
  rw [same]
  exact ⟨rfl, ⟨rfl, rfl, rfl, rfl, rfl, rfl⟩, rfl, by constructor <;> rfl⟩

end Instructions

/-- Settles O21: PFX is held by the port's run; NOP, MODE, MODER and VDITH replace their group by one with the same lanes;
IDEM and ATSEL finish with the lanes that `finished_lane` and `finished_lane_parkAll` give. -/
theorem modesAndRegions : Obligations.ModesAndRegions := by
  unfold Obligations.ModesAndRegions
  intro s i
  refine ⟨?pfx, ?nop, ?idem, ?mode, ?moder, fun f h nw => ⟨?set, ?adv⟩, ?select, ?waits⟩
  case pfx =>
    intro f hi room first rb
    obtain ⟨hcore, hport⟩ := State.port_exists (State.iss?_run hi)
    exact ⟨_, _, execPfx_holds hi room first rb, congrArg Port.run (State.port_setPort _ hcore hport), rfl, rfl, rfl, rfl, rfl,
      (State.group?_setPort _ _ _ _ _).trans (State.iss?_group hi), Untouched.setRun s i.key i.core i.port _⟩
  case nop =>
    intro f h nw
    obtain ⟨t, g, next, done, regs⟩ := execNop_completed h nw
    exact ⟨t, g, next, ⟨done, regs.v, regs.j, regs.fmode, regs.fmodeNext, regs.awaits⟩, regs.g, regs.k, regs.fflags⟩
  case idem =>
    intro f h nw
    obtain ⟨t, next, group, rest⟩ := execIdem_finishes h nw
    have ended := (region_plain i).ended
    have regs := finished_regs s i 3 i.g ended
    refine ⟨t, _, next, group, regs.v, regs.g, regs.k, regs.j, regs.fmode, regs.fflags,
      finished_specials ended (SpecialsKept.refl i.g), rest, fun l hl => ?sub, fun l hl out => ?others⟩
    case sub =>
      rw [finished_lane (region_plain i) (inSet_lt hl), if_pos hl]
      exact ⟨rfl, rfl⟩
    case others =>
      rw [finished_lane (region_plain i) hl, if_neg (Bool.eq_false_iff.mp out)]
  case mode =>
    intro f h rb nw uniform ok
    obtain ⟨t, g, next, done, regs⟩ := execMode_completed h rb nw uniform ok
    exact ⟨t, g, next, done, regs.v, regs.g, regs.k, regs.j, regs.fflags, regs.fmode, regs.fmodeNext⟩
  case moder =>
    intro f h nw hd
    obtain ⟨t, g, next, done, regs⟩ := execModer_completed h nw hd
    refine ⟨t, g, next, ⟨done, regs.v, regs.j, regs.fmode, regs.fmodeNext, regs.awaits⟩, ?value, fun r hr => ?others, regs.k,
      regs.fflags⟩
    case value => rw [Group.gget_congr regs.g, Group.gget_gset, if_pos rfl]
    case others => rw [Group.gget_congr regs.g, Group.gget_gset, if_neg hr]
  case set =>
    intro v hb uniform
    obtain ⟨t, g, next, done, regs⟩ := execVdithSet_completed h nw hb uniform
    refine ⟨t, g, next, done, regs.v, regs.g, regs.k, regs.j, regs.fflags, regs.fmodeNext, fun n hn => ?_⟩
    rw [regs.fmode, getLsbD_withDph _ _ hn]
    refine ite_congr rfl (fun hp => ?_) fun _ => rfl
    rw [fld, Nat.testBit_mod_two_pow, Nat.shiftRight_zero, decide_eq_true (by omega), Bool.true_and, BitVec.testBit_toNat]
  case adv =>
    obtain ⟨t, g, next, done, regs⟩ := execVdithAdv_completed h nw
    refine ⟨t, g, next, done, regs.v, regs.g, regs.k, regs.j, regs.fflags, regs.fmodeNext, ?phase, fun n hn out => ?kept⟩
    case phase => rw [regs.fmode, fld_withDph]
    case kept => rw [regs.fmode, getLsbD_withDph _ _ hn, if_neg (by omega)]
  case select =>
    intro f h nw uniform n hn ready
    obtain ⟨t, next, group, rest⟩ := execAtsel_finishes h nw uniform rfl hn
    obtain ⟨sel, regs, later, specials⟩ := finished_withBank (i := i) (s := s) (s.setGroup i.key (withBank i.g n)) 2 n
    have goes : atselEff s i n = i.eff := if_neg fun ⟨h2, loading⟩ => ready.elim (fun e => by omega) fun e => e loading
    refine ⟨t, _, next, group, sel, regs, later, specials, rest, fun l hl => ?sub, fun l hl out => ?others⟩
    case sub =>
      rw [goes, finished_lane (eff_plain i) (inSet_lt hl), if_pos hl]
      exact ⟨rfl, rfl⟩
    case others =>
      rw [goes, finished_lane (eff_plain i) hl, if_neg (Bool.eq_false_iff.mp out)]
      rfl
  case waits =>
    intro f h nw uniform n hn loading
    obtain ⟨t, next, group, rest⟩ := execAtsel_finishes h nw uniform rfl (Nat.lt_succ_of_lt hn)
    obtain ⟨sel, regs, later, specials⟩ := finished_withBank (i := i) (s := s) (s.setGroup i.key (withBank i.g n)) 2 n
    have parks : atselEff s i n = i.parkAll (.select n) := if_pos ⟨hn, loading⟩
    refine ⟨t, _, next, group, sel.trans (if_neg hn.ne), regs, later, specials, rest, fun l hl => ?sub,
      fun l hl out => ?others⟩
    case sub =>
      rw [parks, finished_lane_parkAll _ _ _ _ _ (inSet_lt hl), if_pos hl]
      exact ⟨rfl, rfl⟩
    case others =>
      rw [parks, finished_lane_parkAll _ _ _ _ _ hl, if_neg (Bool.eq_false_iff.mp out)]
      rfl

end Sys2Proof

end

/-! ## Branches (14_execution_and_scheduling.md R356, R358) -/
section

namespace Sys2Proof

open Sys2Proof.Machine Sys2Proof.Bits

/-- A lane of a set goes to its target, another to the next instruction. -/
theorem target_jumpAll {e : Eff} {m : LaneSet} {t : BitVec 64} (h : e.jumps = jumpAll m t) (next : BitVec 64) (l : Nat) :
    e.target next l = if inSet m l then t else next := by
  rw [target_of_jumps (t := fun _ => t) h]
  simp only [mem_lanesOf]

section Jumps

variable {s : State} {i : Iss}

/-- BR and BRN (R356). -/
theorem shortBranch_flows {f : FmtB} (set : Bool) (h : Issues s i .none []) (rb : f.rb = true) (nw : f.nw = false) :
    ∃ t g, shortBranch s f set = .next t ∧ g.v = i.g.v ∧ Flowed s t i g fun l =>
      if inSet (i.g.kget f.k.toNat) l = set then i.run.pc + 4 * f.off.signExtend 64 else i.run.pc + 4 := by
  unfold shortBranch
  refine issue_branches h.iss (issues_check h (by rw [rb]; rfl) (by rw [nw]; rfl) rfl rfl rfl rfl rfl) rfl
    ⟨rfl, rfl, rfl, rfl, rfl⟩ rfl rb h.live fun l hl => ?_
  rw [target_jumpAll rfl, inSet_and, hl, Bool.true_and]
  cases set
  · simp only [Bool.false_eq_true, if_false, inSet_not _ (inSet_lt hl), Bool.not_eq_true']
    rfl
  · rfl

/-- The checks of a flow instruction of three words pass (R354, R358). -/
theorem flow_checks {f : FmtW} {srcs : List Src} {vdst ok : Bool} (h : Issues s i .none srcs) (rb : f.m.rb = true)
    (nw : (f.m.nw && !vdst) = false) (operands : ok = true) : firstCause i (headW f vdst (!f.m.rb) srcs) ok = none :=
  issues_check h (by rw [headW, rb]; rfl) nw rfl rfl rfl rfl operands

/-- BRA (R358). -/
theorem execBra_flows {f : FmtW} (h : Issues s i .none []) (rb : f.m.rb = true) (nw : f.m.nw = false) :
    ∃ t g, execBra f s = .next t ∧ g.v = i.g.v ∧ Flowed s t i g fun l =>
      if inSet (i.act f.m.g.toNat) l then wordTarget i f else i.run.pc + 12 := by
  unfold execBra
  exact issue_branches h.iss (flow_checks h rb (by rw [nw]; rfl) rfl) rfl ⟨rfl, rfl, rfl, rfl, rfl⟩ rfl rb h.live
    fun l _ => target_jumpAll rfl _ l

/-- BRC and BRC.z (R358). -/
theorem execBrc_flows {f : FmtW} (h : Issues s i .none (srcsM f.m 1)) (rb : f.m.rb = true) (nw : f.m.nw = false) :
    ∃ t g, execBrc f s = .next t ∧ g.v = i.g.v ∧ Flowed s t i g fun l =>
      if inSet (i.act f.m.g.toNat) l && (decide (i.read (src10 f.m.a) l 15 ≠ 0) != bit f.aux.toNat 0)
      then wordTarget i f else i.run.pc + 12 := by
  unfold execBrc
  refine issue_branches h.iss (flow_checks h rb (by rw [nw]; rfl) (issues_srcsOk h)) rfl ⟨rfl, rfl, rfl, rfl, rfl⟩ rfl rb h.live
    fun l hl => ?_
  rw [target_jumpAll rfl, inSet_and, inSet_laneSet _ (inSet_lt hl)]
  rfl

/-- CALL (R358). -/
theorem execCall_flows {f : FmtW} (h : Issues s i .none []) (rb : f.m.rb = true) (hd : dvOk f.m.d.toNat i.g.budget = true) :
    ∃ t g, execCall f s = .next t ∧
      g.v = (writeDst i.g i.eff f.m.d.toNat f.m.nw (i.act f.m.g.toNat) fun _ => i.pci + 12).1.v ∧ Flowed s t i g fun l =>
        if inSet (i.act f.m.g.toNat) l then wordTarget i f else i.run.pc + 12 := by
  unfold execCall
  exact issue_flows h.iss (flow_checks h rb (Bool.and_false _) hd) rfl ⟨rfl, rfl, rfl, rfl, rfl⟩ rfl rb
    (State.group?_setGroup _ (State.iss?_group h.iss)) rfl (Untouched.setGroup _ _ _) (writeDst_eq _ _ _ _ _ _) h.live
    fun l _ => target_jumpAll rfl _ l

/-- What RET and JMPI leave to be finished: the active lanes whose target is a multiple of 4 jump, the others trap. -/
def laneJumpEff (i : Iss) (f : FmtW) (off : BitVec 64) : Eff :=
  let t (l : Nat) : BitVec 64 := i.read (src10 f.m.a) l 15 + off
  let act := lanesOf (i.act f.m.g.toNat)
  { i.eff with
    traps := (act.filter fun l => decide ((t l).toNat % 4 ≠ 0)).map fun l =>
      { lane := l, cause := cMisaligned, addr := t l, info := 0, access := 7 }
    jumps := (act.filter fun l => decide ((t l).toNat % 4 = 0)).map fun l => (l, t l) }

variable {f : FmtW} {off : BitVec 64}

theorem laneJump_checks (h : Issues s i .none (srcsM f.m 1)) (rb : f.m.rb = true) (nw : f.m.nw = false)
    (address : (src10 f.m.a).address = true) :
    firstCause i (headW f false (!f.m.rb) [src10 f.m.a]) ((src10 f.m.a).address && srcsOk i [src10 f.m.a]) = none :=
  flow_checks h rb (by rw [nw]; rfl) (by rw [address, Bool.true_and]; exact issues_srcsOk h)

/-- Every active lane with an aligned target: all of them go there. -/
theorem laneJump_flows (h : Issues s i .none (srcsM f.m 1)) (rb : f.m.rb = true) (nw : f.m.nw = false)
    (address : (src10 f.m.a).address = true)
    (aligned : ∀ l, inSet (i.act f.m.g.toNat) l = true → (i.read (src10 f.m.a) l 15 + off).toNat % 4 = 0) :
    ∃ t g, laneJump s f off = .next t ∧ g.v = i.g.v ∧ Flowed s t i g fun l =>
      if inSet (i.act f.m.g.toNat) l then i.read (src10 f.m.a) l 15 + off else i.run.pc + 12 := by
  have traps : (laneJumpEff i f off).traps = [] := by
    rw [laneJumpEff, List.map_eq_nil_iff, List.filter_eq_nil_iff]
    intro l hl
    simpa using aligned l (mem_lanesOf.mp hl)
  unfold laneJump
  refine issue_branches (e := laneJumpEff i f off) h.iss (laneJump_checks h rb nw address) rfl ⟨traps, rfl, rfl, rfl, rfl⟩ rfl rb
    h.live fun l _ => ?_
  rw [target_of_jumps rfl]
  have mem : l ∈ (lanesOf (i.act f.m.g.toNat)).filter (fun l => decide ((i.read (src10 f.m.a) l 15 + off).toNat % 4 = 0)) ↔
      inSet (i.act f.m.g.toNat) l = true := by
    rw [List.mem_filter, mem_lanesOf, decide_eq_true_eq]
    exact and_iff_left_of_imp (aligned l)
  simp only [mem]
  rfl

/-- A lane whose target is not aligned traps with the target as its address. -/
theorem laneJump_traps (h : Issues s i .none (srcsM f.m 1)) (rb : f.m.rb = true) (nw : f.m.nw = false)
    (address : (src10 f.m.a).address = true) :
    ∃ t, laneJump s f off = .next t ∧ ∀ g, t.group? i.key = some g → ∀ l, inSet (i.act f.m.g.toNat) l = true →
      (i.read (src10 f.m.a) l 15 + off).toNat % 4 ≠ 0 →
      (g.lane l).tcause = 8 ∧ (g.lane l).taddr = i.read (src10 f.m.a) l 15 + off ∧ (g.lane l).tpc = i.pci := by
  unfold laneJump
  refine ⟨_, issue_next h.iss (laneJump_checks h rb nw address), ?_⟩
  intro g group l hl odd
  have ended : (laneJumpEff i f off).ended = 0 := BitVec.zero_and
  have trap : (laneJumpEff i f off).traps.find? (fun t => t.lane == l) =
      some { lane := l, cause := cMisaligned, addr := i.read (src10 f.m.a) l 15 + off, info := 0, access := 7 } := by
    rw [laneJumpEff, find?_map_key (key := LTrap.lane) (fun _ => rfl), if_pos]
    exact List.mem_filter.mpr ⟨mem_lanesOf.mpr hl, decide_eq_true odd⟩
  have lane := finished_lane_trapped (s := s) (i := i) (len := 3) (g0 := i.g) (inSet_lt hl) trap rfl rfl ended
  have stays : (finished s i 3 (laneJumpEff i f off) i.g).allExited = false :=
    Group.allExited_false (inSet_lt hl) (by rw [lane]; nofun)
  have fin := finish_group? (len := 3) (rb := f.m.rb) (State.iss?_group h.iss) ended stays
  cases fin.symm.trans group
  rw [lane]
  exact ⟨rfl, rfl, rfl⟩

end Jumps

/-- Settles O22: each branch leaves a list of jumps, and `issue_flows` says where the lanes go; `laneJump_traps` has the traps. -/
theorem branches : Obligations.Branches := by
  unfold Obligations.Branches
  intro s i
  refine ⟨?short, fun f rb nw => ⟨fun h => ?bra, fun h => execBrc_flows h rb nw⟩, ?call, ?ret⟩
  case short =>
    intro f h rb nw x hx
    rcases List.mem_pair.mp hx with rfl | rfl
    · exact shortBranch_flows true h rb nw
    · exact shortBranch_flows false h rb nw
  case bra =>
    simp only [Bool.and_true]
    exact execBra_flows h rb nw
  case call =>
    intro f rb h hd
    obtain ⟨t, g, next, v, flowed⟩ := execCall_flows h rb hd
    have val (r : Nat) {l : Nat} (hl : l < 32) : g.vget r l =
        if r = f.m.d.toNat ∧ inSet (written i f.m.g.toNat f.m.nw) l = true then i.pci + 12 else i.g.vget r l :=
      (Group.vget_congr v r l).trans (vget_writeDst _ _ _ _ _ _ _ hl)
    refine ⟨t, g, next, fun r l hl other => ?kept, fun l hl => ?link, flowed⟩
    case kept =>
      rw [val r hl, if_neg]
      rintro ⟨rfl, inside⟩
      exact other.elim (fun ne => ne rfl) fun out => Bool.false_ne_true (out.symm.trans inside)
    case link => rw [val _ (inSet_lt hl), if_pos ⟨rfl, hl⟩]
  case ret =>
    intro f rb nw address h x hx
    have run : exec x.1 s = laneJump s f x.2 := by
      rcases List.mem_pair.mp hx with rfl | rfl <;> rfl
    rw [run]
    exact ⟨laneJump_flows h rb nw address, laneJump_traps h rb nw address⟩

end Sys2Proof

end
